-- ==== Sys2Proof/Word.lean ====
section
/-!
DEFINITION. The word types of the block: bytes and byte strings. Everything the model reads out of bytes (little-endian
fields, R5) is in `Machine/Ops.lean`.
-/

namespace Sys2Proof

/-- One byte. -/
abbrev Byte := BitVec 8

/-- A byte string: a message, a blob, a packet payload. -/
abbrev Bytes := List Byte

end Sys2Proof
end

