-- ==== Sys2Proof/Syntax.lean ====
section
/-!
DEFINITION. The commands the block takes (spec/opcode_table.json), with their operands. An operand is what the outside
world supplies: bytes received, a measurement, a pin level, the outcome of a race the spec leaves to the hardware.
-/

namespace Sys2Proof

/-- Where a control message came from and where its reply goes (R45): the transport code, and on Ethernet the peer's
address and UDP port, on CAN FD the node. -/
structure Route where
  transport : Nat
  addr : Nat
  port : Nat
  deriving DecidableEq, Repr, Inhabited

/-- What an Ethernet frame carries that the device can act on (R44). -/
inductive EthBody where
  /-- An ARP request for an IPv4 address, from a MAC and an IPv4 address. -/
  | arpRequest (target senderMac senderIp : Nat)
  /-- An ICMP echo request to an IPv4 address. -/
  | icmpEcho (dst src : Nat) (payload : Bytes)
  /-- One IPv4 fragment (or a whole packet: offset 0, more false) carrying UDP: `data` is the piece of the UDP datagram. -/
  | ipv4 (dst src ident offset : Nat) (more : Bool) (data : Bytes)
  /-- A UDP datagram over IPv6 to the port's link-local address (`dstOk`), from address and port. -/
  | ipv6 (dstOk : Bool) (src srcPort dstPort : Nat) (payload : Bytes)
  /-- Any other traffic. -/
  | other
  deriving DecidableEq, Repr, Inhabited

/-- An Ethernet frame: its VLAN tag (VID; 0 for a priority tag) if it has one, and its body. -/
structure EthFrame where
  vlan : Option Nat
  body : EthBody
  deriving DecidableEq, Repr, Inhabited

/-- What a bus answers to one operation of a transfer (R69): how many times in a row the target leaves its address unacknowledged;
whether it leaves a data byte unacknowledged; how long the operation takes, stretching included, in µs; of an SDA held low, the SCL
clocks after which it is let go; the bytes read. -/
structure BusAnswer where
  naks     : Nat := 0
  dataNack : Bool := false
  us       : Nat := 0
  held     : Option Nat := none
  data     : Bytes := []
  deriving DecidableEq, Repr, Inhabited

/-- A CSI-2 or DSI-2 packet (R107, R108): virtual channel, data type, and for a short packet its 16-bit data field, for a
long packet its payload. `marked`: marked as a CRC failure (R109). -/
structure Packet where
  vc : Nat
  dt : Nat
  short : Bool
  data : Nat
  payload : Bytes
  marked : Bool
  deriving DecidableEq, Repr, Inhabited

/-- How a received packet header passed its ECC (R109). -/
inductive HeaderEcc where
  | good | corrected | bad
  deriving DecidableEq, Repr, Inhabited

/-- What a receive port takes from its lanes (Table 5.1, R104, R109): a whole packet; the SoT of a burst, with as many bits of the sync byte
wrong on `lane`; low-power data; of a long packet of `wc` payload bytes still in progress, its header and the payload so far; a periodic
deskew burst with the phases found, in 1/32 UI; the clock lane's standard exit from HS. `truncated`: the packet ended before WC + 2
bytes. `full`, `parity`: the runner outputs whose route FIFO or write queue had no room for it, or showed a parity error. -/
inductive RxUnit where
  | packet (ecc : HeaderEcc) (crcOk truncated : Bool) (p : Packet) (full parity : BitVec 48)
  | sot (lane bits : Nat)
  | lowPower (dt : Nat)
  | part (p : Packet) (wc : Nat)
  | deskew (phases : List Int)
  | clockStop
  deriving DecidableEq, Repr, Inhabited

/-- What the hardware measured over the previous heat, read in the hard window (R31): whether the window's work finishes in
this heat and the cycles it took; crucible conflict and busy cycles per bank (R167), U and D latency (R165), the U requests
over the alert threshold (bank, cycles); loss-of-signal noise samples (port, lane, mV) (R103); the smallest path slack
and its monitor, whether AVSBus acknowledged, the core power (R449); tundish ratio estimates in 2⁻³² (instance, ratio, settled)
(R316); cupola phase errors (cupola, mean, largest) in ps (R295);
whether a self-test of a running trial image failed (R420); the granules the patrol scrubber read in the heat before (R169). -/
structure HardIn where
  finished    : Bool := true
  cycles      : Nat := 0
  conflicts   : List Nat := List.replicate 64 0
  busy        : List Nat := List.replicate 64 0
  latMeanU    : Nat := 0
  latMaxU     : Nat := 0
  latMaxD     : Nat := 0
  slowU       : List (Nat × Nat) := []
  noise       : List (Nat × Nat × Nat) := []
  slack       : Nat := 255
  slackAt     : Nat := 0
  avsAck      : Bool := true
  powerMw     : Nat := 0
  ratios      : List (Nat × Nat × Bool) := []
  phaseErr    : List (Nat × Int × Nat) := []
  selfTestBad : Bool := false
  scrubbed    : Nat := 0
  deriving DecidableEq, Repr

/-- What happened at the riser of a layer in a heat (R239): the mould took bytes of it, or the crucible served its oldest request of a class. -/
inductive RiserEv where
  | take (mould layer bytes : Nat)
  | serve (mould layer : Nat) (urgent : Bool)
  deriving DecidableEq, Repr, Inhabited

/-- What the hardware samples at a heat boundary: the eight temperature sensors in 0.125 °C (R451); the frames master serial
ports received and PDM inputs decimated in the heat before (R303, R313); which wake sources are active, as `dev.wake_src` bits,
with REVERSE_IN's level in bit 1 (R444); GPIO input levels (R453); rails in regulation (R457); the accumulator and divider count each ladle's hardware latches at the pulse
(R291); whether the pair that takes over in a changeover has applied the capture and every delta (R416); the single-bit errors corrected in
the heat before in flasks and risers, and in controller memory (R18); what happened at the risers in the heat before, in order (R239). -/
structure BoundaryIn where
  tj     : List Int := []
  sap    : List (Nat × List (List Nat)) := []
  pdm    : List (Nat × List (List Nat)) := []
  wake   : Nat := 0
  gpio   : Nat := 0
  rails  : Nat := 0xFF
  phases : List (Nat × Nat × Nat) := []
  handover : Bool := false
  eccLocal : Nat := 0
  eccCtl   : Nat := 0
  risers   : List RiserEv := []
  deriving DecidableEq, Repr

/-- A Morcel frame (R339): channel, SOP, EOP and MARK flags, SEQ, payload. -/
structure MorFrame where
  ch   : Nat
  sop  : Bool
  eop  : Bool
  mark : Bool
  seq  : Nat
  data : Bytes
  deriving DecidableEq, Repr, Inhabited

/-- What a start finds (R375, R376, R413, R433 to R436): the PAIR_ID and VDDIO_B levels at RESET_N release; whether REFCLK has edges; the
response of the unclonable function after correction, whether its reconstruction or the OTP ECC failed, and the most bits a BCH block
needed; cupola 0's band search result and hold DAC code; the µs from release to cupola 0's lock, and the heats from there to the
firmware's start and to the end of the boot; what a board programmer has written into the flash meanwhile (R437). -/
structure BootIn where
  drag     : Bool := false
  vddioB   : Bool := false
  refEdges : Bool := true
  puf      : Bytes := []
  eccFail  : Bool := false
  bch      : Nat := 0
  band     : Nat := 0
  code     : Nat := 0
  leadUs   : Nat := 0
  fwAt     : Nat := 0
  heats    : Nat := 0
  flash    : List (Nat × Bytes) := []
  deriving DecidableEq, Repr

/-- An entry of key RAM (R386). -/
inductive KeyEntry where
  | slot (n : Nat)
  | session (slot : Nat)
  | pairLink
  deriving DecidableEq, Repr, Inhabited


/-- The access that found a queue's pointers in disagreement (R312): its unit, and whether it was a write. -/
structure QueueAccess where
  unit  : Nat
  write : Bool
  deriving DecidableEq, Repr, Inhabited

/-- A rail out of regulation (R457): the rail, and by how many percent it is below nominal. -/
structure RailLevel where
  rail : Nat
  pct  : Nat
  deriving DecidableEq, Repr, Inhabited

/-- A droop of VDD_CORE (R450): how far below the set point, and for how many core cycles. -/
structure Droop where
  mv     : Nat
  cycles : Nat
  deriving DecidableEq, Repr, Inhabited

/-- What receive training found (R100, R102): the lanes' CTLE codes, and their phases in 1/32 UI where the deskew burst came. -/
structure TrainedIn where
  codes : List Nat
  burst : Option (List Int)
  deriving DecidableEq, Repr, Inhabited

/-- What a replayed frame met (R132, R138): `late`, the lines whose fetch was late, with the bytes that came in time; `drops`, the lines at
which route FIFOs were full, or showed a parity error, with those outputs. -/
structure ReplayIn where
  late  : List (Nat × Nat)
  drops : List (Nat × BitVec 48 × BitVec 48)
  deriving DecidableEq, Repr, Inhabited

/-- The commands of the block: one constructor per row of spec/opcode_table.json. Every command but HEAT_BOUNDARY carries
`t`, the core cycle within the current heat at which it happens (R26). -/
inductive Instr where
  /-- HEAT_BOUNDARY (R24): Every 100,000 core cycles a heat boundary increments the heat number, transfers heat-class shadow sets and pulses PAIR_SYNC_OUT when the unit is time master. -/
  | heatBoundary (b : BoundaryIn)
  /-- HARD_WINDOW (R31): The active controller pair runs heartbeat, journal, adaptive loops, report signing, lease evaluation and shadow writes for the next boundary. -/
  | hardWindow (t : Nat) (h : HardIn)
  /-- MESSAGE_WINDOW (R66): The active pair drains the inbound mailboxes in class and slot order within time.msg_budget_cycles. `limit`: the messages its time allows; `slow`: the shadow sets of commits accepted in it are not finished in it; `cycles`: what the checks that begin in it take, each at most the bound of R83. -/
  | messageWindow (t : Nat) (limit : Nat) (slow : Bool) (cycles : List Nat)
  /-- BACKGROUND_WINDOW (R31): The remainder of the heat runs ingot flattening, key re-masking, learning, snapshot preparation and statistics. -/
  | backgroundWindow (t : Nat)
  /-- MESSAGE_ARRIVAL (R42): A transport engine receives a whole Jorek message, checks header and tag, and discards it, answers it or places it in a mailbox. -/
  | messageArrival (t : Nat) (r : Route) (b : Bytes)
  /-- ETH_FRAME_RECEIVE (R44): An Ethernet frame arrives; the port answers ARP and ICMP echo, reassembles IPv4 fragments and passes Jorek datagrams on. -/
  | ethFrameReceive (t : Nat) (port : Nat) (f : EthFrame)
  /-- FRAG_TIMEOUT (R44): An IPv4 datagram still incomplete after ctl.frag_timeout_heats is discarded. -/
  | fragTimeout (t : Nat) (port : Nat)
  /-- ETH_LINK_CHANGE (R73): An Ethernet link goes up or down and 0x0207 is raised. -/
  | ethLinkChange (t : Nat) (port : Nat) (up fast : Bool)
  /-- CAN_FRAME_RECEIVE (R47): A CAN FD frame with a matching identifier is taken into per-node reassembly, and a wrong counter or early START abandons the partial message. -/
  | canFrameReceive (t : Nat) (ctl ident : Nat) (data : Bytes)
  /-- CAN_SEG_TIMEOUT (R47): No frame of a partial CAN FD message arrives within 8 heats, so the reassembly is abandoned. -/
  | canSegTimeout (t : Nat) (ctl node : Nat)
  /-- CAN_STATE_CHANGE (R73): A CAN FD controller changes error state and 0x0208 is raised. `st`, `tec`: as `ctl.can_status`. -/
  | canStateChange (t : Nat) (ctl st tec : Nat)
  /-- ANNOUNCE (R49): Every ctl.announce_ms each enabled, addressed Ethernet port multicasts an untagged ANNOUNCE. -/
  | announce (t : Nat)
  /-- HANDSHAKE_TIMEOUT (R52): A handshake not finished within ctl.open_timeout_heats frees its slot with close reason 2. -/
  | handshakeTimeout (t : Nat) (slot : Nat)
  /-- SESSION_IDLE_TIMEOUT (R56): A session with no lease and no authenticated message for ctl.session_idle_s closes with reason 1. -/
  | sessionIdleTimeout (t : Nat) (slot : Nat)
  /-- EVENT_RESEND_TIMEOUT (R63): Sent but unacknowledged entries are sent again after ctl.event_resend_heats. -/
  | eventResendTimeout (t : Nat) (slot : Nat)
  /-- LEASE_LAPSE (R60): A lease deadline has passed; 0x0210 is raised, dependent commits are cancelled and the expiry policy takes effect at the following boundary. `kind`, `idx`: the resource. -/
  | leaseLapse (t : Nat) (kind idx : Nat)
  /-- XFER_COMPLETE (R69): A bus transfer ends in success, NACK, timeout or stuck-bus recovery, and the reply is sent. `r`: what the bus answers, operation by operation; an operation past the list is answered at once and without data. -/
  | xferComplete (t : Nat) (ctl : Nat) (r : List BusAnswer)
  /-- I3C_IBI (R70): An I3C target raises an in-band interrupt, whose payload is read and raised as 0x0221. -/
  | i3cIbi (t : Nat) (ctl addr : Nat) (payload : Bytes)
  /-- CONSISTENCY_CHECK_DONE (R83): A consistency check that paused across message windows completes and its CHECK, COMMIT or SET proceeds. `slow`: as for MESSAGE_WINDOW. -/
  | consistencyCheckDone (t : Nat) (slow : Bool)
  /-- COMMIT_EFFECTIVE (R89): A Pending commit reaches its effective boundary and becomes Applied; heat-class values transfer and raster values wait for latch lines. -/
  | commitEffective (t : Nat)
  /-- RX_CLOCK_HS_ENTRY (R99): A receive port in Wait sees the clock-lane HS entry sequence and moves to Clock. -/
  | rxClockHsEntry (t : Nat) (port : Nat) (inverted : Bool)
  /-- RX_RATE_MEASURED (R99): The lane-rate measurement over 4,000 core cycles completes and the port moves to Train, raising 0x040C on mismatch. -/
  | rxRateMeasured (t : Nat) (port kbps : Nat)
  /-- RX_TRAINING_DONE (R100): Sampling phase, polarity and CTLE are trained on the deskew burst or first SoT, and the port moves to Map. `pins`: the data pins that requested HS, in either polarity; `inverted`: those of them with P and N swapped. -/
  | rxTrainingDone (t : Nat) (port pins inverted : Nat) (found : TrainedIn)
  /-- RX_DESKEW_TIMEOUT (R100): A required deskew burst has not arrived 1 ms after clock HS entry, so the port trains on the next SoT and raises 0x0404. -/
  | rxDeskewTimeout (t : Nat) (port : Nat)
  /-- RX_LANE_ORDER_FOUND (R101): Eight consecutive headers pass ECC under one lane order; the port moves to Up and raises 0x0401 and 0x0403. -/
  | rxLaneOrderFound (t : Nat) (port order : Nat)
  /-- RX_MAP_FAILURE (R101): The active pin count differs from rxp.lanes, or no order is adopted within 64 headers; the port returns to Wait with 0x0404. -/
  | rxMapFailure (t : Nat) (port : Nat)
  /-- RX_CLOCK_LANE_LOSS (R104): The clock lane stops mid-burst; the port returns to Wait, raises 0x0408 and ends frames in progress as incomplete. -/
  | rxClockLaneLoss (t : Nat) (port lineState : Nat)
  /-- RX_DATA_LANE_DROPOUT (R104): A data lane's envelope stays below threshold for 16 UI; the packet is truncated and marked as a CRC failure. -/
  | rxDataLaneDropout (t : Nat) (port lane : Nat)
  /-- RX_DATA_LANE_PERSISTENT_LOSS (R104): A data lane misses HS entry on 3 bursts; the port returns to Wait and ends frames with cause 5. -/
  | rxDataLanePersistentLoss (t : Nat) (port lane : Nat)
  /-- RX_LANE_ULPS_ENTRY (R105): A receive lane gets the ULPS escape command and powers down its HS circuits. -/
  | rxLaneUlpsEntry (t : Nat) (port lane : Nat)
  /-- RX_LANE_WAKE (R105): A sleeping receive lane sees Mark-1 and is ready for HS within 10 µs. -/
  | rxLaneWake (t : Nat) (port lane : Nat)
  /-- CTLE_ADAPT (R102): At the end of an HS burst an adaptive lane moves its CTLE code by at most one step per heat. -/
  | ctleAdapt (t : Nat) (port lane : Nat) (up : Bool)
  /-- PACKET_RECEIVE (R107): A receive port in Up delivers a packet, checked for ECC and CRC, to stream classification. -/
  | packetReceive (t : Nat) (port : Nat) (u : RxUnit)
  /-- FE_TIMEOUT (R135): The old source's FE does not arrive within two frame periods; its frame is closed as incomplete and 0x0506 is raised. -/
  | feTimeout (t : Nat) (output vc : Nat)
  /-- TX_STOP_DONE (R114): A transmit port with a source has held Stop for 100 µs and moves to Deskew or Run. -/
  | txStopDone (t : Nat) (port : Nat)
  /-- TX_DESKEW_DONE (R114): A transmit port finishes its initial deskew burst and enters Run, raising 0x0410. -/
  | txDeskewDone (t : Nat) (port : Nat)
  /-- TX_ULPS_TIMEOUT (R106): A port with no source has held stop state for txp.lp_ctrl[15:8] ms and enters ULPS. -/
  | txUlpsTimeout (t : Nat) (port : Nat)
  /-- TX_WAKE_DONE (R106): A port leaving ULPS has driven Mark-1 for 1.0 ms and returns to Stop. -/
  | txWakeDone (t : Nat) (port : Nat)
  /-- POUR (R28): A timing generator starts a frame; the pour counter increments and the mould begins its fetches. `torn`: the layer codes that fetched lines of two input frames (R156). -/
  | pour (t : Nat) (tg : Nat) (torn : List Nat)
  /-- LATCH_LINE (R237): The first line of vertical front porch transfers shadow sets, selects LIVE slots and makes the idle and scene decisions. -/
  | latchLine (t : Nat) (tg : Nat)
  /-- TEST_LINE (R250): At each test line of a stretched porch a pending change makes that line act as the latch line and ends the porch. -/
  | testLine (t : Nat) (tg : Nat)
  /-- RESEAT_HOLD_START (R246): At the end of the frame in progress a reseating output enters Hold, and its ladle and cupola are set to the new clock. -/
  | reseatHoldStart (t : Nat) (tg : Nat)
  /-- RESEAT_RESTART (R246): Hold and clock settling end; every shadow set of the output transfers and a fresh frame starts. -/
  | reseatRestart (t : Nat) (tg : Nat)
  /-- TG_STOP (R234): A generator disabled by tg.enable 0 ends after its current frame and its port enters Stop. -/
  | tgStop (t : Nat) (tg : Nat)
  /-- GLIDE_END (R244): A ladle glide reaches its target frequency and 0x0806 is raised. -/
  | glideEnd (t : Nat) (ladle : Nat)
  /-- RISER_UNDERRUN (R205): A layer's riser is empty when a pixel is needed; the layer is transparent for the rest of the frame and its underrun count moves. -/
  | riserUnderrun (t : Nat) (mould layer line x : Nat)
  /-- SPRUE_DRAIN_COMPLETE (R184): A sprue's last chunk after FE is written and the slot becomes Complete with the next sequence. -/
  | sprueDrainComplete (t : Nat) (sprue : Nat)
  /-- REPLAY_FRAME_START (R136): At its pacing source's frame start a replay reader takes the newest complete frame and begins sending it. -/
  | replayFrameStart (t : Nat) (reader : Nat) (r : ReplayIn)
  /-- UPLOAD_WRITTEN (R161): The upload data has been written in background class and the reply is sent. -/
  | uploadWritten (t : Nat)
  /-- UPLOAD_TIMEOUT (R161): A slot in Writing from an upload receives no upload for cru.upload_timeout_heats, becomes Empty and raises 0x0605. -/
  | uploadTimeout (t : Nat) (handle slot : Nat)
  /-- GRANULE_CLEARED (R160): A freed granule finishes zeroing and returns to the free pool. -/
  | granuleCleared (t : Nat) (bank granule : Nat)
  /-- ECC_ERROR (R168): A crucible read finds a single-bit error, corrected and written back, or a double-bit error, which zeroes the group and marks the slot damaged. -/
  | eccError (t : Nat) (bank granule group : Nat) (double : Bool)
  /-- SCRUB_PASS (R169): The patrol scrubber reads every allocated granule once per cru.scrub_period_s. -/
  | scrubPass (t : Nat)
  /-- INGOT_BUILD_DONE (R225): A build completes; at the next latch line the ingot comes into use, or is discarded if a constituent changed. -/
  | ingotBuildDone (t : Nat) (mould : Nat)
  /-- CHECK_WINDOW_RESULT (R256): When a window's last pixel passes, its CRC is judged against the expected values and the mismatch count moves. -/
  | checkWindowResult (t : Nat) (inst : Nat)
  /-- LEARN_COMPLETE (R261): After P frames the distinct values are committed as chk.expect, or learning fails with 0x8904 or 0x8905. -/
  | learnComplete (t : Nat) (mould : Nat)
  /-- REVERSE_IN_DEBOUNCE (R268): REVERSE_IN holds its level over 16 high or 80 low heat samples and the trigger changes, raising 0x0908. -/
  | reverseInDebounce (t : Nat) (level : Bool)
  /-- BAND_SEARCH_DONE (R276): A cupola's band search completes, the band is stored, and the cupola enters Acquire. -/
  | bandSearchDone (t : Nat) (cupola band : Nat)
  /-- CUPOLA_LOCK (R277): A cupola's phase error stays in window for cupola.lock_n periods; it enters Locked and raises 0x0A05. -/
  | cupolaLock (t : Nat) (cupola code : Nat)
  /-- CUPOLA_LOCK_TIMEOUT (R276): A stored band fails to lock in time, is discarded and the cupola searches. -/
  | cupolaLockTimeout (t : Nat) (cupola : Nat)
  /-- CUPOLA_LOSS_OF_LOCK (R277): A cupola loses lock on a qualified reference, raises 0x0A06 and returns to Search. -/
  | cupolaLossOfLock (t : Nat) (cupola : Nat) (err : Int)
  /-- REFERENCE_GLITCH (R280): A reference period outside ±5 % puts locked cupolas into Flywheel. -/
  | referenceGlitch (t : Nat)
  /-- FLYWHEEL_RECOVER (R278): After 8 good reference periods a flywheeling cupola returns through Acquire. -/
  | flywheelRecover (t : Nat)
  /-- REFERENCE_LOSS (R281): Missing edges, rate offset or a glitch run declare reference loss; every cupola enters Holdover and 0x0A01 is raised. -/
  | referenceLoss (t : Nat) (cause : Nat)
  /-- HOLDOVER_LIMIT (R281): Holdover lasts cupola.holdover_limit_ms; 0x0A04 is raised and the device enters Degraded. -/
  | holdoverLimit (t : Nat)
  /-- REFERENCE_REQUALIFIED (R282): cupola.requal_cycles good periods re-qualify the reference and the holdover error e is recorded. -/
  | referenceRequalified (t : Nat) (e : Int)
  /-- LADLE_RECENTRE (R285): When |ROT_base| exceeds 12.5 % the ladle changes D and ROT_base together at an output edge. -/
  | ladleRecentre (t : Nat) (ladle : Nat)
  /-- LADLE_ROTATOR_FAULT (R290): A ladle's rotator fails self-check and falls back to divider mode, raising 0x0A07. -/
  | ladleRotatorFault (t : Nat) (ladle : Nat)
  /-- PAIR_SYNC_PULSE (R36): The follower receives a PAIR_SYNC pulse, measures its heat offset and corrects one heat by a core cycle if needed. `offset`: how many ps after the unit's own boundary the pulse arrives, negative before it. -/
  | pairSyncPulse (t : Nat) (offset : Int) (phases : List (Nat × Nat × Nat))
  /-- PAIR_SYNC_MISSING (R36): Offset beyond tolerance or 3 missing pulses clear the aligned bit and raise 0x0303. -/
  | pairSyncMissing (t : Nat)
  /-- FSYNC_PULSE (R294): An FSYNC output begins a pulse at its scheduled line or core-cycle offset. -/
  | fsyncPulse (t : Nat) (output : Nat)
  /-- SAP_FSYNC_EDGE (R307): A slave port receives a frame-sync edge, timestamps it and counts a frame or a framing error. `clocks`: the bit clocks of the frame that ended; `slots`: what it carried. -/
  | sapFsyncEdge (t : Nat) (port clocks : Nat) (slots : List Nat)
  /-- SAP_CLOCK_STOP (R309): No FSYNC edge arrives for the longer of 4 periods and 2 heats, so the slave port is stopped with 0x0B05. -/
  | sapClockStop (t : Nat) (port : Nat)
  /-- SAP_CLOCK_RESUME (R309): After 8 good FSYNC periods a stopped slave port restarts. -/
  | sapClockResume (t : Nat) (port : Nat)
  /-- SLOT_MASK_APPLY (R310): A new TDM slot mask takes effect at the first frame-sync edge after the boundary, raising 0x0B0C. -/
  | slotMaskApply (t : Nat) (port : Nat)
  /-- QUEUE_POINTER_MISMATCH (R312): A queue's duplicated pointers disagree; the queue resets to empty and a fault is raised. `kind`: 1 to 4 as 0x0B06 names them, 5 a session mailbox, 6 an event queue, 7 the mailbox before a session. -/
  | queuePointerMismatch (t : Nat) (kind : Nat) (at_ : QueueAccess)
  /-- PDM_STUCK (R314): A PDM data line holds one level for 1 ms and 0x0B0D is raised. -/
  | pdmStuck (t : Nat) (inst mic : Nat) (level : Bool)
  /-- TUNDISH_HOLD (R316): A tundish input stops for 2 heats, or its ratio leaves range, and the tundish holds or mutes with 0x0B07. -/
  | tundishHold (t : Nat) (inst : Nat) (outOfRange : Bool)
  /-- AUDIO_PACKET_SEND (R321): An inserter sends its packet at the first opportunity that its placement allows. -/
  | audioPacketSend (t : Nat) (inst : Nat)
  /-- MOR_STAGE_COMPLETE (R334): A Morcel receiver completes a bring-up stage and moves to the next. -/
  | morStageComplete (t : Nat) (inverted map : Nat) (skew ctle eye : List Nat)
  /-- MOR_STAGE_TIMEOUT (R334): A bring-up stage exceeds its bound, raises 0x0C22 and returns to stage 1 after 1 ms. -/
  | morStageTimeout (t : Nat) (cause lane : Nat)
  /-- TRAIN (R332): A TRAIN block requests far-transmitter tap steps and answers the last request. `ask`: what the receiver here asks of the far transmitter. -/
  | train (t : Nat) (lane state req pre post ask : Nat)
  /-- LINKSTAT (R335): A LINKSTAT block reports the far receiver's state; the link is up or training is resumed. -/
  | linkstat (t : Nat) (state : Nat)
  /-- MOR_LINK_LOSS (R337): A link detector fires at stage 7; the receiver raises 0x0C21, ends forwarding frames and returns to stage 1. -/
  | morLinkLoss (t : Nat) (cause lane : Nat)
  /-- SLUMBER (R338): A transmit direction idle for pair.mor_slumber_us sends a SLUMBER row and stops its lanes. -/
  | slumber (t : Nat)
  /-- WAKE (R338): Something is queued for a slumbering direction; it restarts its clock, sends WAKE rows and resumes traffic. -/
  | wake (t : Nat)
  /-- MOR_FRAME_RECEIVE (R339): A Morcel frame is received, checked and delivered to its channel, or discarded with 0x0C23. `good`: every block and the CRC are right; `full`, `parity`: as for PACKET_RECEIVE. -/
  | morFrameReceive (t : Nat) (f : MorFrame) (good : Bool) (full parity : BitVec 48)
  /-- MOR_CONTROL_UNKNOWN (R330): A control block of unknown type is discarded and counted under 0x0C26. -/
  | morControlUnknown (t : Nat) (typ : Nat)
  /-- ACK (R341): An ACK block advances the channel-1 window, or with NAK forces a resend. -/
  | ack (t : Nat) (seq : Nat) (nak : Bool)
  /-- MOR_RESEND_TIMEOUT (R341): ACK_SEQ has not advanced for pair.mor_rtx_us; channel 1 resends, and eight failures take the link down. -/
  | morResendTimeout (t : Nat)
  /-- HEARTBEAT (R355): A unit receives the peer's heartbeat and compares digests, takes APPLY and SEL, and detects divergence or a second active unit. -/
  | heartbeat (t : Nat) (j : Bytes)
  /-- SNAP_REQ (R363): The active unit receives a snapshot request and captures a snapshot at the next boundary. -/
  | snapReq (t : Nat) (j : Bytes)
  /-- SNAPSHOT_APPLY (R363): At the first boundary after complete receipt the standby applies the snapshot and checks its digest. -/
  | snapshotApply (t : Nat)
  /-- PAIR_ALIVE_IN_EDGE (R349): An edge arrives on PAIR_ALIVE_IN and the peer is seen alive. -/
  | pairAliveInEdge (t : Nat)
  /-- PAIR_ALIVE_IN_LOST (R365): No PAIR_ALIVE_IN edge for 248 µs; with heartbeats present 0x0C03 is raised. -/
  | pairAliveInLost (t : Nat)
  /-- HEARTBEAT_LOST (R365): No heartbeat for 248 µs while the peer is alive; the unit runs unmirrored with 0x0C02. -/
  | heartbeatLost (t : Nat)
  /-- ALIVE_WATCHDOG_EXPIRY (R349): Two heats pass without check-in; PAIR_ALIVE_OUT stops and OWN_OUT is forced low. -/
  | aliveWatchdogExpiry (t : Nat)
  /-- TAKEOVER_DETECT (R364): Heartbeat and PAIR_ALIVE_IN are both lost, so the standby enters Takeover in hardware. -/
  | takeoverDetect (t : Nat)
  /-- OWN_OUT_SWITCH (R366): At the next line start of the reference output, or the deadline, the new owner drives OWN_OUT high. -/
  | ownOutSwitch (t : Nat)
  /-- YIELD (R369): The standby receives YIELD and switches ownership at the named boundary or at once. -/
  | yield (t : Nat) (j : Bytes)
  /-- PAIR_BOOT_WAIT_END (R370): pair.boot_wait_ms ends and the unit becomes active or standby from what it has seen of the peer. -/
  | pairBootWaitEnd (t : Nat)
  /-- IMAGE_INFO (R425): A unit receives the peer's image state-version range and any switch heat for a new V. -/
  | imageInfo (t : Nat) (j : Bytes)
  /-- LADLE_SYNC (R291): The follower receives the master's ladle state for loading at a named pulse. -/
  | ladleSync (t : Nat) (j : Bytes)
  /-- RELOCK (R284): The follower receives the master's relock heat and holdover error. -/
  | relock (t : Nat) (j : Bytes)
  /-- PAIR_KEY (R394): A unit receives the peer's PAIR_KEY hello and derives the link keys, or raises 0x0D0C. -/
  | pairKey (t : Nat) (j : Bytes)
  /-- KEY_TABLE_UPDATE (R385): A key table change writes the blob, copy A and copy B in order, then loads keys and replies. `upTo`: 1 the blobs, 2 copy A, 3 copy B. -/
  | keyTableUpdate (t : Nat) (upTo : Nat)
  /-- KEY_REMASK (R387): Every key.remask_heats the key engine draws a new mask and rewrites key RAM. -/
  | keyRemask (t : Nat)
  /-- KEY_RAM_CHECK_FAIL (R386): A key RAM entry fails its CRC on use and is reloaded or rewritten, or the slot or session keys are cleared. -/
  | keyRamCheckFail (t : Nat) (e : KeyEntry) (both : Bool)
  /-- DOWNLOAD_TIMEOUT (R410): A transfer with no block for upd.download_timeout_s is abandoned with 0x0E09. -/
  | downloadTimeout (t : Nat) (id : Nat)
  /-- CHANGEOVER_READY (R416): The idle pair finishes loading and self-start, and Changeover is entered at the next boundary with the state captured. -/
  | changeoverReady (t : Nat)
  /-- CHANGEOVER_ABANDON (R418): A changeover fails or exceeds 16 heats; the old pair continues and the boot record reverts. -/
  | changeoverAbandon (t : Nat)
  /-- TRIAL_CONFIRM (R419): The trial conditions hold for 5 s and confirmation marks trailers, boot record, slot table and counters. -/
  | trialConfirm (t : Nat)
  /-- CONFIRM_TIMEOUT (R420): upd.confirm_s passes without confirmation and the device changes back with cause 1. -/
  | confirmTimeout (t : Nat)
  /-- TRIAL_PAIR_FAULT (R421): A fault stops the trial pair; the resident pair resumes from its last checkpoint and changes back with cause 4. -/
  | trialPairFault (t : Nat) (fault : Nat)
  /-- RESET_N_ASSERT (R433): RESET_N low, a supply monitor trip or a restart puts the device in Reset with transmitters undriven and FAULT_N low. `cause`: 1 RESET_N, 2 a supply monitor trip. -/
  | resetNAssert (t : Nat) (cause : Nat)
  /-- RESET_N_RELEASE (R435): RESET_N rises; the ROM samples straps, selects the reference and boots through verification, key tree and pattern application. -/
  | resetNRelease (t : Nat) (b : BootIn)
  /-- FIRST_POUR_AFTER_BOOT (R429): At the first heat boundary at or after the first pour the device leaves Boot for Autonomous or Standby. -/
  | firstPourAfterBoot (t : Nat)
  /-- BOOT_RETRY (R437): With no startable firmware the ROM retries from step 5 once per second. -/
  | bootRetry (t : Nat) (b : BootIn)
  /-- SCRIPT_COMPLETE (R441): A bring-up script finishes, or fails after its retries and raises 0x0106. -/
  | scriptComplete (t : Nat) (script : Nat) (fail : Option Nat)
  /-- BANK_IDLE_TIMEOUT (R444): In Autonomous with all wake sources inactive for dev.bank_idle_ms, Banked entry begins. -/
  | bankIdleTimeout (t : Nat)
  /-- BANKED_ENTRY_COMPLETE (R444): Sessions are closed, outputs stopped and supplies lowered, and the device is in Banked. -/
  | bankedEntryComplete (t : Nat)
  /-- WAKE_EVENT (R446): A WAKE, REVERSE_IN, GPIO or CAN wake source fires in Banked and the wake sequence starts. -/
  | wakeEvent (t : Nat) (source ident : Nat)
  /-- WAKE_COMPLETE (R447): All outputs reach their first pour together at T_wake; 0x0108 is raised and the mode changes. -/
  | wakeComplete (t : Nat)
  /-- VOLTAGE_DROOP (R450): VDD_CORE droops below the set point and logic clock edges are suppressed while it lasts. -/
  | voltageDroop (t : Nat) (droop : Droop)
  /-- SHED_STEP (R452): Every 8,000 heats above the shedding threshold one output is shed, or below it one is restored. -/
  | shedStep (t : Nat)
  /-- TX_DRIVER_FAULT (R458): A driven lane disagrees with its sent bits 64 times and fault 13 turns the port Off. -/
  | txDriverFault (t : Nat) (port lane : Nat)
  /-- RAIL_FAULT (R457): A PHY, PLL or I/O rail leaves regulation for 10 µs; transmitters go undriven and the device latches. -/
  | railFault (t : Nat) (level : RailLevel)
  /-- CONTROLLER_FAULT (R460): A controller memory error, lockstep mismatch or watchdog expiry halts the active pair and starts recovery. -/
  | controllerFault (t : Nat) (fault : Nat)
  /-- WARM_RESTART_READY (R460): The other pair finishes loading, self-test and state adoption and becomes active at the next boundary with 0x0F13. -/
  | warmRestartReady (t : Nat) (adopted : Bool)
  /-- IDLE_PAIR_SELFTEST (R462): Every flt.selftest_s the idle pair repeats its self-test, and a failure takes it out of service. -/
  | idlePairSelftest (t : Nat) (pass : Bool)
  /-- RX_MAP_RETRY_TIMEOUT (R101): On a continuous clock, a receive port back in Wait after a map failure leaves for Clock 1 ms after entering Wait and repeats bring-up. -/
  | rxMapRetryTimeout (t : Nat) (port : Nat)
  /-- MOR_TRAINING_DEADLINE (R335): 2 ms after the far receiver first reports stage 6, a transmitter whose own receiver is at stage 6 leaves training blocks for scrambled traffic without waiting for DONE. -/
  | morTrainingDeadline (t : Nat)
  /-- MOR_SLUMBER_RECEIVE (R338): A Morcel receiver takes a SLUMBER row, keeps its phases, CTLE codes, polarities, lane map and skew, and does not treat the stopped clock that follows as a loss. -/
  | morSlumberReceive (t : Nat)
  /-- MOR_WAKE_RECEIVE (R338): A Morcel receiver takes the WAKE rows of a waking direction, regains block lock and realigns its lanes on equal COUNT values. -/
  | morWakeReceive (t : Nat)
  /-- FLASK_RISER_ECC_ERROR (R457): An uncorrectable ECC error in a flask or riser makes the layer transparent for the rest of the frame and counts it as an underrun (fault 2). -/
  | flaskRiserEccError (t : Nat) (mould layer line x : Nat)
  /-- FLASH_ERASE_DONE (R408): A flash sector erase finishes, so header, trailer or waiting block pages are programmed, block replies are sent, or a freed blob location becomes free. -/
  | flashEraseDone (t : Nat) (addr : Nat)
  /-- IMAGE_VERIFY_DONE (R411): The read-back and hash of a downloaded image end; VALID is set and 0x0E02 raised, or the slot becomes invalid, and the UPD_VERIFY reply is sent. -/
  | imageVerifyDone (t : Nat)
  /-- BOOT_RECORD_WRITTEN (R412): Both boot record copies have been erased and rewritten, so activation raises 0x0E03, replies and starts the changeover, or the next stage of confirmation or changeback proceeds. `upTo`: 1 copy A alone, 2 both. -/
  | bootRecordWritten (t : Nat) (upTo : Nat)
  /-- HALTED_PAIR_SELFTEST_DONE (R462): The halted controller pair finishes its post-fault self-test and becomes idle, or goes out of service with 0x0F14. -/
  | haltedPairSelftestDone (t : Nat) (pass : Bool)
  /-- TX_MONITOR_CLEAR (R458): A port whose txp.enable was written 1 after a driver fault runs 1 ms without disagreement, so flt.tx_fault clears and fault 13 becomes inactive. -/
  | txMonitorClear (t : Nat) (port : Nat)
  /-- LADLE_PROFILE_LOOP_END (R289): A running spread profile reaches the end of its loop with ROT_ssc back at 0, and a newly committed profile replaces it there. -/
  | ladleProfileLoopEnd (t : Nat) (ladle : Nat)
  /-- VDD_AON_POWER_UP (R432): VDD_AON comes into regulation and the always-on domain starts its timer for PWR_EN_CORE and PWR_EN_PHY. -/
  | vddAonPowerUp (t : Nat)
  /-- PWR_EN_DELAY_END (R432): 1 ms after VDD_AON is in regulation, the always-on domain drives GPIO0 (PWR_EN_CORE) and GPIO1 (PWR_EN_PHY) high so that the board can sequence groups 2 and 3. -/
  | pwrEnDelayEnd (t : Nat)
  deriving DecidableEq, Repr

end Sys2Proof
end

