-- ==== Sys2Proof/WellFormed.lean ====
section
/-!
DEFINITION. Which commands are well formed: the instant lies in a heat, and every index is one the block's largest variant has
(Table 22.1 and the tables of the chapters). A resource the variant in hand lacks is a matter of the machine, not of this check.
-/

namespace Sys2Proof

/-- A core cycle of a heat, which a correction may have made one cycle longer (R24, R36). -/
def inHeat (t : Nat) : Bool := decide (t ≤ 100000)

/-- Whether a command is well formed. -/
def Instr.wf : Instr → Bool
  | .heatBoundary b => decide (b.wake < 32 ∧ b.tj.length ≤ 8)
  | .hardWindow t _ => inHeat t
  | .messageWindow t _ _ _ => inHeat t
  | .backgroundWindow t => inHeat t
  | .messageArrival t _ _ => inHeat t
  | .ethFrameReceive t port _ => inHeat t && decide (port < 2)
  | .fragTimeout t port => inHeat t && decide (port < 2)
  | .ethLinkChange t port _ _ => inHeat t && decide (port < 2)
  | .canFrameReceive t ctl ident data => inHeat t && decide (ctl < 2) && decide (ident < 2 ^ 29) && decide (data.length ≤ 64)
  | .canSegTimeout t ctl _ => inHeat t && decide (ctl < 2)
  | .canStateChange t ctl st tec => inHeat t && decide (ctl < 2) && decide (st < 4) && decide (tec < 512)
  | .announce t => inHeat t
  | .handshakeTimeout t slot => inHeat t && decide (slot < 32)
  | .sessionIdleTimeout t slot => inHeat t && decide (slot < 32)
  | .eventResendTimeout t slot => inHeat t && decide (slot < 32)
  | .leaseLapse t kind idx => inHeat t && decide (1 ≤ kind ∧ kind ≤ 16) && decide (idx < 128)
  | .xferComplete t ctl _ => inHeat t && decide (ctl < 8)
  | .i3cIbi t ctl addr _ => inHeat t && decide (ctl < 8) && decide (addr < 128)
  | .consistencyCheckDone t _ => inHeat t
  | .commitEffective t => inHeat t
  | .rxClockHsEntry t port _ => inHeat t && decide (port < 24)
  | .rxRateMeasured t port _ => inHeat t && decide (port < 24)
  | .rxTrainingDone t port pins inverted _ => inHeat t && decide (port < 24) && decide (pins < 16) && decide (inverted < 16)
  | .rxDeskewTimeout t port => inHeat t && decide (port < 24)
  | .rxLaneOrderFound t port order => inHeat t && decide (port < 24) && decide (order < 256)
  | .rxMapFailure t port => inHeat t && decide (port < 24)
  | .rxClockLaneLoss t port _ => inHeat t && decide (port < 24)
  | .rxDataLaneDropout t port lane => inHeat t && decide (port < 24) && decide (lane < 4)
  | .rxDataLanePersistentLoss t port lane => inHeat t && decide (port < 24) && decide (lane < 4)
  | .rxLaneUlpsEntry t port lane => inHeat t && decide (port < 24) && decide (lane < 5)
  | .rxLaneWake t port lane => inHeat t && decide (port < 24) && decide (lane < 5)
  | .ctleAdapt t port lane _ => inHeat t && decide (port < 24) && decide (lane < 5)
  | .packetReceive t port _ => inHeat t && decide (port < 24)
  | .feTimeout t output vc => inHeat t && decide (output < 48) && decide (vc < 32)
  | .txStopDone t port => inHeat t && decide (port < 16)
  | .txDeskewDone t port => inHeat t && decide (port < 16)
  | .txUlpsTimeout t port => inHeat t && decide (port < 16)
  | .txWakeDone t port => inHeat t && decide (port < 16)
  | .pour t tg torn => inHeat t && decide (tg < 16) && decide (torn.all (fun k => decide (k < 8)) = true)
  | .latchLine t tg => inHeat t && decide (tg < 16)
  | .testLine t tg => inHeat t && decide (tg < 16)
  | .reseatHoldStart t tg => inHeat t && decide (tg < 16)
  | .reseatRestart t tg => inHeat t && decide (tg < 16)
  | .tgStop t tg => inHeat t && decide (tg < 16)
  | .glideEnd t ladle => inHeat t && decide (ladle < 20)
  | .riserUnderrun t mould layer _ _ => inHeat t && decide (mould < 12) && decide (layer < 8)
  | .sprueDrainComplete t sprue => inHeat t && decide (sprue < 16)
  | .replayFrameStart t reader _ => inHeat t && decide (reader < 16)
  | .uploadWritten t => inHeat t
  | .uploadTimeout t handle slot => inHeat t && decide (handle < 2 ^ 16) && decide (slot < 3)
  | .granuleCleared t bank granule => inHeat t && decide (bank < 64) && decide (granule < 256)
  | .eccError t bank granule group _ => inHeat t && decide (bank < 64) && decide (granule < 256) && decide (group < 512)
  | .scrubPass t => inHeat t
  | .ingotBuildDone t mould => inHeat t && decide (mould < 12)
  | .checkWindowResult t inst => inHeat t && decide (inst < 96)
  | .learnComplete t mould => inHeat t && decide (mould < 12)
  | .reverseInDebounce t _ => inHeat t
  | .bandSearchDone t cupola _ => inHeat t && decide (cupola < 4)
  | .cupolaLock t cupola _ => inHeat t && decide (cupola < 4)
  | .cupolaLockTimeout t cupola => inHeat t && decide (cupola < 4)
  | .cupolaLossOfLock t cupola _ => inHeat t && decide (cupola < 4)
  | .referenceGlitch t => inHeat t
  | .flywheelRecover t => inHeat t
  | .referenceLoss t cause => inHeat t && decide (1 ≤ cause ∧ cause ≤ 3)
  | .holdoverLimit t => inHeat t
  | .referenceRequalified t _ => inHeat t
  | .ladleRecentre t ladle => inHeat t && decide (ladle < 20)
  | .ladleRotatorFault t ladle => inHeat t && decide (ladle < 20)
  | .pairSyncPulse t _ _ => inHeat t
  | .pairSyncMissing t => inHeat t
  | .fsyncPulse t output => inHeat t && decide (output < 8)
  | .sapFsyncEdge t port _ _ => inHeat t && decide (port < 12)
  | .sapClockStop t port => inHeat t && decide (port < 12)
  | .sapClockResume t port => inHeat t && decide (port < 12)
  | .slotMaskApply t port => inHeat t && decide (port < 12)
  | .queuePointerMismatch t kind at_ => inHeat t && decide (1 ≤ kind ∧ kind ≤ 7) && decide (at_.unit < 32)
  | .pdmStuck t inst mic _ => inHeat t && decide (inst < 4) && decide (mic < 2)
  | .tundishHold t inst _ => inHeat t && decide (inst < 16)
  | .audioPacketSend t inst => inHeat t && decide (inst < 8)
  | .morStageComplete t inverted _ _ _ _ => inHeat t && decide (inverted < 256)
  | .morStageTimeout t _ lane => inHeat t && decide (lane < 8 ∨ lane = 0xFF)
  | .train t lane state req pre post ask => inHeat t && decide (lane < 8) && decide (state < 8) && decide (req < 256) && decide (pre < 256) && decide (post < 256) && decide (ask < 256)
  | .linkstat t state => inHeat t && decide (state < 8)
  | .morLinkLoss t _ lane => inHeat t && decide (lane < 8 ∨ lane = 0xFF)
  | .slumber t => inHeat t
  | .wake t => inHeat t
  | .morFrameReceive t _ _ _ _ => inHeat t
  | .morControlUnknown t typ => inHeat t && decide (typ < 256)
  | .ack t seq _ => inHeat t && decide (seq < 2 ^ 32)
  | .morResendTimeout t => inHeat t
  | .heartbeat t _ => inHeat t
  | .snapReq t _ => inHeat t
  | .snapshotApply t => inHeat t
  | .pairAliveInEdge t => inHeat t
  | .pairAliveInLost t => inHeat t
  | .heartbeatLost t => inHeat t
  | .aliveWatchdogExpiry t => inHeat t
  | .takeoverDetect t => inHeat t
  | .ownOutSwitch t => inHeat t
  | .yield t _ => inHeat t
  | .pairBootWaitEnd t => inHeat t
  | .imageInfo t _ => inHeat t
  | .ladleSync t _ => inHeat t
  | .relock t _ => inHeat t
  | .pairKey t _ => inHeat t
  | .keyTableUpdate t upTo => inHeat t && decide (1 ≤ upTo ∧ upTo ≤ 3)
  | .keyRemask t => inHeat t
  | .keyRamCheckFail t _ _ => inHeat t
  | .downloadTimeout t _ => inHeat t
  | .changeoverReady t => inHeat t
  | .changeoverAbandon t => inHeat t
  | .trialConfirm t => inHeat t
  | .confirmTimeout t => inHeat t
  | .trialPairFault t fault => inHeat t && decide (4 ≤ fault ∧ fault ≤ 6)
  | .resetNAssert t cause => inHeat t && decide (1 ≤ cause ∧ cause ≤ 2)
  | .resetNRelease t _ => inHeat t
  | .firstPourAfterBoot t => inHeat t
  | .bootRetry t _ => inHeat t
  | .scriptComplete t script _ => inHeat t && decide (script < 256)
  | .bankIdleTimeout t => inHeat t
  | .bankedEntryComplete t => inHeat t
  | .wakeEvent t source _ => inHeat t && decide (source < 5)
  | .wakeComplete t => inHeat t
  | .voltageDroop t droop => inHeat t && decide (droop.mv ≤ 850) && decide (droop.cycles ≤ 100000)
  | .shedStep t => inHeat t
  | .txDriverFault t port lane => inHeat t && decide (port < 16) && decide (lane < 5)
  | .railFault t level => inHeat t && decide (level.rail < 8) && decide (level.pct ≤ 100)
  | .controllerFault t fault => inHeat t && decide (4 ≤ fault ∧ fault ≤ 6)
  | .warmRestartReady t _ => inHeat t
  | .idlePairSelftest t _ => inHeat t
  | .rxMapRetryTimeout t port => inHeat t && decide (port < 24)
  | .morTrainingDeadline t => inHeat t
  | .morSlumberReceive t => inHeat t
  | .morWakeReceive t => inHeat t
  | .flaskRiserEccError t mould layer _ _ => inHeat t && decide (mould < 12) && decide (layer < 8)
  | .flashEraseDone t addr => inHeat t && decide (addr < 2 ^ 24)
  | .imageVerifyDone t => inHeat t
  | .bootRecordWritten t upTo => inHeat t && decide (1 ≤ upTo ∧ upTo ≤ 2)
  | .haltedPairSelftestDone t _ => inHeat t
  | .txMonitorClear t port => inHeat t && decide (port < 16)
  | .ladleProfileLoopEnd t ladle => inHeat t && decide (ladle < 20)
  | .vddAonPowerUp t => inHeat t
  | .pwrEnDelayEnd t => inHeat t

end Sys2Proof
end

