-- ==== Sys2Proof/Decode.lean ====
section
/-!
DEFINITION. The command table gives no row any bits: commands reach the block as operands, not as words, so no word spells one.
-/

namespace Sys2Proof

/-- The command a word of `nbits` bits spells by the command table: none, since the table gives its rows no bits. -/
def decodeTableWord (nbits w : Nat) : Option Instr :=
  match nbits, w with
  | _, _ => none

end Sys2Proof
end

