-- ==== Sys2Proof/Config.lean ====
section
/-!
DEFINITION. What the spec leaves to published standards, to the silicon or to chance, as uninterpreted constants: no
proof can see a value of one. `fresh` gives the device's free values (random draws and the results the spec leaves
open), one for each count of `Dev.fresh` (assumption 1). The cryptographic primitives are the published standards the
spec names and does not restate (assumption 2).
-/

namespace Sys2Proof.Config

/-- A free value: the k-th value the device draws (a nonce, a key from the TRNG, a mask, an open result). FREE VALUE,
assumption 1. -/
opaque fresh : Nat → BitVec 256

/-- SHA-256 of a byte string (FIPS 180-4, not restated by the spec; assumption 2). -/
opaque sha256 : Bytes → BitVec 256

/-- SHA-384 of a byte string (FIPS 180-4; assumption 2). -/
opaque sha384 : Bytes → BitVec 384

/-- HMAC-SHA-256 of a message under a key (FIPS 198-1; assumption 2). -/
opaque hmac256 : Bytes → Bytes → BitVec 256

/-- AES-CMAC under a 128-bit or 256-bit key (SP 800-38B; assumption 2). -/
opaque cmac : Bytes → Bytes → BitVec 128

/-- ECDSA verification over P-256: public key X‖Y, 32-byte hash, signature r‖s (FIPS 186-4; assumption 2). -/
opaque ecdsaVerify : Bytes → Bytes → Bytes → Bool

/-- ECDSA signature over P-256 with a private key; the nonce is the third argument (FIPS 186-4; assumption 2). -/
opaque ecdsaSign : Bytes → Bytes → BitVec 256 → BitVec 512

/-- The public key X‖Y of a P-256 private key (SEC 1; assumption 2). -/
opaque p256Public : Bytes → BitVec 512

/-- The x-coordinate of the ECDH P-256 shared point of a private key and a public key (SEC 1; assumption 2). -/
opaque ecdhX : Bytes → Bytes → BitVec 256

/-- AES-GCM encryption of a plaintext under a key and nonce: ciphertext then 16-byte tag (SP 800-38D; assumption 2). -/
opaque gcmSeal : Bytes → Bytes → Bytes → Bytes → Bytes

/-- AES-GCM decryption under key, nonce and associated data: `none` when the tag fails (assumption 2). -/
opaque gcmOpen : Bytes → Bytes → Bytes → Bytes → Option Bytes

/-- The content of an X.509 v3 DER certificate the device reads: public key X‖Y, serial number, signed portion and
signature r‖s; `none` when it is no such certificate with an ECDSA P-256 key (RFC 5280; assumption 2). -/
opaque certFields : Bytes → Option (Bytes × Bytes × Bytes × Bytes)

/-- ROM_VER, the version of the mask ROM (R379): an implementation's constant (assumption 2). -/
opaque romVer : BitVec 32

/-- The SHA-256 of the Crathal device CA's public key, in ROM (Table 17.7; assumption 2). -/
opaque caHash : BitVec 256

/-- The Crathal device CA's public key X‖Y that an identity certificate verifies under (Table 17.7; assumption 2). -/
opaque caKey : BitVec 512

/-- Crathal's returns key X‖Y, in ROM (Table 17.7; assumption 2). -/
opaque returnsKey : BitVec 512

/-- Crathal's image signing key X‖Y, in ROM (R404; assumption 2). -/
opaque imageKey : BitVec 512

/-- Crathal's service key X‖Y, in ROM (R437; assumption 2). -/
opaque serviceKey : BitVec 512

/-- The public key X‖Y whose SHA-256 an owner field holds: the device stores only the hash (R393; assumption 11). -/
opaque ownerKeyOf : Bytes → BitVec 512

/-- The byte a RAW line takes where its source is missing (sprue.fill, DT, byte index): the spec states fill in pixel components only (R186; FREE VALUE, assumption 12). -/
opaque rawFill : Nat → Nat → Nat → BitVec 8

/-- The UNIT_ID a unit expects its peer to have, before the peer's PAIR_KEY names it: U of R394 takes both (FREE VALUE, assumption 20). -/
opaque peerUnitId : BitVec 64

/-- The compressed bytes of a line under VESA DSC 1.2a (Table 10.7): bits per component, target rate in 1/16 bit, slices per line, the rows of
the line's slices from their first, and the line's place among them. The spec names the standard and does not restate it (assumption 2). -/
opaque dscLine : Nat → Nat → Nat → List (List (Nat × Nat × Nat)) → Nat → Bytes

/-- The rate-control part of a PPS, from the fixed device tables of R229: bits per component, target rate in 1/16 bit (FREE VALUE, assumption
64). -/
opaque dscRate : Nat → Nat → Bytes

/-- What a blanking packet of an output carries on a line (R111; FREE VALUE, assumption 64). -/
opaque blanking : Nat → Nat → Bytes

/-- Whether the time a burst leaves of a line allows the LP exit and entry (R111): lane rate in kb/s, pixel clock in Hz, H_total (FREE VALUE,
assumption 64). -/
opaque lpFits : Nat → Nat → Nat → Bool

/-- The TIMEOUT_MS of a mirrored lease after its attachment: the journal and snapshots carry its deadline only (kind, index; FREE VALUE,
assumption 21). -/
opaque mirroredTimeout : Nat → Nat → BitVec 32

end Sys2Proof.Config
end

