-- ==== Sys2Proof/Machine/Params.lean ====
section
/-!
DEFINITION. The parameter space: the 400 definitions of the parameter maps (R8, R487, R488, Table 22.1), each with its
name, width, reset value, range and takes-effect class as its map gives them. Ranges a map writes in words are
`special` and are checked by `Check.lean`. A reset of "OTP" or "ROM" (a read-only parameter) is computed when read.
-/

namespace Sys2Proof.Machine

/-- The width of a parameter's value (R74, R75): the WIDTH code of an entry. -/
inductive PWidth where
  | w32 | w64 | blob
  deriving DecidableEq, Repr, Inhabited

/-- The takes-effect terms of Table 0.2 (R9). -/
inductive TakesEffect where
  | immediate | heat | pour | reseat | boot
  deriving DecidableEq, Repr, Inhabited

/-- The Range column of a map (R8). `special`: a range the map states in words. -/
inductive PRange where
  | readOnly
  | any
  | within (l : List (Nat × Nat))
  | special
  deriving DecidableEq, Repr, Inhabited

/-- One parameter definition: a row of a parameter map (R8). -/
structure ParamDef where
  width : PWidth
  bits  : Nat
  reset : Nat
  range : PRange
  takes : TakesEffect
  deriving DecidableEq, Repr, Inhabited

/-- One row of Table 22.1: a group of contiguous IDs and its instance counts on the two variants. -/
structure ParamGroup where
  base : Nat
  n16  : Nat
  n08  : Nat
  defs : List ParamDef
  deriving DecidableEq, Repr, Inhabited

namespace P
/-- Definition ID of `dev.mode`. -/
abbrev dev_mode : Nat := 0x0000
/-- Definition ID of `dev.mode_cause`. -/
abbrev dev_mode_cause : Nat := 0x0001
/-- Definition ID of `dev.hw_type`. -/
abbrev dev_hw_type : Nat := 0x0002
/-- Definition ID of `dev.stepping`. -/
abbrev dev_stepping : Nat := 0x0003
/-- Definition ID of `dev.ref_pref`. -/
abbrev dev_ref_pref : Nat := 0x0004
/-- Definition ID of `dev.ref_source`. -/
abbrev dev_ref_source : Nat := 0x0005
/-- Definition ID of `dev.vddio_b`. -/
abbrev dev_vddio_b : Nat := 0x0006
/-- Definition ID of `dev.reset_cause`. -/
abbrev dev_reset_cause : Nat := 0x0007
/-- Definition ID of `dev.boot_time_us`. -/
abbrev dev_boot_time_us : Nat := 0x0008
/-- Definition ID of `dev.degraded_causes`. -/
abbrev dev_degraded_causes : Nat := 0x0009
/-- Definition ID of `dev.latch_action`. -/
abbrev dev_latch_action : Nat := 0x000A
/-- Definition ID of `dev.bank_idle_ms`. -/
abbrev dev_bank_idle_ms : Nat := 0x000B
/-- Definition ID of `dev.wake_src`. -/
abbrev dev_wake_src : Nat := 0x000C
/-- Definition ID of `dev.can_wake_id`. -/
abbrev dev_can_wake_id : Nat := 0x000D
/-- Definition ID of `dev.wake_cause`. -/
abbrev dev_wake_cause : Nat := 0x000E
/-- Definition ID of `dev.bank_stats`. -/
abbrev dev_bank_stats : Nat := 0x000F
/-- Definition ID of `dev.avs_en`. -/
abbrev dev_avs_en : Nat := 0x0010
/-- Definition ID of `dev.avs_limits`. -/
abbrev dev_avs_limits : Nat := 0x0011
/-- Definition ID of `dev.avs_target`. -/
abbrev dev_avs_target : Nat := 0x0012
/-- Definition ID of `dev.avs_rail`. -/
abbrev dev_avs_rail : Nat := 0x0013
/-- Definition ID of `dev.avs_mv`. -/
abbrev dev_avs_mv : Nat := 0x0014
/-- Definition ID of `dev.cpm_stats`. -/
abbrev dev_cpm_stats : Nat := 0x0015
/-- Definition ID of `dev.droop_mv`. -/
abbrev dev_droop_mv : Nat := 0x0016
/-- Definition ID of `dev.droop_stats`. -/
abbrev dev_droop_stats : Nat := 0x0017
/-- Definition ID of `dev.tj`. -/
abbrev dev_tj : Nat := 0x0018
/-- Definition ID of `dev.tj_max`. -/
abbrev dev_tj_max : Nat := 0x0019
/-- Definition ID of `dev.tj_sensors`. -/
abbrev dev_tj_sensors : Nat := 0x001A
/-- Definition ID of `dev.therm_warn_c`. -/
abbrev dev_therm_warn_c : Nat := 0x001B
/-- Definition ID of `dev.therm_shed_c`. -/
abbrev dev_therm_shed_c : Nat := 0x001C
/-- Definition ID of `dev.therm_latch_c`. -/
abbrev dev_therm_latch_c : Nat := 0x001D
/-- Definition ID of `dev.therm_hyst_c`. -/
abbrev dev_therm_hyst_c : Nat := 0x001E
/-- Definition ID of `dev.shed_state`. -/
abbrev dev_shed_state : Nat := 0x001F
/-- Definition ID of `dev.core_power_mw`. -/
abbrev dev_core_power_mw : Nat := 0x0020
/-- Definition ID of `dev.supply_status`. -/
abbrev dev_supply_status : Nat := 0x0021
/-- Definition ID of `dev.pattern_status`. -/
abbrev dev_pattern_status : Nat := 0x0022
/-- Definition ID of `dev.pattern_name`. -/
abbrev dev_pattern_name : Nat := 0x0023
/-- Definition ID of `dev.script_run`. -/
abbrev dev_script_run : Nat := 0x0024
/-- Definition ID of `dev.script_status`. -/
abbrev dev_script_status : Nat := 0x0025
/-- Definition ID of `dev.mode_log`. -/
abbrev dev_mode_log : Nat := 0x0026
/-- Definition ID of `dev.boot_stats`. -/
abbrev dev_boot_stats : Nat := 0x0027
/-- Definition ID of `ctl.eth_en`. -/
abbrev ctl_eth_en : Nat := 0x0100
/-- Definition ID of `ctl.eth_speed`. -/
abbrev ctl_eth_speed : Nat := 0x0101
/-- Definition ID of `ctl.eth_mac0`. -/
abbrev ctl_eth_mac0 : Nat := 0x0102
/-- Definition ID of `ctl.eth_mac1`. -/
abbrev ctl_eth_mac1 : Nat := 0x0103
/-- Definition ID of `ctl.ipv4_addr0`. -/
abbrev ctl_ipv4_addr0 : Nat := 0x0104
/-- Definition ID of `ctl.ipv4_addr1`. -/
abbrev ctl_ipv4_addr1 : Nat := 0x0105
/-- Definition ID of `ctl.ipv4_prefix`. -/
abbrev ctl_ipv4_prefix : Nat := 0x0106
/-- Definition ID of `ctl.udp_port`. -/
abbrev ctl_udp_port : Nat := 0x0107
/-- Definition ID of `ctl.mcast_group`. -/
abbrev ctl_mcast_group : Nat := 0x0108
/-- Definition ID of `ctl.ipv6_en`. -/
abbrev ctl_ipv6_en : Nat := 0x0109
/-- Definition ID of `ctl.vlan`. -/
abbrev ctl_vlan : Nat := 0x010A
/-- Definition ID of `ctl.announce_ms`. -/
abbrev ctl_announce_ms : Nat := 0x010B
/-- Definition ID of `ctl.frag_timeout_heats`. -/
abbrev ctl_frag_timeout_heats : Nat := 0x010C
/-- Definition ID of `ctl.icmp_en`. -/
abbrev ctl_icmp_en : Nat := 0x010D
/-- Definition ID of `ctl.can_en`. -/
abbrev ctl_can_en : Nat := 0x010E
/-- Definition ID of `ctl.can_nom_kbps`. -/
abbrev ctl_can_nom_kbps : Nat := 0x010F
/-- Definition ID of `ctl.can_data_kbps`. -/
abbrev ctl_can_data_kbps : Nat := 0x0110
/-- Definition ID of `ctl.can_id_base`. -/
abbrev ctl_can_id_base : Nat := 0x0111
/-- Definition ID of `ctl.can_tdc`. -/
abbrev ctl_can_tdc : Nat := 0x0112
/-- Definition ID of `ctl.can_busoff_auto`. -/
abbrev ctl_can_busoff_auto : Nat := 0x0113
/-- Definition ID of `ctl.partner_table`. -/
abbrev ctl_partner_table : Nat := 0x0114
/-- Definition ID of `ctl.anchor_slot`. -/
abbrev ctl_anchor_slot : Nat := 0x0115
/-- Definition ID of `ctl.anchor_class_mask`. -/
abbrev ctl_anchor_class_mask : Nat := 0x0116
/-- Definition ID of `ctl.cert_deny`. -/
abbrev ctl_cert_deny : Nat := 0x0117
/-- Definition ID of `ctl.open_timeout_heats`. -/
abbrev ctl_open_timeout_heats : Nat := 0x0118
/-- Definition ID of `ctl.open_max_pending`. -/
abbrev ctl_open_max_pending : Nat := 0x0119
/-- Definition ID of `ctl.reserve_slot`. -/
abbrev ctl_reserve_slot : Nat := 0x011A
/-- Definition ID of `ctl.safety_max`. -/
abbrev ctl_safety_max : Nat := 0x011B
/-- Definition ID of `ctl.session_idle_s`. -/
abbrev ctl_session_idle_s : Nat := 0x011C
/-- Definition ID of `ctl.lease_max_ms`. -/
abbrev ctl_lease_max_ms : Nat := 0x011D
/-- Definition ID of `ctl.lease_inherit`. -/
abbrev ctl_lease_inherit : Nat := 0x011E
/-- Definition ID of `ctl.expiry_default`. -/
abbrev ctl_expiry_default : Nat := 0x011F
/-- Definition ID of `ctl.expiry_table`. -/
abbrev ctl_expiry_table : Nat := 0x0120
/-- Definition ID of `ctl.event_default_mask`. -/
abbrev ctl_event_default_mask : Nat := 0x0121
/-- Definition ID of `ctl.event_resend_heats`. -/
abbrev ctl_event_resend_heats : Nat := 0x0122
/-- Definition ID of `ctl.msg_max_per_session`. -/
abbrev ctl_msg_max_per_session : Nat := 0x0123
/-- Definition ID of `ctl.sessions_open`. -/
abbrev ctl_sessions_open : Nat := 0x0124
/-- Definition ID of `ctl.session_table`. -/
abbrev ctl_session_table : Nat := 0x0125
/-- Definition ID of `ctl.lease_table`. -/
abbrev ctl_lease_table : Nat := 0x0126
/-- Definition ID of `ctl.eth_status`. -/
abbrev ctl_eth_status : Nat := 0x0127
/-- Definition ID of `ctl.can_status`. -/
abbrev ctl_can_status : Nat := 0x0128
/-- Definition ID of `ctl.busy_count`. -/
abbrev ctl_busy_count : Nat := 0x0129
/-- Definition ID of `ctl.auth_fail_count`. -/
abbrev ctl_auth_fail_count : Nat := 0x012A
/-- Definition ID of `ctl.tag_fail_count`. -/
abbrev ctl_tag_fail_count : Nat := 0x012B
/-- Definition ID of `ctl.replay_count`. -/
abbrev ctl_replay_count : Nat := 0x012C
/-- Definition ID of `ctl.rx_drop_count`. -/
abbrev ctl_rx_drop_count : Nat := 0x012D
/-- Definition ID of `ctl.lost_event_count`. -/
abbrev ctl_lost_event_count : Nat := 0x012E
/-- Definition ID of `ctl.can_seg_abort_count`. -/
abbrev ctl_can_seg_abort_count : Nat := 0x012F
/-- Definition ID of `time.heat`. -/
abbrev time_heat : Nat := 0x0180
/-- Definition ID of `time.epoch_ns`. -/
abbrev time_epoch_ns : Nat := 0x0181
/-- Definition ID of `time.horizon_heats`. -/
abbrev time_horizon_heats : Nat := 0x0182
/-- Definition ID of `time.msg_budget_cycles`. -/
abbrev time_msg_budget_cycles : Nat := 0x0183
/-- Definition ID of `time.overrun_limit`. -/
abbrev time_overrun_limit : Nat := 0x0184
/-- Definition ID of `time.overrun_count`. -/
abbrev time_overrun_count : Nat := 0x0185
/-- Definition ID of `time.defer_count`. -/
abbrev time_defer_count : Nat := 0x0186
/-- Definition ID of `time.pair_sync_delay_ps`. -/
abbrev time_pair_sync_delay_ps : Nat := 0x0187
/-- Definition ID of `time.pair_align_tol`. -/
abbrev time_pair_align_tol : Nat := 0x0188
/-- Definition ID of `time.pair_status`. -/
abbrev time_pair_status : Nat := 0x0189
/-- Definition ID of `time.pair_offset`. -/
abbrev time_pair_offset : Nat := 0x018A
/-- Definition ID of `time.max_work_cycles`. -/
abbrev time_max_work_cycles : Nat := 0x018B
/-- Definition ID of `rxp.enable`. -/
abbrev rxp_enable : Nat := 0x0200
/-- Definition ID of `rxp.protocol`. -/
abbrev rxp_protocol : Nat := 0x0201
/-- Definition ID of `rxp.lanes`. -/
abbrev rxp_lanes : Nat := 0x0202
/-- Definition ID of `rxp.rate_kbps`. -/
abbrev rxp_rate_kbps : Nat := 0x0203
/-- Definition ID of `rxp.lane_map`. -/
abbrev rxp_lane_map : Nat := 0x0204
/-- Definition ID of `rxp.polarity`. -/
abbrev rxp_polarity : Nat := 0x0205
/-- Definition ID of `rxp.deskew`. -/
abbrev rxp_deskew : Nat := 0x0206
/-- Definition ID of `rxp.eq`. -/
abbrev rxp_eq : Nat := 0x0207
/-- Definition ID of `rxp.los`. -/
abbrev rxp_los : Nat := 0x0208
/-- Definition ID of `rxp.err_policy`. -/
abbrev rxp_err_policy : Nat := 0x0209
/-- Definition ID of `rxp.t_settle`. -/
abbrev rxp_t_settle : Nat := 0x020A
/-- Definition ID of `rxp.status`. -/
abbrev rxp_status : Nat := 0x020B
/-- Definition ID of `rxp.found`. -/
abbrev rxp_found : Nat := 0x020C
/-- Definition ID of `rxp.rate_meas_kbps`. -/
abbrev rxp_rate_meas_kbps : Nat := 0x020D
/-- Definition ID of `rxp.err_counts`. -/
abbrev rxp_err_counts : Nat := 0x020E
/-- Definition ID of `rxp.lane_state`. -/
abbrev rxp_lane_state : Nat := 0x020F
/-- Definition ID of `txp.enable`. -/
abbrev txp_enable : Nat := 0x0300
/-- Definition ID of `txp.protocol`. -/
abbrev txp_protocol : Nat := 0x0301
/-- Definition ID of `txp.lanes`. -/
abbrev txp_lanes : Nat := 0x0302
/-- Definition ID of `txp.source`. -/
abbrev txp_source : Nat := 0x0303
/-- Definition ID of `txp.lane_kbps`. -/
abbrev txp_lane_kbps : Nat := 0x0304
/-- Definition ID of `txp.lane_ratio`. -/
abbrev txp_lane_ratio : Nat := 0x0305
/-- Definition ID of `txp.dsi_mode`. -/
abbrev txp_dsi_mode : Nat := 0x0306
/-- Definition ID of `txp.lane_map`. -/
abbrev txp_lane_map : Nat := 0x0307
/-- Definition ID of `txp.polarity`. -/
abbrev txp_polarity : Nat := 0x0308
/-- Definition ID of `txp.deemph`. -/
abbrev txp_deemph : Nat := 0x0309
/-- Definition ID of `txp.swing_mv`. -/
abbrev txp_swing_mv : Nat := 0x030A
/-- Definition ID of `txp.lp_ctrl`. -/
abbrev txp_lp_ctrl : Nat := 0x030B
/-- Definition ID of `txp.deskew`. -/
abbrev txp_deskew : Nat := 0x030C
/-- Definition ID of `txp.status`. -/
abbrev txp_status : Nat := 0x030D
/-- Definition ID of `stream.entry`. -/
abbrev stream_entry : Nat := 0x0400
/-- Definition ID of `stream.dest`. -/
abbrev stream_dest : Nat := 0x0401
/-- Definition ID of `stream.loss_pours`. -/
abbrev stream_loss_pours : Nat := 0x0402
/-- Definition ID of `stream.stats`. -/
abbrev stream_stats : Nat := 0x0403
/-- Definition ID of `sprue.target`. -/
abbrev sprue_target : Nat := 0x0500
/-- Definition ID of `sprue.crop_pos`. -/
abbrev sprue_crop_pos : Nat := 0x0501
/-- Definition ID of `sprue.crop_size`. -/
abbrev sprue_crop_size : Nat := 0x0502
/-- Definition ID of `sprue.out_size`. -/
abbrev sprue_out_size : Nat := 0x0503
/-- Definition ID of `sprue.csc`. -/
abbrev sprue_csc : Nat := 0x0504
/-- Definition ID of `sprue.csc_coef`. -/
abbrev sprue_csc_coef : Nat := 0x0505
/-- Definition ID of `sprue.fps`. -/
abbrev sprue_fps : Nat := 0x0506
/-- Definition ID of `sprue.policy`. -/
abbrev sprue_policy : Nat := 0x0507
/-- Definition ID of `sprue.fill`. -/
abbrev sprue_fill : Nat := 0x0508
/-- Definition ID of `sprue.rate_tol_pct`. -/
abbrev sprue_rate_tol_pct : Nat := 0x0509
/-- Definition ID of `sprue.status`. -/
abbrev sprue_status : Nat := 0x050A
/-- Definition ID of `sprue.stats`. -/
abbrev sprue_stats : Nat := 0x050B
/-- Definition ID of `cru.status`. -/
abbrev cru_status : Nat := 0x0600
/-- Definition ID of `cru.free_general`. -/
abbrev cru_free_general : Nat := 0x0601
/-- Definition ID of `cru.free_retained`. -/
abbrev cru_free_retained : Nat := 0x0602
/-- Definition ID of `cru.largest_k`. -/
abbrev cru_largest_k : Nat := 0x0603
/-- Definition ID of `cru.quota_granules`. -/
abbrev cru_quota_granules : Nat := 0x0604
/-- Definition ID of `cru.quota_buffers`. -/
abbrev cru_quota_buffers : Nat := 0x0605
/-- Definition ID of `cru.owner_summary`. -/
abbrev cru_owner_summary : Nat := 0x0606
/-- Definition ID of `cru.pending_clear`. -/
abbrev cru_pending_clear : Nat := 0x0607
/-- Definition ID of `cru.retention_en`. -/
abbrev cru_retention_en : Nat := 0x0608
/-- Definition ID of `cru.restripe`. -/
abbrev cru_restripe : Nat := 0x0609
/-- Definition ID of `cru.restripe_min`. -/
abbrev cru_restripe_min : Nat := 0x060A
/-- Definition ID of `cru.conflicts`. -/
abbrev cru_conflicts : Nat := 0x060B
/-- Definition ID of `cru.bank_load`. -/
abbrev cru_bank_load : Nat := 0x060C
/-- Definition ID of `cru.hot_pct`. -/
abbrev cru_hot_pct : Nat := 0x060D
/-- Definition ID of `cru.age_cycles`. -/
abbrev cru_age_cycles : Nat := 0x060E
/-- Definition ID of `cru.lat_bound_cycles`. -/
abbrev cru_lat_bound_cycles : Nat := 0x060F
/-- Definition ID of `cru.lat_stats`. -/
abbrev cru_lat_stats : Nat := 0x0610
/-- Definition ID of `cru.lat_alert_cycles`. -/
abbrev cru_lat_alert_cycles : Nat := 0x0611
/-- Definition ID of `cru.lat_overrun_count`. -/
abbrev cru_lat_overrun_count : Nat := 0x0612
/-- Definition ID of `cru.ecc_counts`. -/
abbrev cru_ecc_counts : Nat := 0x0613
/-- Definition ID of `cru.ecc_log`. -/
abbrev cru_ecc_log : Nat := 0x0614
/-- Definition ID of `cru.ecc_rate_limit`. -/
abbrev cru_ecc_rate_limit : Nat := 0x0615
/-- Definition ID of `cru.ecc_inject`. -/
abbrev cru_ecc_inject : Nat := 0x0616
/-- Definition ID of `cru.scrub_period_s`. -/
abbrev cru_scrub_period_s : Nat := 0x0617
/-- Definition ID of `cru.scrub_status`. -/
abbrev cru_scrub_status : Nat := 0x0618
/-- Definition ID of `cru.upload_timeout_heats`. -/
abbrev cru_upload_timeout_heats : Nat := 0x0619
/-- Definition ID of `cru.replay`. -/
abbrev cru_replay : Nat := 0x061A
/-- Definition ID of `cru.replay_status`. -/
abbrev cru_replay_status : Nat := 0x061B
/-- Definition ID of `cru.slot_drop_count`. -/
abbrev cru_slot_drop_count : Nat := 0x061C
/-- Definition ID of `cru.tear_count`. -/
abbrev cru_tear_count : Nat := 0x061D
/-- Definition ID of `cru.orphan_count`. -/
abbrev cru_orphan_count : Nat := 0x061E
/-- Definition ID of `cru.pattern_granules`. -/
abbrev cru_pattern_granules : Nat := 0x061F
/-- Definition ID of `mould.output`. -/
abbrev mould_output : Nat := 0x0700
/-- Definition ID of `mould.out_format`. -/
abbrev mould_out_format : Nat := 0x0701
/-- Definition ID of `mould.background`. -/
abbrev mould_background : Nat := 0x0702
/-- Definition ID of `mould.zorder`. -/
abbrev mould_zorder : Nat := 0x0703
/-- Definition ID of `mould.out_csc`. -/
abbrev mould_out_csc : Nat := 0x0704
/-- Definition ID of `mould.lut_en`. -/
abbrev mould_lut_en : Nat := 0x0705
/-- Definition ID of `mould.lut_r`. -/
abbrev mould_lut_r : Nat := 0x0706
/-- Definition ID of `mould.lut_g`. -/
abbrev mould_lut_g : Nat := 0x0707
/-- Definition ID of `mould.lut_b`. -/
abbrev mould_lut_b : Nat := 0x0708
/-- Definition ID of `mould.flatten_pours`. -/
abbrev mould_flatten_pours : Nat := 0x0709
/-- Definition ID of `mould.ingot_kib`. -/
abbrev mould_ingot_kib : Nat := 0x070A
/-- Definition ID of `mould.dsc`. -/
abbrev mould_dsc : Nat := 0x070B
/-- Definition ID of `mould.dsc_bpp`. -/
abbrev mould_dsc_bpp : Nat := 0x070C
/-- Definition ID of `mould.dither`. -/
abbrev mould_dither : Nat := 0x070D
/-- Definition ID of `mould.shed_order`. -/
abbrev mould_shed_order : Nat := 0x070E
/-- Definition ID of `mould.status`. -/
abbrev mould_status : Nat := 0x070F
/-- Definition ID of `mould.flask_status`. -/
abbrev mould_flask_status : Nat := 0x0710
/-- Definition ID of `mould.fetch_rate`. -/
abbrev mould_fetch_rate : Nat := 0x0711
/-- Definition ID of `mould.underrun_stats`. -/
abbrev mould_underrun_stats : Nat := 0x0712
/-- Definition ID of `mould.ingot_status`. -/
abbrev mould_ingot_status : Nat := 0x0713
/-- Definition ID of `vl.source`. -/
abbrev vl_source : Nat := 0x0800
/-- Definition ID of `vl.select`. -/
abbrev vl_select : Nat := 0x0801
/-- Definition ID of `vl.src_rect`. -/
abbrev vl_src_rect : Nat := 0x0802
/-- Definition ID of `vl.dst_rect`. -/
abbrev vl_dst_rect : Nat := 0x0803
/-- Definition ID of `vl.taps`. -/
abbrev vl_taps : Nat := 0x0804
/-- Definition ID of `vl.tap_policy`. -/
abbrev vl_tap_policy : Nat := 0x0805
/-- Definition ID of `vl.flask_kib`. -/
abbrev vl_flask_kib : Nat := 0x0806
/-- Definition ID of `vl.riser_kib`. -/
abbrev vl_riser_kib : Nat := 0x0807
/-- Definition ID of `vl.csc`. -/
abbrev vl_csc : Nat := 0x0808
/-- Definition ID of `vl.alpha`. -/
abbrev vl_alpha : Nat := 0x0809
/-- Definition ID of `vl.border`. -/
abbrev vl_border : Nat := 0x080A
/-- Definition ID of `vl.fallback`. -/
abbrev vl_fallback : Nat := 0x080B
/-- Definition ID of `vl.underrun_limit`. -/
abbrev vl_underrun_limit : Nat := 0x080C
/-- Definition ID of `vl.underrun_policy`. -/
abbrev vl_underrun_policy : Nat := 0x080D
/-- Definition ID of `vl.status`. -/
abbrev vl_status : Nat := 0x080E
/-- Definition ID of `vl.stats`. -/
abbrev vl_stats : Nat := 0x080F
/-- Definition ID of `gl.source`. -/
abbrev gl_source : Nat := 0x0900
/-- Definition ID of `gl.src_rect`. -/
abbrev gl_src_rect : Nat := 0x0901
/-- Definition ID of `gl.dst_pos`. -/
abbrev gl_dst_pos : Nat := 0x0902
/-- Definition ID of `gl.alpha`. -/
abbrev gl_alpha : Nat := 0x0903
/-- Definition ID of `gl.colour`. -/
abbrev gl_colour : Nat := 0x0904
/-- Definition ID of `gl.clut`. -/
abbrev gl_clut : Nat := 0x0905
/-- Definition ID of `gl.csc`. -/
abbrev gl_csc : Nat := 0x0906
/-- Definition ID of `gl.riser_kib`. -/
abbrev gl_riser_kib : Nat := 0x0907
/-- Definition ID of `gl.underrun`. -/
abbrev gl_underrun : Nat := 0x0908
/-- Definition ID of `gl.status`. -/
abbrev gl_status : Nat := 0x0909
/-- Definition ID of `tg.enable`. -/
abbrev tg_enable : Nat := 0x0A00
/-- Definition ID of `tg.h_active`. -/
abbrev tg_h_active : Nat := 0x0A01
/-- Definition ID of `tg.h_fp`. -/
abbrev tg_h_fp : Nat := 0x0A02
/-- Definition ID of `tg.h_sync`. -/
abbrev tg_h_sync : Nat := 0x0A03
/-- Definition ID of `tg.h_bp`. -/
abbrev tg_h_bp : Nat := 0x0A04
/-- Definition ID of `tg.v_active`. -/
abbrev tg_v_active : Nat := 0x0A05
/-- Definition ID of `tg.v_fp`. -/
abbrev tg_v_fp : Nat := 0x0A06
/-- Definition ID of `tg.v_sync`. -/
abbrev tg_v_sync : Nat := 0x0A07
/-- Definition ID of `tg.v_bp`. -/
abbrev tg_v_bp : Nat := 0x0A08
/-- Definition ID of `tg.polarity`. -/
abbrev tg_polarity : Nat := 0x0A09
/-- Definition ID of `tg.pclk_hz`. -/
abbrev tg_pclk_hz : Nat := 0x0A0A
/-- Definition ID of `tg.reseat_hold_us`. -/
abbrev tg_reseat_hold_us : Nat := 0x0A0B
/-- Definition ID of `tg.idle_pours`. -/
abbrev tg_idle_pours : Nat := 0x0A0C
/-- Definition ID of `tg.idle_rate_mhz`. -/
abbrev tg_idle_rate_mhz : Nat := 0x0A0D
/-- Definition ID of `tg.wm_bounds`. -/
abbrev tg_wm_bounds : Nat := 0x0A0E
/-- Definition ID of `tg.status`. -/
abbrev tg_status : Nat := 0x0A0F
/-- Definition ID of `chk.rect`. -/
abbrev chk_rect : Nat := 0x0B00
/-- Definition ID of `chk.expect`. -/
abbrev chk_expect : Nat := 0x0B01
/-- Definition ID of `chk.policy`. -/
abbrev chk_policy : Nat := 0x0B02
/-- Definition ID of `chk.status`. -/
abbrev chk_status : Nat := 0x0B03
/-- Definition ID of `cupola.enable`. -/
abbrev cupola_enable : Nat := 0x0C00
/-- Definition ID of `cupola.n`. -/
abbrev cupola_n : Nat := 0x0C01
/-- Definition ID of `cupola.lock_win_ps`. -/
abbrev cupola_lock_win_ps : Nat := 0x0C02
/-- Definition ID of `cupola.lock_n`. -/
abbrev cupola_lock_n : Nat := 0x0C03
/-- Definition ID of `cupola.requal_cycles`. -/
abbrev cupola_requal_cycles : Nat := 0x0C04
/-- Definition ID of `cupola.holdover_limit_ms`. -/
abbrev cupola_holdover_limit_ms : Nat := 0x0C05
/-- Definition ID of `cupola.glide_ppb_per_heat`. -/
abbrev cupola_glide_ppb_per_heat : Nat := 0x0C06
/-- Definition ID of `cupola.status`. -/
abbrev cupola_status : Nat := 0x0C07
/-- Definition ID of `cupola.band_mem`. -/
abbrev cupola_band_mem : Nat := 0x0C08
/-- Definition ID of `cupola.phase_err`. -/
abbrev cupola_phase_err : Nat := 0x0C09
/-- Definition ID of `cupola.ref_stats`. -/
abbrev cupola_ref_stats : Nat := 0x0C0A
/-- Definition ID of `cupola.holdover_stats`. -/
abbrev cupola_holdover_stats : Nat := 0x0C0B
/-- Definition ID of `ladle.cupola`. -/
abbrev ladle_cupola : Nat := 0x0C40
/-- Definition ID of `ladle.freq_hz`. -/
abbrev ladle_freq_hz : Nat := 0x0C41
/-- Definition ID of `ladle.slew_ppm_per_heat`. -/
abbrev ladle_slew_ppm_per_heat : Nat := 0x0C42
/-- Definition ID of `ladle.mode`. -/
abbrev ladle_mode : Nat := 0x0C43
/-- Definition ID of `ladle.div`. -/
abbrev ladle_div : Nat := 0x0C44
/-- Definition ID of `ladle.profile`. -/
abbrev ladle_profile : Nat := 0x0C45
/-- Definition ID of `ladle.status`. -/
abbrev ladle_status : Nat := 0x0C46
/-- Definition ID of `ladle.rot`. -/
abbrev ladle_rot : Nat := 0x0C47
/-- Definition ID of `ladle.phase`. -/
abbrev ladle_phase : Nat := 0x0C48
/-- Definition ID of `ladle.stats`. -/
abbrev ladle_stats : Nat := 0x0C49
/-- Definition ID of `sap.enable`. -/
abbrev sap_enable : Nat := 0x0D00
/-- Definition ID of `sap.format`. -/
abbrev sap_format : Nat := 0x0D01
/-- Definition ID of `sap.rate_hz`. -/
abbrev sap_rate_hz : Nat := 0x0D02
/-- Definition ID of `sap.slots`. -/
abbrev sap_slots : Nat := 0x0D03
/-- Definition ID of `sap.slot_bits`. -/
abbrev sap_slot_bits : Nat := 0x0D04
/-- Definition ID of `sap.clocking`. -/
abbrev sap_clocking : Nat := 0x0D05
/-- Definition ID of `sap.rx_mask`. -/
abbrev sap_rx_mask : Nat := 0x0D06
/-- Definition ID of `sap.tx_mask`. -/
abbrev sap_tx_mask : Nat := 0x0D07
/-- Definition ID of `sap.tx_map`. -/
abbrev sap_tx_map : Nat := 0x0D08
/-- Definition ID of `sap.idle_slot`. -/
abbrev sap_idle_slot : Nat := 0x0D09
/-- Definition ID of `sap.rate_change_ppm`. -/
abbrev sap_rate_change_ppm : Nat := 0x0D0A
/-- Definition ID of `sap.status`. -/
abbrev sap_status : Nat := 0x0D0B
/-- Definition ID of `sap.rate_meas`. -/
abbrev sap_rate_meas : Nat := 0x0D0C
/-- Definition ID of `sap.stats`. -/
abbrev sap_stats : Nat := 0x0D0D
/-- Definition ID of `pdm.enable`. -/
abbrev pdm_enable : Nat := 0x0D40
/-- Definition ID of `pdm.clock`. -/
abbrev pdm_clock : Nat := 0x0D41
/-- Definition ID of `pdm.rate`. -/
abbrev pdm_rate : Nat := 0x0D42
/-- Definition ID of `pdm.gain`. -/
abbrev pdm_gain : Nat := 0x0D43
/-- Definition ID of `pdm.ctrl`. -/
abbrev pdm_ctrl : Nat := 0x0D44
/-- Definition ID of `pdm.status`. -/
abbrev pdm_status : Nat := 0x0D45
/-- Definition ID of `tundish.map`. -/
abbrev tundish_map : Nat := 0x0D60
/-- Definition ID of `tundish.dst`. -/
abbrev tundish_dst : Nat := 0x0D61
/-- Definition ID of `tundish.ctrl`. -/
abbrev tundish_ctrl : Nat := 0x0D62
/-- Definition ID of `tundish.ratio`. -/
abbrev tundish_ratio : Nat := 0x0D63
/-- Definition ID of `tundish.status`. -/
abbrev tundish_status : Nat := 0x0D64
/-- Definition ID of `tundish.stats`. -/
abbrev tundish_stats : Nat := 0x0D65
/-- Definition ID of `eaud.ctrl`. -/
abbrev eaud_ctrl : Nat := 0x0D80
/-- Definition ID of `eaud.map`. -/
abbrev eaud_map : Nat := 0x0D81
/-- Definition ID of `eaud.delay_us`. -/
abbrev eaud_delay_us : Nat := 0x0D82
/-- Definition ID of `eaud.status`. -/
abbrev eaud_status : Nat := 0x0D83
/-- Definition ID of `pair.mor_enable`. -/
abbrev pair_mor_enable : Nat := 0x0E00
/-- Definition ID of `pair.mor_cupola`. -/
abbrev pair_mor_cupola : Nat := 0x0E01
/-- Definition ID of `pair.mor_ffe_init`. -/
abbrev pair_mor_ffe_init : Nat := 0x0E02
/-- Definition ID of `pair.mor_ctrl`. -/
abbrev pair_mor_ctrl : Nat := 0x0E03
/-- Definition ID of `pair.mor_slumber_us`. -/
abbrev pair_mor_slumber_us : Nat := 0x0E04
/-- Definition ID of `pair.mor_rtx_us`. -/
abbrev pair_mor_rtx_us : Nat := 0x0E05
/-- Definition ID of `pair.mor_status`. -/
abbrev pair_mor_status : Nat := 0x0E06
/-- Definition ID of `pair.mor_lane_state`. -/
abbrev pair_mor_lane_state : Nat := 0x0E07
/-- Definition ID of `pair.mor_stats`. -/
abbrev pair_mor_stats : Nat := 0x0E08
/-- Definition ID of `pair.mor_load`. -/
abbrev pair_mor_load : Nat := 0x0E09
/-- Definition ID of `pair.enable`. -/
abbrev pair_enable : Nat := 0x0E0A
/-- Definition ID of `pair.role`. -/
abbrev pair_role : Nat := 0x0E0B
/-- Definition ID of `pair.boot_wait_ms`. -/
abbrev pair_boot_wait_ms : Nat := 0x0E0C
/-- Definition ID of `pair.settle_ns`. -/
abbrev pair_settle_ns : Nat := 0x0E0D
/-- Definition ID of `pair.ref_output`. -/
abbrev pair_ref_output : Nat := 0x0E0E
/-- Definition ID of `pair.shared`. -/
abbrev pair_shared : Nat := 0x0E0F
/-- Definition ID of `pair.grace_ms`. -/
abbrev pair_grace_ms : Nat := 0x0E10
/-- Definition ID of `pair.chk_diverge_n`. -/
abbrev pair_chk_diverge_n : Nat := 0x0E11
/-- Definition ID of `pair.degraded_ms`. -/
abbrev pair_degraded_ms : Nat := 0x0E12
/-- Definition ID of `pair.ctrl`. -/
abbrev pair_ctrl : Nat := 0x0E13
/-- Definition ID of `pair.status`. -/
abbrev pair_status : Nat := 0x0E14
/-- Definition ID of `pair.epoch`. -/
abbrev pair_epoch : Nat := 0x0E15
/-- Definition ID of `pair.config_digest`. -/
abbrev pair_config_digest : Nat := 0x0E16
/-- Definition ID of `pair.peer_digest`. -/
abbrev pair_peer_digest : Nat := 0x0E17
/-- Definition ID of `pair.journal_stats`. -/
abbrev pair_journal_stats : Nat := 0x0E18
/-- Definition ID of `pair.resync_stats`. -/
abbrev pair_resync_stats : Nat := 0x0E19
/-- Definition ID of `pair.takeover_log`. -/
abbrev pair_takeover_log : Nat := 0x0E1A
/-- Definition ID of `pair.chk_state`. -/
abbrev pair_chk_state : Nat := 0x0E1B
/-- Definition ID of `key.lifecycle`. -/
abbrev key_lifecycle : Nat := 0x0F00
/-- Definition ID of `key.root_status`. -/
abbrev key_root_status : Nat := 0x0F01
/-- Definition ID of `key.slots_valid`. -/
abbrev key_slots_valid : Nat := 0x0F02
/-- Definition ID of `key.slots_unusable`. -/
abbrev key_slots_unusable : Nat := 0x0F03
/-- Definition ID of `key.table_seq`. -/
abbrev key_table_seq : Nat := 0x0F04
/-- Definition ID of `key.remask_heats`. -/
abbrev key_remask_heats : Nat := 0x0F05
/-- Definition ID of `key.pair_slot`. -/
abbrev key_pair_slot : Nat := 0x0F06
/-- Definition ID of `key.field_policy`. -/
abbrev key_field_policy : Nat := 0x0F07
/-- Definition ID of `key.fw_ctr`. -/
abbrev key_fw_ctr : Nat := 0x0F08
/-- Definition ID of `key.pat_ctr`. -/
abbrev key_pat_ctr : Nat := 0x0F09
/-- Definition ID of `key.owner_hash`. -/
abbrev key_owner_hash : Nat := 0x0F0A
/-- Definition ID of `key.owner_index`. -/
abbrev key_owner_index : Nat := 0x0F0B
/-- Definition ID of `key.rom_ver`. -/
abbrev key_rom_ver : Nat := 0x0F0C
/-- Definition ID of `key.measure`. -/
abbrev key_measure : Nat := 0x0F0D
/-- Definition ID of `key.measure_next`. -/
abbrev key_measure_next : Nat := 0x0F0E
/-- Definition ID of `key.cert_chain`. -/
abbrev key_cert_chain : Nat := 0x0F0F
/-- Definition ID of `key.ram_stats`. -/
abbrev key_ram_stats : Nat := 0x0F10
/-- Definition ID of `key.debug_status`. -/
abbrev key_debug_status : Nat := 0x0F11
/-- Definition ID of `key.unit_id`. -/
abbrev key_unit_id : Nat := 0x0F12
/-- Definition ID of `key.stats`. -/
abbrev key_stats : Nat := 0x0F13
/-- Definition ID of `upd.state`. -/
abbrev upd_state : Nat := 0x1000
/-- Definition ID of `upd.confirm_s`. -/
abbrev upd_confirm_s : Nat := 0x1001
/-- Definition ID of `upd.confirm_mode`. -/
abbrev upd_confirm_mode : Nat := 0x1002
/-- Definition ID of `upd.trial_attempts`. -/
abbrev upd_trial_attempts : Nat := 0x1003
/-- Definition ID of `upd.xspi_mhz`. -/
abbrev upd_xspi_mhz : Nat := 0x1004
/-- Definition ID of `upd.download_timeout_s`. -/
abbrev upd_download_timeout_s : Nat := 0x1005
/-- Definition ID of `upd.slot_state`. -/
abbrev upd_slot_state : Nat := 0x1006
/-- Definition ID of `upd.boot_record`. -/
abbrev upd_boot_record : Nat := 0x1007
/-- Definition ID of `upd.transfer`. -/
abbrev upd_transfer : Nat := 0x1008
/-- Definition ID of `upd.fw_version`. -/
abbrev upd_fw_version : Nat := 0x1009
/-- Definition ID of `upd.pat_version`. -/
abbrev upd_pat_version : Nat := 0x100A
/-- Definition ID of `upd.stats`. -/
abbrev upd_stats : Nat := 0x100B
/-- Definition ID of `fsync.source`. -/
abbrev fsync_source : Nat := 0x1100
/-- Definition ID of `fsync.position`. -/
abbrev fsync_position : Nat := 0x1101
/-- Definition ID of `fsync.period`. -/
abbrev fsync_period : Nat := 0x1102
/-- Definition ID of `fsync.width_us`. -/
abbrev fsync_width_us : Nat := 0x1103
/-- Definition ID of `fsync.ctrl`. -/
abbrev fsync_ctrl : Nat := 0x1104
/-- Definition ID of `fsync.status`. -/
abbrev fsync_status : Nat := 0x1105
/-- Definition ID of `clkout.format`. -/
abbrev clkout_format : Nat := 0x1120
/-- Definition ID of `clkout.source`. -/
abbrev clkout_source : Nat := 0x1121
/-- Definition ID of `clkout.div`. -/
abbrev clkout_div : Nat := 0x1122
/-- Definition ID of `clkout.ctrl`. -/
abbrev clkout_ctrl : Nat := 0x1123
/-- Definition ID of `clkout.status`. -/
abbrev clkout_status : Nat := 0x1124
/-- Definition ID of `i2c.mode`. -/
abbrev i2c_mode : Nat := 0x1140
/-- Definition ID of `i2c.i2c_khz`. -/
abbrev i2c_i2c_khz : Nat := 0x1141
/-- Definition ID of `i2c.i3c_khz`. -/
abbrev i2c_i3c_khz : Nat := 0x1142
/-- Definition ID of `i2c.timeout_us`. -/
abbrev i2c_timeout_us : Nat := 0x1143
/-- Definition ID of `i2c.retries`. -/
abbrev i2c_retries : Nat := 0x1144
/-- Definition ID of `i2c.status`. -/
abbrev i2c_status : Nat := 0x1145
/-- Definition ID of `gpio.func`. -/
abbrev gpio_func : Nat := 0x1160
/-- Definition ID of `gpio.ctrl`. -/
abbrev gpio_ctrl : Nat := 0x1161
/-- Definition ID of `gpio.status`. -/
abbrev gpio_status : Nat := 0x1162
/-- Definition ID of `flt.active`. -/
abbrev flt_active : Nat := 0x1200
/-- Definition ID of `flt.latched`. -/
abbrev flt_latched : Nat := 0x1201
/-- Definition ID of `flt.pin_mask`. -/
abbrev flt_pin_mask : Nat := 0x1202
/-- Definition ID of `flt.pin_latch`. -/
abbrev flt_pin_latch : Nat := 0x1203
/-- Definition ID of `flt.pin_min_us`. -/
abbrev flt_pin_min_us : Nat := 0x1204
/-- Definition ID of `flt.pin_state`. -/
abbrev flt_pin_state : Nat := 0x1205
/-- Definition ID of `flt.yield_mask`. -/
abbrev flt_yield_mask : Nat := 0x1206
/-- Definition ID of `flt.ctl_window_s`. -/
abbrev flt_ctl_window_s : Nat := 0x1207
/-- Definition ID of `flt.ctl_state`. -/
abbrev flt_ctl_state : Nat := 0x1208
/-- Definition ID of `flt.selftest_s`. -/
abbrev flt_selftest_s : Nat := 0x1209
/-- Definition ID of `flt.warm_policy`. -/
abbrev flt_warm_policy : Nat := 0x120A
/-- Definition ID of `flt.ecc_ctl_counts`. -/
abbrev flt_ecc_ctl_counts : Nat := 0x120B
/-- Definition ID of `flt.local_ecc_counts`. -/
abbrev flt_local_ecc_counts : Nat := 0x120C
/-- Definition ID of `flt.parity_counts`. -/
abbrev flt_parity_counts : Nat := 0x120D
/-- Definition ID of `flt.queue_resets`. -/
abbrev flt_queue_resets : Nat := 0x120E
/-- Definition ID of `flt.counts`. -/
abbrev flt_counts : Nat := 0x120F
/-- Definition ID of `flt.log`. -/
abbrev flt_log : Nat := 0x1210
/-- Definition ID of `flt.last`. -/
abbrev flt_last : Nat := 0x1211
/-- Definition ID of `flt.summary`. -/
abbrev flt_summary : Nat := 0x1212
/-- Definition ID of `flt.inject`. -/
abbrev flt_inject : Nat := 0x1213
/-- Definition ID of `flt.tx_monitor`. -/
abbrev flt_tx_monitor : Nat := 0x1214
/-- Definition ID of `flt.tx_fault`. -/
abbrev flt_tx_fault : Nat := 0x1215
/-- Definition ID of `flt.rail_margin_pct`. -/
abbrev flt_rail_margin_pct : Nat := 0x1216
/-- Definition ID of `flt.rail_status`. -/
abbrev flt_rail_status : Nat := 0x1217

end P

/-- Group `dev` of Table 22.1. -/
def group_dev : ParamGroup :=
  ⟨0x0000, 1, 1, [
    ⟨.w32, 8, 1, .readOnly, .immediate⟩,
    ⟨.w32, 8, 2, .readOnly, .immediate⟩,
    ⟨.w32, 16, 0, .readOnly, .immediate⟩,
    ⟨.w32, 8, 0, .readOnly, .immediate⟩,
    ⟨.w32, 2, 0, .within [(0, 2)], .boot⟩,
    ⟨.w32, 1, 0, .readOnly, .immediate⟩,
    ⟨.w32, 1, 0, .readOnly, .immediate⟩,
    ⟨.w32, 8, 1, .readOnly, .immediate⟩,
    ⟨.w32, 32, 0, .readOnly, .immediate⟩,
    ⟨.w32, 16, 0, .readOnly, .immediate⟩,
    ⟨.w32, 1, 0, .within [(0, 1)], .heat⟩,
    ⟨.w32, 32, 0, .within [(0, 0), (100, 3600000)], .heat⟩,
    ⟨.w32, 5, 3, .within [(0, 31)], .heat⟩,
    ⟨.w32, 32, 0, .special, .heat⟩,
    ⟨.w32, 8, 0, .readOnly, .immediate⟩,
    ⟨.w32, 32, 0, .readOnly, .immediate⟩,
    ⟨.w32, 1, 1, .within [(0, 1)], .heat⟩,
    ⟨.w32, 32, 55706250, .special, .heat⟩,
    ⟨.w32, 16, 3080, .special, .heat⟩,
    ⟨.w32, 4, 0, .within [(0, 15)], .boot⟩,
    ⟨.w32, 16, 750, .readOnly, .immediate⟩,
    ⟨.w32, 32, 0, .readOnly, .immediate⟩,
    ⟨.w32, 8, 40, .within [(20, 100)], .heat⟩,
    ⟨.w64, 64, 0, .readOnly, .immediate⟩,
    ⟨.w32, 16, 0, .readOnly, .immediate⟩,
    ⟨.w32, 16, 0, .readOnly, .immediate⟩,
    ⟨.blob, 0, 0, .readOnly, .immediate⟩,
    ⟨.w32, 8, 140, .within [(100, 140)], .heat⟩,
    ⟨.w32, 8, 150, .within [(105, 150)], .heat⟩,
    ⟨.w32, 8, 160, .within [(110, 160)], .heat⟩,
    ⟨.w32, 8, 5, .within [(2, 20)], .heat⟩,
    ⟨.w32, 16, 0, .readOnly, .immediate⟩,
    ⟨.w32, 32, 0, .readOnly, .immediate⟩,
    ⟨.w32, 8, 0, .readOnly, .immediate⟩,
    ⟨.w32, 32, 0, .readOnly, .immediate⟩,
    ⟨.blob, 0, 0, .readOnly, .immediate⟩,
    ⟨.w32, 8, 255, .within [(0, 63), (255, 255)], .immediate⟩,
    ⟨.blob, 0, 0, .readOnly, .immediate⟩,
    ⟨.blob, 0, 0, .readOnly, .immediate⟩,
    ⟨.w64, 64, 0, .readOnly, .immediate⟩]⟩

/-- Group `ctl` of Table 22.1. -/
def group_ctl : ParamGroup :=
  ⟨0x0100, 1, 1, [
    ⟨.w32, 2, 0, .within [(0, 3)], .heat⟩,
    ⟨.w32, 2, 0, .within [(0, 3)], .heat⟩,
    ⟨.w64, 64, 0, .readOnly, .boot⟩,
    ⟨.w64, 64, 0, .readOnly, .boot⟩,
    ⟨.w32, 32, 0, .special, .heat⟩,
    ⟨.w32, 32, 0, .special, .heat⟩,
    ⟨.w32, 8, 24, .within [(8, 30)], .heat⟩,
    ⟨.w32, 16, 47170, .within [(1024, 65535)], .heat⟩,
    ⟨.w32, 32, 4022355782, .special, .heat⟩,
    ⟨.w32, 1, 0, .within [(0, 1)], .heat⟩,
    ⟨.w32, 16, 0, .any, .heat⟩,
    ⟨.w32, 16, 1000, .within [(0, 0), (100, 10000)], .heat⟩,
    ⟨.w32, 16, 16, .within [(4, 8000)], .heat⟩,
    ⟨.w32, 1, 1, .within [(0, 1)], .heat⟩,
    ⟨.w32, 2, 0, .within [(0, 3)], .heat⟩,
    ⟨.w32, 16, 500, .within [(125, 1000)], .heat⟩,
    ⟨.w32, 16, 2000, .within [(0, 0), (1000, 5000)], .heat⟩,
    ⟨.w32, 32, 515899392, .special, .heat⟩,
    ⟨.w32, 16, 0, .within [(0, 500)], .heat⟩,
    ⟨.w32, 1, 1, .within [(0, 1)], .heat⟩,
    ⟨.blob, 0, 0, .special, .heat⟩,
    ⟨.w32, 8, 255, .within [(0, 63), (255, 255)], .heat⟩,
    ⟨.w32, 4, 1, .within [(0, 15)], .heat⟩,
    ⟨.blob, 0, 0, .special, .heat⟩,
    ⟨.w32, 16, 8000, .within [(800, 40000)], .heat⟩,
    ⟨.w32, 8, 4, .within [(1, 8)], .heat⟩,
    ⟨.w32, 1, 1, .within [(0, 1)], .heat⟩,
    ⟨.w32, 8, 2, .within [(1, 4)], .heat⟩,
    ⟨.w32, 16, 10, .within [(1, 3600)], .heat⟩,
    ⟨.w32, 16, 10000, .within [(10, 65535)], .heat⟩,
    ⟨.w32, 1, 1, .within [(0, 1)], .heat⟩,
    ⟨.w32, 8, 1, .within [(0, 3)], .heat⟩,
    ⟨.blob, 0, 0, .special, .heat⟩,
    ⟨.w32, 16, 65534, .any, .heat⟩,
    ⟨.w32, 16, 800, .within [(80, 8000)], .heat⟩,
    ⟨.w32, 8, 16, .within [(1, 32)], .heat⟩,
    ⟨.w32, 8, 0, .readOnly, .immediate⟩,
    ⟨.blob, 0, 0, .readOnly, .immediate⟩,
    ⟨.blob, 0, 0, .readOnly, .immediate⟩,
    ⟨.w32, 8, 0, .readOnly, .immediate⟩,
    ⟨.w32, 32, 0, .readOnly, .immediate⟩,
    ⟨.w32, 32, 0, .readOnly, .immediate⟩,
    ⟨.w32, 32, 0, .readOnly, .immediate⟩,
    ⟨.w32, 32, 0, .readOnly, .immediate⟩,
    ⟨.w32, 32, 0, .readOnly, .immediate⟩,
    ⟨.w32, 32, 0, .readOnly, .immediate⟩,
    ⟨.w32, 32, 0, .readOnly, .immediate⟩,
    ⟨.w32, 32, 0, .readOnly, .immediate⟩]⟩

/-- Group `time` of Table 22.1. -/
def group_time : ParamGroup :=
  ⟨0x0180, 1, 1, [
    ⟨.w64, 64, 0, .readOnly, .immediate⟩,
    ⟨.w64, 64, 0, .any, .heat⟩,
    ⟨.w32, 32, 80000, .within [(2, 8000000)], .heat⟩,
    ⟨.w32, 32, 40000, .within [(10000, 70000)], .heat⟩,
    ⟨.w32, 8, 8, .within [(1, 255)], .heat⟩,
    ⟨.w32, 32, 0, .readOnly, .immediate⟩,
    ⟨.w32, 32, 0, .readOnly, .immediate⟩,
    ⟨.w32, 16, 0, .within [(0, 20000)], .heat⟩,
    ⟨.w32, 8, 8, .within [(2, 64)], .heat⟩,
    ⟨.w32, 8, 0, .readOnly, .immediate⟩,
    ⟨.w32, 32, 0, .readOnly, .immediate⟩,
    ⟨.w32, 32, 0, .readOnly, .immediate⟩]⟩

/-- Group `rxp` of Table 22.1. -/
def group_rxp : ParamGroup :=
  ⟨0x0200, 24, 12, [
    ⟨.w32, 1, 0, .within [(0, 1)], .heat⟩,
    ⟨.w32, 3, 0, .within [(0, 0), (1, 1), (4, 4)], .heat⟩,
    ⟨.w32, 3, 4, .within [(1, 4)], .heat⟩,
    ⟨.w32, 32, 1500000, .within [(80000, 4500000)], .heat⟩,
    ⟨.w32, 9, 228, .special, .heat⟩,
    ⟨.w32, 10, 0, .special, .heat⟩,
    ⟨.w32, 3, 4, .within [(0, 2), (4, 6)], .heat⟩,
    ⟨.w32, 12, 3840, .any, .heat⟩,
    ⟨.w32, 16, 10260, .special, .heat⟩,
    ⟨.w32, 1, 0, .within [(0, 1)], .heat⟩,
    ⟨.w32, 8, 0, .within [(0, 0), (40, 200)], .heat⟩,
    ⟨.w32, 32, 0, .readOnly, .immediate⟩,
    ⟨.w32, 16, 0, .readOnly, .immediate⟩,
    ⟨.w32, 32, 0, .readOnly, .immediate⟩,
    ⟨.w64, 64, 0, .readOnly, .immediate⟩,
    ⟨.w64, 64, 0, .readOnly, .immediate⟩]⟩

/-- Group `txp` of Table 22.1. -/
def group_txp : ParamGroup :=
  ⟨0x0300, 16, 8, [
    ⟨.w32, 1, 0, .within [(0, 1)], .heat⟩,
    ⟨.w32, 3, 0, .within [(0, 0), (1, 1), (4, 4)], .reseat⟩,
    ⟨.w32, 3, 4, .within [(1, 4)], .reseat⟩,
    ⟨.w32, 2, 0, .within [(0, 2)], .reseat⟩,
    ⟨.w32, 32, 1500000, .within [(80000, 4500000)], .reseat⟩,
    ⟨.w32, 16, 24, .within [(4, 256)], .reseat⟩,
    ⟨.w32, 2, 1, .within [(0, 2)], .reseat⟩,
    ⟨.w32, 8, 228, .special, .reseat⟩,
    ⟨.w32, 5, 0, .within [(0, 31)], .reseat⟩,
    ⟨.w32, 3, 0, .within [(0, 7)], .heat⟩,
    ⟨.w32, 16, 200, .within [(140, 270)], .heat⟩,
    ⟨.w32, 16, 1, .any, .reseat⟩,
    ⟨.w32, 9, 0, .any, .pour⟩,
    ⟨.w32, 32, 0, .readOnly, .immediate⟩]⟩

/-- Group `stream` of Table 22.1. -/
def group_stream : ParamGroup :=
  ⟨0x0400, 128, 128, [
    ⟨.w64, 64, 0, .special, .heat⟩,
    ⟨.w64, 64, 0, .special, .heat⟩,
    ⟨.w32, 8, 4, .within [(1, 255)], .heat⟩,
    ⟨.w64, 64, 0, .readOnly, .immediate⟩]⟩

/-- Group `sprue` of Table 22.1. -/
def group_sprue : ParamGroup :=
  ⟨0x0500, 16, 8, [
    ⟨.w32, 16, 0, .special, .heat⟩,
    ⟨.w32, 32, 0, .special, .heat⟩,
    ⟨.w32, 32, 0, .special, .heat⟩,
    ⟨.w32, 32, 0, .special, .heat⟩,
    ⟨.w32, 5, 0, .special, .heat⟩,
    ⟨.blob, 0, 0, .special, .heat⟩,
    ⟨.w32, 32, 60000, .within [(1, 240000)], .heat⟩,
    ⟨.w32, 3, 0, .within [(0, 2), (4, 6)], .heat⟩,
    ⟨.w32, 30, 537395264, .any, .heat⟩,
    ⟨.w32, 8, 10, .within [(1, 100)], .heat⟩,
    ⟨.w32, 32, 0, .readOnly, .immediate⟩,
    ⟨.w64, 64, 0, .readOnly, .immediate⟩]⟩

/-- Group `cru` of Table 22.1. -/
def group_cru : ParamGroup :=
  ⟨0x0600, 1, 1, [
    ⟨.w32, 32, 0, .readOnly, .immediate⟩,
    ⟨.w32, 16, 14336, .readOnly, .immediate⟩,
    ⟨.w32, 16, 2048, .readOnly, .immediate⟩,
    ⟨.w32, 32, 2097376, .readOnly, .immediate⟩,
    ⟨.w32, 16, 16384, .within [(64, 16384)], .heat⟩,
    ⟨.w32, 16, 1024, .within [(1, 1024)], .heat⟩,
    ⟨.blob, 0, 0, .readOnly, .immediate⟩,
    ⟨.w32, 16, 0, .readOnly, .immediate⟩,
    ⟨.w32, 1, 1, .within [(0, 1)], .heat⟩,
    ⟨.w32, 1, 1, .within [(0, 1)], .heat⟩,
    ⟨.w32, 32, 1000, .within [(0, 100000)], .heat⟩,
    ⟨.blob, 0, 0, .readOnly, .immediate⟩,
    ⟨.blob, 0, 0, .readOnly, .immediate⟩,
    ⟨.w32, 8, 50, .within [(10, 100)], .heat⟩,
    ⟨.w32, 16, 400, .within [(50, 4000)], .heat⟩,
    ⟨.w32, 16, 1200, .readOnly, .immediate⟩,
    ⟨.w64, 64, 0, .readOnly, .immediate⟩,
    ⟨.w32, 16, 1000, .within [(400, 4000)], .heat⟩,
    ⟨.w32, 32, 0, .readOnly, .immediate⟩,
    ⟨.w64, 64, 0, .readOnly, .immediate⟩,
    ⟨.blob, 0, 0, .readOnly, .immediate⟩,
    ⟨.w32, 16, 64, .within [(1, 65535)], .heat⟩,
    ⟨.w32, 16, 0, .any, .immediate⟩,
    ⟨.w32, 16, 60, .within [(0, 0), (10, 3600)], .heat⟩,
    ⟨.w32, 32, 0, .readOnly, .immediate⟩,
    ⟨.w32, 16, 8000, .within [(80, 65535)], .heat⟩,
    ⟨.blob, 0, 0, .special, .heat⟩,
    ⟨.blob, 0, 0, .readOnly, .immediate⟩,
    ⟨.w32, 32, 0, .readOnly, .immediate⟩,
    ⟨.w32, 32, 0, .readOnly, .immediate⟩,
    ⟨.w32, 16, 0, .readOnly, .immediate⟩,
    ⟨.w32, 16, 0, .readOnly, .immediate⟩]⟩

/-- Group `mould` of Table 22.1. -/
def group_mould : ParamGroup :=
  ⟨0x0700, 12, 6, [
    ⟨.w32, 8, 255, .special, .reseat⟩,
    ⟨.w32, 3, 0, .within [(0, 4)], .reseat⟩,
    ⟨.w32, 30, 0, .any, .pour⟩,
    ⟨.w32, 24, 16434824, .special, .pour⟩,
    ⟨.blob, 0, 0, .special, .pour⟩,
    ⟨.w32, 1, 0, .within [(0, 1)], .pour⟩,
    ⟨.blob, 0, 0, .special, .pour⟩,
    ⟨.blob, 0, 0, .special, .pour⟩,
    ⟨.blob, 0, 0, .special, .pour⟩,
    ⟨.w32, 8, 4, .within [(1, 255)], .heat⟩,
    ⟨.w32, 16, 0, .special, .heat⟩,
    ⟨.w32, 4, 0, .within [(0, 15)], .reseat⟩,
    ⟨.w32, 8, 128, .within [(128, 192)], .reseat⟩,
    ⟨.w32, 2, 1, .within [(0, 2)], .pour⟩,
    ⟨.w32, 4, 0, .within [(0, 15)], .heat⟩,
    ⟨.w32, 32, 31, .readOnly, .immediate⟩,
    ⟨.w32, 32, 1610661888, .readOnly, .immediate⟩,
    ⟨.w32, 32, 0, .readOnly, .immediate⟩,
    ⟨.w64, 64, 0, .readOnly, .immediate⟩,
    ⟨.w32, 32, 0, .readOnly, .immediate⟩]⟩

/-- Group `vl` of Table 22.1. -/
def group_vl : ParamGroup :=
  ⟨0x0800, 36, 18, [
    ⟨.w32, 16, 0, .special, .pour⟩,
    ⟨.w32, 2, 0, .within [(0, 3)], .pour⟩,
    ⟨.w64, 64, 0, .special, .pour⟩,
    ⟨.w64, 64, 0, .special, .pour⟩,
    ⟨.w32, 3, 6, .within [(2, 2), (4, 4), (6, 6)], .pour⟩,
    ⟨.w32, 1, 0, .within [(0, 1)], .pour⟩,
    ⟨.w32, 8, 64, .special, .pour⟩,
    ⟨.w32, 8, 8, .special, .pour⟩,
    ⟨.blob, 0, 0, .special, .pour⟩,
    ⟨.w32, 16, 511, .special, .pour⟩,
    ⟨.w32, 30, 537395264, .any, .pour⟩,
    ⟨.w32, 18, 0, .special, .pour⟩,
    ⟨.w32, 8, 4, .within [(1, 255)], .pour⟩,
    ⟨.w32, 1, 1, .within [(0, 1)], .pour⟩,
    ⟨.w32, 32, 0, .readOnly, .immediate⟩,
    ⟨.w64, 64, 0, .readOnly, .immediate⟩]⟩

/-- Group `gl` of Table 22.1. -/
def group_gl : ParamGroup :=
  ⟨0x0900, 60, 30, [
    ⟨.w32, 18, 0, .special, .pour⟩,
    ⟨.w64, 64, 0, .special, .pour⟩,
    ⟨.w32, 32, 0, .special, .pour⟩,
    ⟨.w32, 10, 255, .any, .pour⟩,
    ⟨.w32, 30, 0, .any, .pour⟩,
    ⟨.blob, 0, 0, .special, .pour⟩,
    ⟨.blob, 0, 0, .special, .pour⟩,
    ⟨.w32, 8, 8, .special, .pour⟩,
    ⟨.w32, 9, 260, .special, .pour⟩,
    ⟨.w64, 64, 0, .readOnly, .immediate⟩]⟩

/-- Group `tg` of Table 22.1. -/
def group_tg : ParamGroup :=
  ⟨0x0A00, 16, 8, [
    ⟨.w32, 1, 0, .within [(0, 1)], .reseat⟩,
    ⟨.w32, 13, 1920, .within [(16, 7680)], .reseat⟩,
    ⟨.w32, 12, 88, .within [(1, 4095)], .pour⟩,
    ⟨.w32, 10, 44, .within [(1, 1023)], .pour⟩,
    ⟨.w32, 12, 148, .within [(1, 4095)], .pour⟩,
    ⟨.w32, 13, 1080, .within [(8, 4320)], .reseat⟩,
    ⟨.w32, 12, 4, .within [(1, 4095)], .pour⟩,
    ⟨.w32, 8, 5, .within [(1, 255)], .pour⟩,
    ⟨.w32, 12, 36, .within [(1, 4095)], .pour⟩,
    ⟨.w32, 2, 0, .within [(0, 3)], .reseat⟩,
    ⟨.w32, 32, 148500000, .within [(1000000, 600000000)], .pour⟩,
    ⟨.w32, 16, 200, .within [(100, 10000)], .heat⟩,
    ⟨.w32, 16, 0, .within [(0, 65535)], .heat⟩,
    ⟨.w32, 32, 30000, .within [(1000, 240000)], .heat⟩,
    ⟨.w32, 16, 196, .special, .heat⟩,
    ⟨.w64, 64, 0, .readOnly, .immediate⟩]⟩

/-- Group `chk` of Table 22.1. -/
def group_chk : ParamGroup :=
  ⟨0x0B00, 96, 48, [
    ⟨.w64, 64, 0, .special, .pour⟩,
    ⟨.blob, 0, 0, .special, .pour⟩,
    ⟨.w32, 32, 1, .special, .pour⟩,
    ⟨.w64, 64, 0, .readOnly, .immediate⟩]⟩

/-- Group `cupola` of Table 22.1. -/
def group_cupola : ParamGroup :=
  ⟨0x0C00, 4, 4, [
    ⟨.w32, 1, 0, .special, .heat⟩,
    ⟨.w32, 9, 384, .special, .reseat⟩,
    ⟨.w32, 16, 20, .within [(2, 1000)], .heat⟩,
    ⟨.w32, 16, 250, .within [(16, 65535)], .heat⟩,
    ⟨.w32, 32, 25000, .within [(1000, 2500000)], .heat⟩,
    ⟨.w32, 32, 10000, .within [(100, 3600000)], .heat⟩,
    ⟨.w32, 32, 2000, .within [(10, 500000)], .heat⟩,
    ⟨.w32, 32, 0, .readOnly, .immediate⟩,
    ⟨.blob, 0, 0, .readOnly, .immediate⟩,
    ⟨.w32, 32, 0, .readOnly, .immediate⟩,
    ⟨.w64, 64, 0, .readOnly, .immediate⟩,
    ⟨.w64, 64, 0, .readOnly, .immediate⟩]⟩

/-- Group `ladle` of Table 22.1. -/
def group_ladle : ParamGroup :=
  ⟨0x0C40, 20, 20, [
    ⟨.w32, 2, 0, .special, .reseat⟩,
    ⟨.w32, 32, 0, .within [(0, 0), (1000000, 600000000)], .heat⟩,
    ⟨.w32, 16, 500, .within [(1, 10000)], .heat⟩,
    ⟨.w32, 3, 4, .within [(0, 7)], .heat⟩,
    ⟨.w32, 13, 0, .within [(0, 0), (4, 4096)], .heat⟩,
    ⟨.blob, 0, 0, .special, .heat⟩,
    ⟨.w64, 64, 0, .readOnly, .immediate⟩,
    ⟨.w64, 64, 0, .readOnly, .immediate⟩,
    ⟨.w32, 32, 0, .readOnly, .immediate⟩,
    ⟨.w64, 64, 0, .readOnly, .immediate⟩]⟩

/-- Group `sap` of Table 22.1. -/
def group_sap : ParamGroup :=
  ⟨0x0D00, 12, 12, [
    ⟨.w32, 1, 0, .within [(0, 1)], .heat⟩,
    ⟨.w32, 6, 0, .special, .heat⟩,
    ⟨.w32, 32, 48000, .within [(8000, 192000)], .heat⟩,
    ⟨.w32, 5, 2, .special, .heat⟩,
    ⟨.w32, 6, 32, .within [(16, 16), (24, 24), (32, 32)], .heat⟩,
    ⟨.w32, 24, 528384, .special, .heat⟩,
    ⟨.w32, 16, 0, .special, .heat⟩,
    ⟨.w32, 16, 0, .special, .heat⟩,
    ⟨.blob, 0, 0, .special, .heat⟩,
    ⟨.w32, 1, 0, .within [(0, 1)], .heat⟩,
    ⟨.w32, 16, 5000, .within [(100, 50000)], .heat⟩,
    ⟨.w32, 32, 0, .readOnly, .immediate⟩,
    ⟨.w32, 32, 0, .readOnly, .immediate⟩,
    ⟨.w64, 64, 0, .readOnly, .immediate⟩]⟩

/-- Group `pdm` of Table 22.1. -/
def group_pdm : ParamGroup :=
  ⟨0x0D40, 4, 4, [
    ⟨.w32, 1, 0, .within [(0, 1)], .heat⟩,
    ⟨.w32, 16, 2064, .special, .heat⟩,
    ⟨.w32, 2, 2, .within [(0, 2)], .heat⟩,
    ⟨.w32, 16, 0, .special, .heat⟩,
    ⟨.w32, 6, 3, .any, .heat⟩,
    ⟨.w32, 32, 0, .readOnly, .immediate⟩]⟩

/-- Group `tundish` of Table 22.1. -/
def group_tundish : ParamGroup :=
  ⟨0x0D60, 16, 16, [
    ⟨.blob, 0, 0, .special, .heat⟩,
    ⟨.w32, 16, 0, .special, .heat⟩,
    ⟨.w32, 5, 16, .special, .heat⟩,
    ⟨.w64, 64, 0, .readOnly, .immediate⟩,
    ⟨.w32, 32, 0, .readOnly, .immediate⟩,
    ⟨.w64, 64, 0, .readOnly, .immediate⟩]⟩

/-- Group `eaud` of Table 22.1. -/
def group_eaud : ParamGroup :=
  ⟨0x0D80, 8, 8, [
    ⟨.w64, 64, 0, .special, .heat⟩,
    ⟨.blob, 0, 0, .special, .heat⟩,
    ⟨.w32, 32, 2000, .within [(0, 100000)], .heat⟩,
    ⟨.w64, 64, 0, .readOnly, .immediate⟩]⟩

/-- Group `pair` of Table 22.1. -/
def group_pair : ParamGroup :=
  ⟨0x0E00, 1, 1, [
    ⟨.w32, 1, 0, .within [(0, 1)], .heat⟩,
    ⟨.w32, 2, 3, .within [(1, 3)], .heat⟩,
    ⟨.w32, 16, 2048, .special, .heat⟩,
    ⟨.w32, 2, 1, .within [(0, 3)], .heat⟩,
    ⟨.w32, 16, 20, .within [(0, 0), (4, 10000)], .heat⟩,
    ⟨.w32, 16, 20, .within [(8, 1000)], .heat⟩,
    ⟨.w64, 64, 0, .readOnly, .immediate⟩,
    ⟨.blob, 0, 0, .readOnly, .immediate⟩,
    ⟨.w64, 64, 0, .readOnly, .immediate⟩,
    ⟨.w32, 32, 0, .readOnly, .immediate⟩,
    ⟨.w32, 1, 0, .within [(0, 1)], .boot⟩,
    ⟨.w32, 1, 0, .within [(0, 1)], .heat⟩,
    ⟨.w32, 16, 200, .within [(10, 10000)], .heat⟩,
    ⟨.w32, 16, 1000, .within [(0, 20000)], .heat⟩,
    ⟨.w32, 8, 255, .special, .heat⟩,
    ⟨.w32, 7, 127, .within [(0, 127)], .heat⟩,
    ⟨.w32, 16, 2000, .within [(0, 60000)], .heat⟩,
    ⟨.w32, 8, 3, .within [(1, 255)], .heat⟩,
    ⟨.w32, 32, 1000, .within [(0, 3600000)], .heat⟩,
    ⟨.w32, 2, 3, .within [(0, 3)], .heat⟩,
    ⟨.w32, 32, 0, .readOnly, .immediate⟩,
    ⟨.w32, 32, 0, .readOnly, .immediate⟩,
    ⟨.w64, 64, 0, .readOnly, .immediate⟩,
    ⟨.w64, 64, 0, .readOnly, .immediate⟩,
    ⟨.w64, 64, 0, .readOnly, .immediate⟩,
    ⟨.w64, 64, 0, .readOnly, .immediate⟩,
    ⟨.blob, 0, 0, .readOnly, .immediate⟩,
    ⟨.blob, 0, 0, .readOnly, .immediate⟩]⟩

/-- Group `key` of Table 22.1. -/
def group_key : ParamGroup :=
  ⟨0x0F00, 1, 1, [
    ⟨.w32, 2, 0, .readOnly, .immediate⟩,
    ⟨.w32, 32, 0, .readOnly, .immediate⟩,
    ⟨.w64, 64, 0, .readOnly, .immediate⟩,
    ⟨.w64, 64, 0, .readOnly, .immediate⟩,
    ⟨.w32, 32, 0, .readOnly, .immediate⟩,
    ⟨.w32, 32, 8000, .within [(0, 0), (800, 800000)], .heat⟩,
    ⟨.w32, 8, 255, .within [(0, 63), (255, 255)], .heat⟩,
    ⟨.w32, 2, 3, .within [(0, 3)], .heat⟩,
    ⟨.w32, 8, 0, .readOnly, .immediate⟩,
    ⟨.w32, 8, 0, .readOnly, .immediate⟩,
    ⟨.blob, 0, 0, .readOnly, .immediate⟩,
    ⟨.w32, 2, 0, .readOnly, .immediate⟩,
    ⟨.w32, 32, 0, .readOnly, .immediate⟩,
    ⟨.blob, 0, 0, .readOnly, .immediate⟩,
    ⟨.blob, 0, 0, .readOnly, .immediate⟩,
    ⟨.blob, 0, 0, .readOnly, .immediate⟩,
    ⟨.w64, 64, 0, .readOnly, .immediate⟩,
    ⟨.w32, 8, 0, .readOnly, .immediate⟩,
    ⟨.w64, 64, 0, .readOnly, .immediate⟩,
    ⟨.w64, 64, 0, .readOnly, .immediate⟩]⟩

/-- Group `upd` of Table 22.1. -/
def group_upd : ParamGroup :=
  ⟨0x1000, 1, 1, [
    ⟨.w32, 32, 0, .readOnly, .immediate⟩,
    ⟨.w32, 16, 30, .within [(10, 600)], .heat⟩,
    ⟨.w32, 1, 0, .within [(0, 1)], .heat⟩,
    ⟨.w32, 3, 2, .within [(1, 7)], .heat⟩,
    ⟨.w32, 8, 100, .within [(25, 200)], .boot⟩,
    ⟨.w32, 16, 600, .within [(10, 3600)], .heat⟩,
    ⟨.blob, 0, 0, .readOnly, .immediate⟩,
    ⟨.blob, 0, 0, .readOnly, .immediate⟩,
    ⟨.blob, 0, 0, .readOnly, .immediate⟩,
    ⟨.w32, 32, 0, .readOnly, .immediate⟩,
    ⟨.w32, 32, 0, .readOnly, .immediate⟩,
    ⟨.w64, 64, 0, .readOnly, .immediate⟩]⟩

/-- Group `fsync` of Table 22.1. -/
def group_fsync : ParamGroup :=
  ⟨0x1100, 8, 8, [
    ⟨.w32, 8, 0, .special, .heat⟩,
    ⟨.w32, 32, 0, .special, .heat⟩,
    ⟨.w32, 32, 65537, .special, .heat⟩,
    ⟨.w32, 16, 10, .within [(1, 10000)], .heat⟩,
    ⟨.w32, 2, 0, .within [(0, 3)], .heat⟩,
    ⟨.w32, 32, 0, .readOnly, .immediate⟩]⟩

/-- Group `clkout` of Table 22.1. -/
def group_clkout : ParamGroup :=
  ⟨0x1120, 6, 6, [
    ⟨.w32, 3, 0, .within [(0, 4)], .heat⟩,
    ⟨.w32, 8, 32, .special, .heat⟩,
    ⟨.w32, 16, 1, .within [(1, 1024)], .heat⟩,
    ⟨.w32, 3, 5, .within [(0, 7)], .heat⟩,
    ⟨.w32, 32, 0, .readOnly, .immediate⟩]⟩

/-- Group `i2c` of Table 22.1. -/
def group_i2c : ParamGroup :=
  ⟨0x1140, 8, 8, [
    ⟨.w32, 2, 0, .within [(0, 2)], .heat⟩,
    ⟨.w32, 16, 400, .within [(100, 1000)], .heat⟩,
    ⟨.w32, 16, 12500, .within [(1000, 12500)], .heat⟩,
    ⟨.w32, 16, 1000, .within [(50, 50000)], .heat⟩,
    ⟨.w32, 8, 0, .within [(0, 3)], .heat⟩,
    ⟨.w32, 32, 0, .readOnly, .immediate⟩]⟩

/-- Group `gpio` of Table 22.1. -/
def group_gpio : ParamGroup :=
  ⟨0x1160, 32, 32, [
    ⟨.w32, 8, 0, .within [(0, 10)], .heat⟩,
    ⟨.w32, 8, 0, .any, .heat⟩,
    ⟨.w32, 8, 0, .readOnly, .immediate⟩]⟩

/-- Group `flt` of Table 22.1. -/
def group_flt : ParamGroup :=
  ⟨0x1200, 1, 1, [
    ⟨.w64, 64, 0, .readOnly, .immediate⟩,
    ⟨.w64, 64, 0, .readOnly, .immediate⟩,
    ⟨.w64, 64, 916594, .special, .heat⟩,
    ⟨.w32, 1, 1, .within [(0, 1)], .heat⟩,
    ⟨.w32, 16, 1000, .within [(0, 60000)], .heat⟩,
    ⟨.w32, 8, 0, .readOnly, .immediate⟩,
    ⟨.w64, 64, 31856, .special, .heat⟩,
    ⟨.w32, 16, 3600, .within [(60, 65535)], .heat⟩,
    ⟨.w32, 32, 0, .readOnly, .immediate⟩,
    ⟨.w32, 16, 60, .within [(0, 0), (10, 3600)], .heat⟩,
    ⟨.w32, 1, 0, .within [(0, 1)], .heat⟩,
    ⟨.w64, 64, 0, .readOnly, .immediate⟩,
    ⟨.w64, 64, 0, .readOnly, .immediate⟩,
    ⟨.w64, 64, 0, .readOnly, .immediate⟩,
    ⟨.w32, 32, 0, .readOnly, .immediate⟩,
    ⟨.blob, 0, 0, .readOnly, .immediate⟩,
    ⟨.blob, 0, 0, .readOnly, .immediate⟩,
    ⟨.blob, 0, 0, .readOnly, .immediate⟩,
    ⟨.w32, 32, 0, .readOnly, .immediate⟩,
    ⟨.w32, 16, 0, .any, .immediate⟩,
    ⟨.w32, 32, 65535, .special, .heat⟩,
    ⟨.w32, 32, 0, .readOnly, .immediate⟩,
    ⟨.w32, 8, 5, .within [(3, 10)], .heat⟩,
    ⟨.w32, 16, 0, .readOnly, .immediate⟩]⟩

/-- Table 22.1: every parameter group (R487). -/
def paramGroups : List ParamGroup :=
  [group_dev, group_ctl, group_time, group_rxp, group_txp, group_stream, group_sprue, group_cru, group_mould] ++
  [group_vl, group_gl, group_tg, group_chk, group_cupola, group_ladle, group_sap, group_pdm, group_tundish] ++
  [group_eaud, group_pair, group_key, group_upd, group_fsync, group_clkout, group_i2c, group_gpio, group_flt]

/-- The group that holds a definition ID (R487): the ID lies in the group's contiguous range. -/
def ParamGroup.holds (g : ParamGroup) (id : Nat) : Bool :=
  decide (g.base ≤ id) && decide (id < g.base + g.defs.length)

/-- The group of a known definition ID; `none` for an unknown ID (R487, 0x8230). -/
def groupOf (id : Nat) : Option ParamGroup := paramGroups.find? (fun g => g.holds id)

/-- The definition of a known ID (R487). -/
def paramDef (id : Nat) : Option ParamDef :=
  (groupOf id).bind (fun g => g.defs[id - g.base]?)

end Sys2Proof.Machine
end

