-- ==== Sys2Proof/Machine/State.lean ====
section
/-!
DEFINITION. The state of the hub as plain data, chapter by chapter of the spec, and its value at reset. Instances of a
block are lists indexed by the instance number; absolute times are core cycles (heat number × 100,000 + cycle, R24, R26).
-/

namespace Sys2Proof.Machine

/-! ## Shared small types -/

/-- The two parts of the family (R1, R2). -/
inductive Variant where
  | ely2416 | ely1208
  deriving DecidableEq, Repr, Inhabited

/-- A parameter's value (R74): a number of up to 64 bits or a blob. -/
inductive PVal where
  | num (v : BitVec 64)
  | blob (b : Bytes)
  deriving DecidableEq, Repr

/-- A sparse set of parameter values: key = definition ID × 256 + instance, keys strictly rising; an unlisted key holds
its reset value. -/
abbrev Store := List (Nat × PVal)

/-- An instant: the heat number and the core cycle within the heat (R26). -/
structure Now where
  heat  : Nat
  cycle : Nat
  deriving DecidableEq, Repr, Inhabited

/-- The time base (R25, R26): the 48-bit heat number and the core cycle of the last command. -/
structure TimeBase where
  heat  : BitVec 48
  cycle : BitVec 17
  deriving DecidableEq, Repr, Inhabited

/-- The parameter sets (R11, R21): `committed` is what GET returns; `live` holds pour-class and reseat-class values as the
data path uses them; `bootPending` holds boot-class values until the next start; `stat` holds the read-only values the
hardware writes; `pattern` the values of the running pattern's records (R61 policy 3); `overlay` the heat-class `tg` and `txp` values of the scenes shown
(R267). -/
structure Params where
  committed   : Store := []
  live        : Store := []
  bootPending : Store := []
  stat        : Store := []
  pattern     : Store := []
  overlay     : Store := []
  deriving DecidableEq, Repr, Inhabited

/-- One entry of a transaction (R75): definition ID, instance, value. -/
structure Entry where
  id   : Nat
  inst : Nat
  val  : PVal
  deriving DecidableEq, Repr

/-- A count of the heat in progress, told once at the boundary that ends it: the heat, the occurrences, the first one's instant and
what the event's DETAIL says of the latest (R64, Table 3.12; assumption 65). -/
structure HeatTally where
  heat  : Nat := 0
  count : Nat := 0
  first : Now := ⟨0, 0⟩
  last  : Bytes := []
  deriving DecidableEq, Repr, Inhabited

/-! ## Chapter 2: heats and pours -/

/-- The bookkeeping of heat work (R31 to R36). `hardDone`: this heat's hard window has finished; `overrunRun`: heats in a
row in which it did not (R32); `deferring`: a run of deferring heats (R33); `messagesDone`: this heat's message window has been;
`workCycles`: the hard window's cycles; `aligned`, `pulseMissing`, `missedPulses`, `lostAlign`, `correction`, `correctedAt`: the
alignment of a follower (R35, R36); `step`: the heat number the next boundary takes (R35). -/
structure HeatWork where
  hardDone     : Bool := true
  overrunRun   : Nat := 0
  deferring    : Bool := false
  messagesDone : Bool := false
  workCycles   : Nat := 0
  aligned      : Bool := false
  pulseMissing : Bool := false
  missedPulses : Nat := 0
  lostAlign    : Bool := false
  correction   : Int := 0
  correctedAt  : Option Nat := none
  step         : Option Nat := none
  deriving DecidableEq, Repr, Inhabited

/-! ## Chapter 3: sessions, leases, events, transports -/

/-- A Jorek message (Table 3.1): header fields, payload and tag. -/
structure Jorek where
  version : Nat := 1
  typ     : Nat
  session : Nat
  seq     : Nat
  flags   : Nat
  payload : Bytes
  tag     : Bytes
  deriving DecidableEq, Repr, Inhabited

/-- A message waiting in an inbound mailbox (R20, R67) with its route and arrival time (R27). -/
structure Msg where
  j       : Jorek
  route   : Route
  arrival : Nat
  deriving DecidableEq, Repr, Inhabited

/-- A queued event entry (Table 3.12) with its number and whether and when it was sent (R63). -/
structure QEvent where
  number    : Nat
  code      : Nat
  inst      : Nat
  count     : Nat
  coalesced : Bool
  time      : Now
  detail    : Bytes
  sentAt    : Option Nat
  deriving DecidableEq, Repr, Inhabited

/-- The state of a session slot (R50, R52). -/
inductive SessState where
  | free | handshake | open
  deriving DecidableEq, Repr, Inhabited

/-- One of the last 8 handled requests with its reply (R41). -/
structure Handled where
  seq   : Nat
  tag   : Bytes
  typ   : Nat
  reply : Option Bytes
  deriving DecidableEq, Repr, Inhabited

/-- An Open transaction of a session (Table 4.2). -/
structure Txn where
  id      : Nat
  entries : List Entry
  deriving DecidableEq, Repr

/-- A session's keys and handshake material (R52, R53). `usable`: the keys stand in key RAM. -/
structure SessKeys where
  usable     : Bool := false
  kP2d       : Bytes := []
  kD2p       : Bytes := []
  kRpt       : Bytes := []
  transcript : Bytes := []
  certKey    : Bytes := []
  deriving DecidableEq, Repr, Inhabited

/-- A session's event queue (R62 to R64). -/
structure EvQueue where
  mask     : Nat := 0
  entries  : List QEvent := []
  nextNum  : Nat := 1
  lost     : Nat := 0
  sentHeat : Option Nat := none
  deriving DecidableEq, Repr, Inhabited

/-- A session slot (R50 to R56). `tagFails`: the tag failures of this heat (R42); `leaseEnd`: when the last of its leases ended (Table 3.7
reason 1). -/
structure Session where
  state       : SessState := .free
  gen         : Nat := 0
  cls         : Nat := 0
  method      : Nat := 1
  partner     : Nat := 0
  keys        : SessKeys := {}
  highSeq     : Nat := 0
  accepted    : List Nat := []
  seqOut      : Nat := 1
  handled     : List Handled := []
  route       : Route := ⟨0, 0, 0⟩
  openedAt    : Nat := 0
  lastArrival : Nat := 0
  leaseEnd    : Nat := 0
  tagFails    : HeatTally := {}
  inbox       : List Msg := []
  ev          : EvQueue := {}
  txns        : List Txn := []
  nextTxn     : Nat := 1
  deriving DecidableEq, Repr

/-- A held lease (R57, R60): resource, holder's slot and session ID, timeout and deadline (core cycles). -/
structure Lease where
  kind     : Nat
  idx      : Nat
  slot     : Nat
  session  : Nat
  timeout  : Nat
  deadline : Nat
  deriving DecidableEq, Repr, Inhabited

/-- An expiry policy waiting for its boundary (R59, R60). -/
structure Expiry where
  kind   : Nat
  idx    : Nat
  policy : Nat
  scene  : Nat
  due    : Nat
  deriving DecidableEq, Repr, Inhabited

/-- An IPv4 datagram in reassembly (R44). -/
structure Reassembly where
  src    : Nat
  dst    : Nat
  ident  : Nat
  pieces : List (Nat × Bytes)
  total  : Option Nat
  since  : Nat
  deriving DecidableEq, Repr, Inhabited

/-- An Ethernet port: link, its speed, the bit of `ctl.eth_speed` it was started with, reassembly (R44, R71). -/
structure EthPort where
  up    : Bool := false
  fast  : Bool := false
  tuned : Bool := false
  frags : List Reassembly := []
  unknownHeat : Option Nat := none
  deriving DecidableEq, Repr, Inhabited

/-- A CAN FD node's partial message (R47). -/
structure CanPartial where
  node    : Nat
  counter : Nat
  bytes   : Bytes
  last    : Nat
  deriving DecidableEq, Repr, Inhabited

/-- A CAN FD controller (R46, R71). -/
structure CanCtl where
  state    : Nat := 0
  tec      : Nat := 0
  partials : List CanPartial := []
  deriving DecidableEq, Repr, Inhabited

/-- An I²C/I3C operation (Table 3.13). -/
structure XferOp where
  op   : Nat
  addr : Nat
  ccc  : Nat
  stop : Bool
  len  : Nat
  data : Bytes
  deriving DecidableEq, Repr, Inhabited

/-- An XFER accepted on a controller (R69). -/
structure Xfer where
  slot    : Nat
  session : Nat
  seq     : Nat
  route   : Route
  ops     : List XferOp
  deriving DecidableEq, Repr, Inhabited

/-- A reply that waits for the next message window (R69, R90). -/
structure HeldReply where
  slot    : Nat
  session : Nat
  typ     : Nat
  seq     : Nat
  route   : Route
  status  : Nat
  data    : Bytes
  deriving DecidableEq, Repr, Inhabited

/-- An I²C/I3C controller (R69, R72). -/
structure I2cCtl where
  running  : Option Xfer := none
  queue    : List Xfer := []
  stuck    : Bool := false
  nacks    : Nat := 0
  deriving DecidableEq, Repr, Inhabited

/-- The control block (chapter 3). `starts`: the start slots of classes 0 to 3 (R66); `overflow`: the messages dropped at full mailboxes in
this heat (R67); `announcedAt`: when ANNOUNCE was last due and sent (R49). -/
structure Ctl where
  slots       : List Session
  pre         : List Msg := []
  leases      : List Lease := []
  expiries    : List Expiry := []
  starts      : List Nat := [0, 0, 0, 0]
  eth         : List EthPort := [{}, {}]
  can         : List CanCtl := [{}, {}]
  unknownHeat : List (Option Nat) := [none, none, none, none, none]
  overflow    : HeatTally := {}
  announcedAt : Option Nat := none
  i2c         : List I2cCtl
  held        : List HeldReply := []
  deriving DecidableEq, Repr

/-! ## Chapter 4: transactions -/

/-- A commit's state after acceptance (Table 4.2). -/
inductive CommitState where
  | pending | applied
  deriving DecidableEq, Repr, Inhabited

/-- An output touched by a commit and the facts its reply reports (R30, R90, Table 4.5). -/
structure OutRec where
  output : Nat
  late   : Bool
  reseat : Bool
  beyond   : Bool
  pour   : Nat
  deriving DecidableEq, Repr, Inhabited

/-- A failure record of a check (Table 4.5). -/
structure Failure where
  id    : Nat
  inst  : Nat
  code  : Nat
  index : Nat
  deriving DecidableEq, Repr, Inhabited

/-- An adjustment record of a check (Table 4.5). -/
structure Adjust where
  id    : Nat
  inst  : Nat
  code  : Nat
  value : Nat
  deriving DecidableEq, Repr, Inhabited

/-- An accepted commit (R85 to R93). `slot` 32 marks a commit of the device itself (an expiry policy, a pattern) or of the
pair journal. `shadow`: its shadow sets are completely written; `writing`: writing has begun (R92). `expect`: the (output, pour) pairs its SET or COMMIT reply
foretells (R90, R241); `learn`: the window instance whose learned values it carries (R261); `deferred`: its re-check was not complete by
the hard window before its boundary (R93). -/
structure Commit where
  acc      : Nat
  slot     : Nat
  session  : Nat
  txn      : Nat
  isSet    : Bool
  entries  : List Entry
  kind     : Nat
  output   : Nat
  target   : Nat
  eff      : Nat
  planned  : Nat
  shadow   : Bool
  writing  : Bool
  state    : CommitState
  recheck  : Bool
  route    : Route
  reqSeq   : Nat
  cycles   : Nat
  outs     : List OutRec
  adjusts  : List Adjust
  jseq     : Option Nat
  expect   : List (Nat × Nat) := []
  learn    : Option Nat := none
  deferred : Bool := false
  deriving DecidableEq, Repr

/-- What a running or paused check will do when it completes (R81, R83, R84). `flaw`: the code of a SET's entry that fails stage 1 by its
syntax (R77); `learn`: the window instance whose learned values it commits (R261). -/
structure CheckJob where
  slot    : Nat
  session : Nat
  msg     : Msg
  txn     : Nat
  isSet   : Bool
  isCheck : Bool
  entries : List Entry
  kind    : Nat
  output  : Nat
  target  : Nat
  cost    : Nat
  left    : Nat
  again   : Bool
  flaw : Option Nat := none
  learn   : Option Nat := none
  deriving DecidableEq, Repr

/-- The transaction engine (chapter 4): accepted commits in order of acceptance, and the checks in progress,
the one that runs next first (R84). -/
structure TxnEngine where
  commits : List Commit := []
  nextAcc : Nat := 0
  paused  : List CheckJob := []
  deriving DecidableEq, Repr

/-! ## Chapter 19: the modes -/

/-- The twelve modes (Table 1.7, Table 19.1). -/
inductive Mode where
  | reset | boot | provisioning | autonomous | run | degraded | standby | takeover | changeover | banked | maintenance
  | latched
  deriving DecidableEq, Repr, Inhabited

/-! ## Chapter 5: video ports -/

/-- Receive port states (Table 5.2). -/
inductive RxState where
  | off | wait | clock | train | map | up
  deriving DecidableEq, Repr, Inhabited

/-- One receive lane's equaliser, sampling phase and loss-of-signal detector (R100, R102, R103). `phase`: against the clock in 1/32 UI, as
found on a deskew burst; `none`: the calibrated centre. -/
structure RxLane where
  ctle      : Nat := 0
  phase     : Option Int := none
  movedHeat : Option Nat := none
  atLimit   : Nat := 0
  told      : Bool := false
  los       : Nat := 40
  noise     : List Nat := []
  deriving DecidableEq, Repr, Inhabited

/-- A receive port (R99 to R109). `lanes` holds data lanes 0 to 3 then the clock lane. `clockHs`: the clock lane is in HS, by what it was last
seen to do; `clockAt`: when Clock was entered. `settle`: the HS settle time set in Train, in ns, 0 the centre of the D-PHY window.
`synced`: the virtual channels whose first frame start since Up has been seen. `cut`: a dropout truncates the packet in progress.
`skip`: what comes is discarded up to the next SoT. `part`: the long packet in progress, with its payload so far, and its word count. -/
structure RxPort where
  state     : RxState := .off
  since     : Nat := 0
  clockHs   : Bool := false
  clockAt   : Nat := 0
  settle    : Nat := 0
  mapFailed : Bool := false
  clockInv  : Bool := false
  rate      : Nat := 0
  noBurst   : Bool := false
  pins      : Nat := 0
  order     : Nat := 0
  pol       : Nat := 0
  found     : Bool := false
  ulps      : Nat := 0
  clockUlps : Bool := false
  lanes     : List RxLane := List.replicate 5 {}
  synced    : Nat := 0
  cut       : Bool := false
  skip      : Bool := false
  part      : Option (Packet × Nat) := none
  bringUps  : Nat := 0
  eccErr    : HeatTally := {}
  crcErr    : HeatTally := {}
  sotErr    : HeatTally := {}
  unmatched : HeatTally := {}
  deriving DecidableEq, Repr, Inhabited

/-- Transmit port states (Table 5.6). -/
inductive TxState where
  | off | stop | ulps | wake | deskew | run | hold
  deriving DecidableEq, Repr, Inhabited

/-- A transmit port (R106, R114). `quenched`: the expiry policy quench holds a port without a mould in stop state (R61).
`asleep`: the lanes in ULPS, bit 4 the clock lane (R106). `clockHs`: the clock lane stays in HS between bursts (Table 5.1). `deemph`, `swing`:
the levels driven since the last HS entry (R116). `sinceDeskew`: frames since the last periodic deskew burst (R115). -/
structure TxPort where
  state       : TxState := .off
  since       : Nat := 0
  asleep      : Nat := 0
  clockHs     : Bool := false
  deemph      : Nat := 0
  swing       : Nat := 200
  quenched    : Bool := false
  sinceDeskew : Nat := 0
  deskews     : Nat := 0
  deriving DecidableEq, Repr, Inhabited

/-! ## Chapter 6: streams and the runner -/

/-- One stream entry at the runner (R133, R139, R140). `entry`, `dest`: the settings the runner acts on, taken at frame
boundaries; `owed`: a change that came while a frame was in progress waits for the next frame start. `taking`: the outputs that take the
frame in progress; `droppedAt`: those that dropped it (R132). `fnHeld`: the frame number of the run that holds a freeze. -/
structure StreamRun where
  entry     : BitVec 64 := 0
  dest      : BitVec 64 := 0
  owed      : Bool := false
  inFrame   : Bool := false
  taking    : BitVec 64 := 0
  droppedAt : BitVec 64 := 0
  frameNo   : Nat := 0
  lines     : Nat := 0
  crc       : BitVec 32 := 0xFFFFFFFF#32
  marked    : Bool := false
  fsAt      : Nat := 0
  period    : Option Nat := none
  starts    : Nat := 0
  crcRun    : Nat := 0
  lastCrc   : BitVec 32 := 0
  crcHolds  : Bool := false
  fnRun     : Nat := 0
  lastFn    : Nat := 0
  fnHolds   : Bool := false
  fnHeld    : Nat := 0
  deriving DecidableEq, Repr, Inhabited

/-- A stream that has sent on an outgoing virtual channel of an output (R134): entry, match fields, and when its last frame ended. -/
structure VcSender where
  vc    : Nat
  entry : Nat
  key   : Nat
  feAt  : Nat
  deriving DecidableEq, Repr, Inhabited

/-- A packet in a route FIFO (R131): its entry, when it could be started, and when its first and last byte leave. -/
structure Queued where
  entry : Nat
  pkt   : Packet
  ready : Nat
  start : Nat
  stop  : Nat
  deriving DecidableEq, Repr, Inhabited

/-- A runner output that forwards: a transmit port or a pair-link forwarding channel (R131, R132, R134). `fifo`: the packets that have not
wholly left. `offered`: the bytes of this heat; `warned`: when, and by which entry, they went over the port's capacity. -/
structure RouteOut where
  fifo    : List Queued := []
  senders : List VcSender := []
  offered : HeatTally := {}
  warned  : Option (Now × Nat) := none
  fes     : Nat := 0
  deriving DecidableEq, Repr, Inhabited

/-- A replay reader (R136 to R138). `slot`: the crucible slot it last held; `startAt`: the frame start of its pacing source that it last
took; `until_`: when the FE of the frame it holds is sent. -/
structure Replay where
  slot     : Option (Nat × Nat) := none
  until_   : Nat := 0
  frameNo  : Nat := 0
  lastSeq  : Option Nat := none
  lateHeat : Option Nat := none
  startAt  : Option Nat := none
  deriving DecidableEq, Repr, Inhabited

/-- The runner: 128 stream entries, 40 forwarding outputs (0 to 15 transmit ports, 32 to 39 pair link), 16 replay readers. -/
structure Runner where
  streams : List StreamRun := List.replicate 128 {}
  outs    : List RouteOut := List.replicate 40 {}
  replay  : List Replay := List.replicate 16 {}
  deriving DecidableEq, Repr

/-! ## Chapter 7: the crucible -/

/-- Who holds a slot (R153): a video layer, a graphic layer, a replay reader, or a mould's ingot flattening. -/
inductive Holder where
  | video (inst : Nat) | graphic (inst : Nat) | replay (n : Nat) | ingot (mould : Nat)
  deriving DecidableEq, Repr, Inhabited

/-- Slot states (R152). -/
inductive SlotState where
  | empty | writing | complete
  deriving DecidableEq, Repr, Inhabited

/-- One slot of a buffer (R150 to R153). `place`: for each bank of the bank set, in order, its granules. `byUpload`: it is
in Writing from an upload, last named at `lastUpload`. `unread`: no reader has held its present content (R188).
`writes`: data writes so far; `doneAt`: when it last became Complete (R187); `frames`: in a buffer of depth 1, which input frame last wrote
each line (R156); `upCrc`: of a Complete slot written by upload, the CRC-32 over its planes (Table 16.4). -/
structure SlotRec where
  state      : SlotState := .empty
  byUpload   : Bool := false
  lastUpload : Nat := 0
  seq        : Nat := 0
  map        : BitVec 16 := 0x0040#16
  damaged    : Bool := false
  holders    : List Holder := []
  unread     : Bool := true
  place      : List (Nat × List Nat) := []
  writes     : Nat := 0
  doneAt     : Option Nat := none
  frames     : List Nat := []
  upCrc      : Option (BitVec 32) := none
  deriving DecidableEq, Repr, Inhabited

/-- A live buffer descriptor (R147 to R149, Table 7.3). `owner`: session slot 0 to 31, 0xFE orphan, 0xFF pattern. -/
structure Buf where
  index    : Nat
  gen      : Nat
  fmt      : Nat
  retained : Bool
  owner    : Nat
  depth    : Nat
  width    : Nat
  height   : Nat
  stride   : Nat
  slots    : List SlotRec
  counter  : Nat := 0
  dropHeat : Option Nat := none
  deriving DecidableEq, Repr, Inhabited

/-- A freed buffer's slot that readers still hold (R160). -/
structure DyingSlot where
  handle : Nat
  fmt    : Nat
  width  : Nat
  height : Nat
  stride : Nat
  idx    : Nat
  slot   : SlotRec
  deriving DecidableEq, Repr, Inhabited

/-- An uncorrectable-error log entry (`cru.ecc_log`). -/
structure EccLog where
  handle  : Nat
  slot    : Nat
  bank    : Nat
  granule : Nat
  time    : Now
  deriving DecidableEq, Repr, Inhabited

/-- An upload accepted and not yet written (R161). -/
structure PendingUpload where
  handle : Nat
  slot   : Nat
  plane  : Nat
  offset : Nat
  last   : Bool
  data   : Bytes
  reply  : HeldReply
  deriving DecidableEq, Repr, Inhabited

/-- (`ingots`: each mould's ingot cache granules; `ingotHandles`, `sceneHandles`: the buffers ingots and scenes name;
`latHist`: the largest D latency of the last 8 heats, newest first.)
The crucible's control state; its 64 MiB of RAM are `State.mem`. `gens`: the generation of every descriptor index used
so far. `clearing`: granules (bank, granule) awaiting clearing. `conflicts`, `busy`: cycles per bank of the last heat. `scrubbed`: the
granules of the patrol pass in progress; `scrubAt`: when the last pass ended; `scrubFirst`: since a wake the retained region has not been
passed over (R169). -/
structure Crucible where
  bufs       : List Buf := []
  gens       : List (Nat × Nat) := []
  dying      : List DyingSlot := []
  clearing   : List (Nat × Nat) := []
  restripe   : Bool := false
  conflicts  : List Nat := []
  busy       : List Nat := []
  hotRun     : List Nat := List.replicate 64 0
  eccHeat    : HeatTally := {}
  corrected  : List Nat := []
  rateTold   : Bool := false
  eccLog     : List EccLog := []
  inject     : Option (Nat × Bool) := none
  injected   : List (Nat × Bool) := []
  uploads    : List PendingUpload := []
  scrubbed   : Nat := 0
  scrubPass  : Nat := 0
  scrubAt    : Option Nat := none
  scrubFirst : Bool := false
  alertHeat  : List (Option Nat) := List.replicate 64 none
  tearHeat   : List (Holder × Nat) := []
  ingots     : List (Nat × List (Nat × Nat)) := []
  ingotHandles : List Nat := []
  sceneHandles : List Nat := []
  latHist    : List Nat := []
  deriving DecidableEq, Repr

/-! ## Chapter 8: sprues -/

/-- Three 10-bit components of a pixel (R174): (Y, Cb, Cr) or (R, G, B). -/
structure Px where
  a : Nat
  b : Nat
  c : Nat
  deriving DecidableEq, Repr, Inhabited

/-- The settings a sprue acts on, taken at a frame start (R185). `dt`, `dsi`: the data type and protocol of its stream. -/
structure SprueSet where
  target : Nat := 0
  cropX  : Nat := 0
  cropY  : Nat := 0
  cropW  : Nat := 0
  cropH  : Nat := 0
  outW   : Nat := 0
  outH   : Nat := 0
  csc    : Nat := 0
  coef   : Bytes := []
  policy : Nat := 0
  fill   : Nat := 0x20080040
  dt     : Nat := 0
  dsi    : Bool := false
  deriving DecidableEq, Repr, Inhabited

/-- A sprue (R174 to R188). `slot`: the slot being written; `before`: that slot's record before this frame start (R152,
R186). `rows`: the lines of the frame so far, unpacked, cropped and filtered horizontally; `prevRaw`: the cropped bytes of the
last RAW line; `luma`: a luma-only line waiting for its partner (R176); `rowsOut`: output rows written; `frame`: the input frames that have started
(R156); `whole`: no line so far had another width than the crop (R174). -/
structure Sprue where
  acted     : SprueSet := {}
  writing   : Bool := false
  draining  : Bool := false
  slot      : Nat := 0
  before    : SlotRec := {}
  lines     : Nat := 0
  luma      : Option (List Px) := none
  prevLine  : Option (List Px) := none
  prevRaw   : Option Bytes := none
  rows      : List (List Px) := []
  rowsOut   : Nat := 0
  half      : Option (List Px) := none
  frame     : Nat := 0
  whole     : Bool := true
  crcTally  : HeatTally := {}
  narrow    : HeatTally := {}
  lastFs    : Option Nat := none
  rate      : Nat := 0
  overRun   : Nat := 0
  overTold  : Bool := false
  deriving DecidableEq, Repr, Inhabited

/-! ## Chapters 9, 10, 12: moulds -/

/-- What a layer shows (`vl.status` bits 5:3, `gl.status` bits 2:0): nothing, its source, its fallback or substitute fill,
nothing by underrun policy 0, or its part of an ingot. -/
inductive Shows where
  | off | source | fallback | held | ingot
  deriving DecidableEq, Repr, Inhabited

/-- A fade (R207): from, to, length and step in pours. -/
structure Fade where
  start : Nat
  stop  : Nat
  len   : Nat
  k     : Nat
  deriving DecidableEq, Repr, Inhabited

/-- What a frame in progress fetches from a buffer of depth 1 (R156): the handle, the first line, and which input frame had written each
line when the frame began. -/
structure Fetch where
  handle : Nat
  line   : Nat
  frames : List Nat
  deriving DecidableEq, Repr, Inhabited

/-- A layer of a mould, by its `mould.zorder` code: 0 to 2 video, 3 to 7 graphic. `hold`, `fb`: the slots of the source and
the fallback buffer; `chosen`: the slot and sequence last selected; `read`: what this frame fetches in place. `under`: the pixel (line, x) of this frame at which it ran dry. `policy`: its underrun policy is in
force; `kept`: that of the configuration beneath the scene shown (R206). `miss`, `lastNew`: stream loss (R142). `wrote`: the writes of its
slot at the latch line. `lw`: the watermark; `lwNext`: that which the next heat takes (R240). `fill`: the bytes its riser holds; `reqs`: its
requests outstanding, oldest first, whether of class U; `left`: the bytes of the frame not yet asked for (R239). -/
structure Layer where
  hold     : Option (Nat × Nat) := none
  seq      : Nat := 0
  chosen   : Option (Nat × Nat × Nat) := none
  fb       : Option (Nat × Nat) := none
  read     : Option Fetch := none
  shows    : Shows := .off
  alpha    : Nat := 255
  fade     : Option Fade := none
  under    : Option (Nat × Nat) := none
  run      : Nat := 0
  policy   : Bool := false
  kept     : Bool := false
  owed     : Bool := false
  lost     : Bool := false
  miss     : Nat := 0
  lastNew  : Nat := 0
  clamp    : Option (Nat × Nat) := none
  unchanged : Nat := 0
  wrote    : Nat := 0
  lw       : Nat := 0
  lwNext   : Nat := 0
  lwTold   : Option Nat := none
  fill     : Nat := 0
  reqs     : List Bool := []
  left     : Nat := 0
  deriving DecidableEq, Repr

/-- A check window (R254 to R261). `action` holds now; `owed`: an action applies from the next pour; `release`: the cause of a
release at the next pour. `wrong`: the last counted result was a mismatch. `capture`: the image (0 A, 1 B) that holds the
verified capture. `place`: the substitute ingot's granules; `next`: those that replace them at the latch line. `done`: this frame has given its
result; `fault`: the action held requests FAULT_N (bit 18). -/
structure Win where
  crc      : BitVec 32 := 0
  result   : Nat := 0
  matched  : Nat := 0
  action   : Nat := 0
  acting   : Bool := false
  owed     : Bool := false
  release  : Option Nat := none
  misses   : Nat := 0
  wrong    : Bool := false
  goods    : Nat := 0
  total    : Nat := 0
  capture  : Option Nat := none
  place    : SlotRec := {}
  next     : Option SlotRec := none
  done     : Bool := false
  fault    : Bool := false
  deriving DecidableEq, Repr

/-- A running learning (R261): window, frames left, distinct values so far, the session's request; `got`: this frame had a result. -/
structure Learn where
  win    : Nat
  left   : Nat
  values : List (BitVec 32)
  msg    : Msg
  begun  : Bool := false
  got    : Bool := false
  failed : Nat := 0
  deriving DecidableEq, Repr

/-- The state of a mould's flattening (R224 to R228): nothing; a set that qualifies; being built; built; in use. -/
inductive IngotState where
  | idle | ready | building | built | inUse
  deriving DecidableEq, Repr, Inhabited

/-- A rectangle (R210). -/
structure Rect where
  x : Nat
  y : Nat
  w : Nat
  h : Nat
  deriving DecidableEq, Repr, Inhabited

/-- A mould's ingot. `set`: the constituent graphic layers in depth order; `cache`: its granules; `kib`: the size the cache was
allocated for; `old`: the cache that goes at the pour after invalidation; `cause`: an invalidation waiting for its instant; `shown`: the
scene and the state of each constituent that the build began with. -/
structure Ingot where
  state    : IngotState := .idle
  set      : List Nat := []
  box      : Rect := ⟨0, 0, 0, 0⟩
  spoiled  : Bool := false
  cache    : SlotRec := {}
  kib      : Nat := 0
  old      : Option SlotRec := none
  cause    : Option Nat := none
  dry      : Bool := false
  rebuilds : List Nat := []
  told     : List Nat := []
  shown    : Option Nat × List Shows := (none, [])
  since    : Nat := 0
  deriving DecidableEq, Repr

/-- A fallback scene of the running pattern (R267, R440). `values`: its values (R442). -/
structure Scene where
  no      : Nat
  mould   : Nat
  prio    : Nat
  mask    : Nat
  loss    : List Nat
  minShow : Nat
  values  : Store
  deriving DecidableEq, Repr

/-- A SCENE command whose reply waits for its boundary (R272). -/
structure SceneCmd where
  reply : HeldReply
  scene : Nat
  op    : Nat
  due   : Nat
  deriving DecidableEq, Repr

/-- A mould. `scene`, `shown`: the scene shown and the pours it has been shown; `cmds`:
scenes whose command trigger holds; `unleased`: the unleased trigger holds, with the scene its entry names (0xFF default);
`under`: while a scene is shown, the run state of the windows of the configuration it replaces (R269), `wins` being the scene's own;
`digest`: the last check digest, of the frame of pour `digestPour`, computed at core cycle `digestAt` (R262);
`visible`: the scene this frame shows; `on`: the layers that were on at the last latch line; `quench`: expiry policy 2 (R61); `latchSet`: the latch register set is loaded (R462). `composed`: this frame
is composed. -/
structure Mould where
  layers    : List Layer := List.replicate 8 {}
  wins      : List Win := List.replicate 8 {}
  under     : List Win := []
  scene     : Option Nat := none
  shown     : Nat := 0
  cmds      : List Nat := []
  pendCmds  : List SceneCmd := []
  unleased  : Option Nat := none
  visible   : Option Nat := none
  on        : List Nat := []
  quench    : Bool := false
  latchSet  : Bool := false
  composed  : Bool := false
  ingot     : Ingot := {}
  learn     : Option Learn := none
  digest    : BitVec 32 := 0
  underHeat : Option Nat := none
  underLast : Nat := 0
  digestAt  : Nat := 0
  digestPour : Nat := 0
  deriving DecidableEq, Repr

/-! ## Chapter 12: integrity reports -/

/-- A report's data until it is signed (Table 12.1, R265). -/
structure Report where
  rseq  : Nat
  body  : Bytes
  due   : Nat
  signed : Bool := false
  deriving DecidableEq, Repr, Inhabited

/-- A session's REPORT_SET (R263). `misses`: mismatching pours of each output in the group so far. -/
structure ReportCfg where
  slot    : Nat
  session : Nat
  mask    : Nat
  period  : Nat
  rseq    : Nat := 0
  queue   : List Report := []
  dropped : Nat := 0
  misses  : List Nat := List.replicate 16 0
  deriving DecidableEq, Repr

/-- Integrity and scenes: the pattern's scenes, the report settings, REVERSE_IN debounced (`reverseRun`: the heat samples in a row that differ from
it, R268), and the scenes with trigger 2 and the moulds
with trigger 3 as the last hard window found them (`lossEval`, `chkEval`) and as they apply since the boundary (R268). -/
structure Integrity where
  scenes  : List Scene := []
  reports : List ReportCfg := []
  reverse : Bool := false
  reverseRun : Nat := 0
  lossEval : List Nat := []
  lossIn  : List Nat := []
  chkEval : List Nat := []
  chkIn   : List Nat := []
  deriving DecidableEq, Repr

/-! ## Chapter 11: timing generators -/

/-- What a timing generator is doing (R234, R246): stopped; running; in the hold of a reseat. -/
inductive TgState where
  | stopped | running | hold
  deriving DecidableEq, Repr, Inhabited

/-- A timing generator (chapter 11). `started`: it has had a pour since Boot (R28); `latched`: this frame's latch line has
passed; `stretched`: its porch is stretched (R249); `pourAt`, `latchAt`: when the frame and its latch line started; `reseat`: a
reseat is effective and waits for t_e or the restart (R246); `relocked`: a cupola relocked in it; `holdEnd`: the earliest
restart; `stopping`: `tg.enable` went to 0; `unchanged`: R248; `changed`: something of R248 happened since the latch line;
`news`: the cause of a pending change for a test line (R250); `markAt`, `markLine`, `markPos`: an instant, the line of that instant and how
far into it the raster was, in 1/800,000,000 of a period; `width`: the H_total of that line (R237); `head`: V_sync + V_bp of this frame;
`total`: the lines of this frame; `sends`: its frame start was sent (R111); `pps`: the line of this frame that carries the PPS that the frame
before owes, or a restart (R229, R247); `shed`: stopped by R452;
`fresh`: the fresh pour waits for the port's deskew burst; `starting`: the hold in
progress is that of a start (R234); `follow`: the hold ends at a pour of the active unit: a pour's time and number, and the frame
time as a ratio (R363). -/
structure Tg where
  state     : TgState := .stopped
  pour      : BitVec 32 := 0
  started   : Bool := false
  latched   : Bool := false
  stretched : Bool := false
  pourAt    : Nat := 0
  latchAt   : Nat := 0
  reseat    : Bool := false
  relocked  : Bool := false
  holdEnd   : Nat := 0
  stopping  : Bool := false
  unchanged : Nat := 0
  changed   : Bool := false
  idleTold  : Bool := false
  news      : Option Nat := none
  markAt    : Nat := 0
  markLine  : Nat := 0
  markPos   : Nat := 0
  width     : Nat := 0
  head      : Nat := 0
  total     : Nat := 0
  sends     : Bool := false
  pps       : Option Nat := none
  shed      : Bool := false
  fresh     : Bool := false
  starting  : Bool := false
  follow    : Option (Nat × Nat × Nat × Nat) := none
  deriving DecidableEq, Repr

/-! ## Chapter 13: clocks -/

/-- Cupola states (Table 13.1). -/
inductive CupState where
  | off | search | acquire | locked | flywheel | holdover
  deriving DecidableEq, Repr, Inhabited

/-- An entry of a cupola's band memory, most recently used first (R276). -/
structure Band where
  n    : Nat
  band : Nat
  deriving DecidableEq, Repr, Inhabited

/-- A cupola (R275 to R278). `n`: the divider in use; `begun`: when its acquisition began; `holdCode`, `qualified`: the hold DAC's
code and the qualified code; `err`: phase error mean and largest. -/
structure Cupola where
  state    : CupState := .off
  since    : Nat := 0
  begun    : Nat := 0
  n        : Nat := 384
  band     : Nat := 0
  fromMem  : Bool := false
  mem      : List Band := []
  losses   : Nat := 0
  qualified : Nat := 0
  holdCode : Nat := 0
  err      : Nat := 0
  deriving DecidableEq, Repr, Inhabited

/-- The reference monitor (R280 to R284). `lastGlitch`: when the last glitched period ended; `relockAt`: the heat of the relock; `relocking`: cupolas reacquire and 0x0A02 is owed. -/
structure RefMon where
  lost      : Bool := false
  cause     : Nat := 0
  since     : Nat := 0
  glitches  : HeatTally := {}
  lastGlitch : Nat := 0
  limitTold : Bool := false
  relockAt  : Option Nat := none
  relocking : Bool := false
  err       : Int := 0
  lastMs    : Nat := 0
  source    : Nat := 0
  deriving DecidableEq, Repr

/-- A ladle (R285 to R291). Rotation rates are in units of 2⁻⁴⁸ of f_c. `target`: the frequency it runs at or glides to;
`gliding`: the glide's f₀; `comp`: the relock compensation left, in ppb; `profile`: the running profile, `profAt`: when its loop
began; `nextProf`: the profile that replaces it; `dividing`: divider mode; `faulted`: after a rotator fault; `pulse`: state to be
loaded at the PAIR_SYNC pulse of a heat (Table 16.6); `cup`: the cupola it runs from; `restart`: it starts from another one at the next boundary
(R286); `acc`, `cnt`: the accumulator and divider count it was last loaded with (R291); `lastHz`: its frequency in the heat before. -/
structure Ladle where
  on       : Bool := false
  d        : Nat := 0
  base     : Int := 0
  target   : Nat := 0
  waiting  : Option Nat := none
  gliding  : Option Nat := none
  comp     : Int := 0
  profile  : Bytes := []
  profAt   : Nat := 0
  ssc0     : Int := 0
  nextProf : Option Bytes := none
  dividing : Bool := false
  faulted  : Bool := false
  restart  : Bool := false
  cup      : Nat := 0
  acc      : Nat := 0
  cnt      : Nat := 0
  lastHz   : Nat := 0
  synced   : Bool := false
  pulse    : Option (Nat × Bytes) := none
  deriving DecidableEq, Repr

/-- A CLKOUT output (R292, R293). -/
structure ClkOut where
  format : Nat := 0
  source : Nat := 0x20
  div    : Nat := 1
  sub    : Bool := false
  deriving DecidableEq, Repr, Inhabited

/-- Clock synthesis. `fsyncEnd`: when the last pulse of each FSYNC output ends (R294). -/
structure Clocks where
  cups   : List Cupola := List.replicate 4 {}
  ref    : RefMon := {}
  ladles : List Ladle := List.replicate 20 {}
  clkout : List ClkOut := List.replicate 6 {}
  fsyncEnd : List Nat := List.replicate 8 0
  deriving DecidableEq, Repr

/-! ## Chapter 14: audio -/

/-- A sample frame: 24-bit samples by channel (R305), and its capture time in core cycles (R301). -/
structure AFrame where
  s  : List Nat := []
  at_ : Nat := 0
  deriving DecidableEq, Repr, Inhabited

/-- A sample queue (R311). -/
structure AQueue where
  q     : List AFrame := []
  last  : Option AFrame := none
  under : HeatTally := {}
  beyond  : HeatTally := {}
  deriving DecidableEq, Repr, Inhabited

/-- A clock domain (Table 14.2): ladle and total ratio in 2⁻¹⁶, slave port, or extractor. -/
inductive Domain where
  | ladle (l d : Nat) | slave (port : Nat) | ext (n : Nat)
  deriving DecidableEq, Repr, Inhabited

/-- A ladle domain's pacer: its phase, in ladle periods × 8,000 × 65,536 (R301). -/
structure Pacer where
  dom : Domain
  acc : Nat
  deriving DecidableEq, Repr, Inhabited

/-- A serial audio port (R304 to R310). `state`: 0 off, 1 running, 2 stopped clock. `edges`: FSYNC edges of the last 8 heats;
`heatEdges`: those since the last boundary; `frame`: the port's frame counter since its restart; `rxMask`, `txMask`: the masks in
force, `nextRx`, `nextTx` those of the next frame after the last boundary, `rxFrame` that of the frame in progress (R310); `stopping`: the port
stops at the end of its frame; `holdTo`: when it restarted, and no master port's frame comes earlier; `refRate`: the reference rate in 0.01 Hz. -/
structure Sap where
  state   : Nat := 0
  rx      : AQueue := {}
  tx      : AQueue := {}
  edges   : List Nat := []
  lastEdge : Option Nat := none
  heatEdges : List Nat := []
  good    : Nat := 0
  frame   : BitVec 16 := 0
  rxMask  : Nat := 0
  txMask  : Nat := 0
  nextRx  : Nat := 0
  nextTx  : Nat := 0
  rxFrame : Nat := 0
  stopping : Bool := false
  holdTo  : Nat := 0
  refRate : Nat := 0
  rate    : Nat := 0
  deriving DecidableEq, Repr, Inhabited

/-- A PDM input: running and since when, stuck flags, the frames of this batch (R313, R314). -/
structure Pdm where
  on    : Bool := false
  since : Nat := 0
  stuck : Nat := 0
  batch : List AFrame := []
  deriving DecidableEq, Repr, Inhabited

/-- A tundish instance (R315, R316). `state` as `tundish.status`; `idle`: heats in which its input pacer counted nothing; `phase`: output
frames owed, in 2⁻³²; `ramp`: frames of a mute ramp done; `ratio` in 2⁻³²; `acq`: the heat its acquisition began in. -/
structure Tundish where
  state  : Nat := 0
  inq    : AQueue := {}
  outq   : AQueue := {}
  idle   : Nat := 0
  phase  : Nat := 0
  ramp   : Nat := 0
  ratio  : Nat := 0
  acq    : Nat := 0
  deriving DecidableEq, Repr, Inhabited

/-- An embedded-audio instance (R318 to R321): an extractor's queue with due times in `at_`, `released` of its front frames
released; an inserter's queue, its sequence, the packet formed and not yet sent, and the pour and line its last packet left in. `mode`: the
MODE it runs in. -/
structure Eaud where
  q        : AQueue := {}
  released : Nat := 0
  count    : Nat := 0
  lastSeq  : Option Nat := none
  channels : Nat := 0
  size     : Nat := 0
  bad      : HeatTally := {}
  late     : Nat := 0
  discarded : Nat := 0
  seq      : Nat := 0
  disc     : Bool := true
  formed   : Option Bytes := none
  mode     : Nat := 0
  sentIn   : Option (Nat × Nat) := none
  deriving DecidableEq, Repr, Inhabited

/-- The audio subsystem. -/
structure Audio where
  saps   : List Sap := List.replicate 12 {}
  pdms   : List Pdm := List.replicate 4 {}
  tuns   : List Tundish := List.replicate 16 {}
  eauds  : List Eaud := List.replicate 8 {}
  pacers : List Pacer := []
  deriving DecidableEq, Repr

/-! ## Chapter 15: the Morcel link -/

/-- One logical lane of the link: own taps, the far transmitter's, the answer owed, the taps told at a limit (bit 0 pre, bit 1
post), DONE seen, CTLE code, skew, eye, when a request was last applied, the heat of the last live TRAIN block. -/
structure MorLane where
  pre    : Nat := 0
  post   : Nat := 0
  farPre : Nat := 0
  farPost : Nat := 0
  told   : Nat := 0
  done   : Bool := false
  ctle   : Nat := 0
  skew   : Nat := 0
  eye    : Nat := 0
  reqAt  : Option Nat := none
  sentHeat : Option Nat := none
  deriving DecidableEq, Repr, Inhabited

/-- The Morcel link (R328 to R346). `tx`: 0 off, 1 training, 2 traffic, 3 slumber, 4 waking; `stage`: the receiver's; `farState`:
the far receiver's stage from TRAIN or LINKSTAT; `farSix`: when the far receiver first reported stage 6; `slept`: a SLUMBER row was
taken; `retryAt`: a failed stage returns to 1; `queue`: frames that wait for a wake; `window`: channel 1's unacknowledged frames,
`wait`: those beyond it; `nextSeq`, `expect`: its sequences; `acked`: the highest acknowledged;
`resends`: consecutive resends without progress; `fwdSeq`, `fwdPart`, `fwdMark`: per forwarding input; `outCount`: per forwarding
output; `handed`: the frames link down left unacknowledged; `stageAt`: when the receiver entered its stage; `ctlq`: control blocks that wait for a
wake; `sleptAt`, `wakeAt`: when the transmitter sent SLUMBER and began to wake; `rowsAt`: what its marker intervals are counted from, `rowsDone`:
the marker rows sent since, `mcount`: the next MCOUNT (R331); `turn`: the channel that sent last in the round-robin (R340); `fresh`: something was queued by the command in hand; `busyAt`: when
something was last queued; `txSlots`, `rxSlots`: slots used in this heat. -/
structure Morcel where
  tx       : Nat := 0
  stage    : Nat := 0
  farState : Nat := 0
  farSix   : Option Nat := none
  slept    : Bool := false
  retryAt  : Option Nat := none
  up       : Bool := false
  map      : Nat := 0
  inverted : Nat := 0
  los      : Nat := 0
  lanes    : List MorLane := List.replicate 8 {}
  queue    : List MorFrame := []
  window   : List MorFrame := []
  wait     : List MorFrame := []
  nextSeq  : Nat := 1
  expect   : Nat := 1
  acked    : Nat := 0
  nakSent  : Bool := false
  resends  : Nat := 0
  ackAt    : Nat := 0
  bad      : HeatTally := {}
  unknown  : HeatTally := {}
  fwdSeq   : List (Option Nat) := List.replicate 8 none
  fwdPart  : List (Option Bytes) := List.replicate 8 none
  fwdMark  : List Bool := List.replicate 8 false
  outCount : List Nat := List.replicate 8 0
  handed   : List MorFrame := []
  stageAt  : Nat := 0
  ctlq     : List (Nat × Bytes) := []
  sleptAt  : Nat := 0
  wakeAt   : Option Nat := none
  rowsAt   : Nat := 0
  rowsDone : Nat := 0
  mcount   : BitVec 16 := 0
  turn     : Nat := 2
  fresh    : Bool := false
  busyAt   : Nat := 0
  txSlots  : Nat := 0
  rxSlots  : Nat := 0
  load     : Nat := 0
  deriving DecidableEq, Repr

/-! ## Chapter 16: the pair -/

/-- The role of a unit (`pair.status` bits 2:0). -/
inductive Role where
  | single | active | standby | takeover | joining
  deriving DecidableEq, Repr, Inhabited

/-- A journal record (Table 16.3). `last`: the channel-1 SEQ of its last fragment at the sender; `released`: listed in APPLY. -/
structure JRec where
  seq      : Nat
  kind     : Nat
  heat     : Nat
  partner  : Nat
  body     : Bytes
  last     : Nat := 0
  released : Bool := false
  deriving DecidableEq, Repr, Inhabited

/-- A snapshot being received (R362): its ID, its length, what of it has come in order, and when it was complete. -/
structure SnapIn where
  id    : Nat
  total : Nat
  bytes : Bytes := []
  deriving DecidableEq, Repr, Inhabited

/-- A check record of an output: pour, flags and digest (Table 16.2). -/
structure ChkRec where
  output : Nat
  flags  : Nat
  pour   : Nat
  digest : Nat
  deriving DecidableEq, Repr, Inhabited

/-- The last common pour of an output with both digests (`pair.chk_state`), consecutive mismatches, and the heat in which it last
started a resynchronisation (R361). -/
structure ChkCommon where
  pour  : Nat := 0
  own   : Nat := 0
  peer  : Nat := 0
  ok    : Bool := false
  fails : Nat := 0
  asked : Option Nat := none
  deriving DecidableEq, Repr, Inhabited

/-- The pair (R347 to R374). `drag`: PAIR_ID; `checkedIn`, `missed`, `expired`: the alive watchdog; `forcedLow`: a fault holds OWN_OUT
low (R459); `alivePin`: PAIR_ALIVE_OUT's level; `aliveAt`, `hbAt`: when the last edge and valid heartbeat came; `aliveTold`, `hbTold`:
their loss is reported; `peer`: the last heartbeat's payload; `snapped`: a snapshot was applied since link up; `resync`: heat and
reason of a resynchronisation; `capture`: the active unit captures at the next boundary; `captured`: when it last did;
`stopped`: no mirroring until the next link up or attach; `accepted`: the peer's state version is; `journal`: records not yet
applied, in order; `part`: a record in pieces; `apply`: JSEQ for the next boundary; `since`: those released since the snapshot was
captured; `selNow`, `sel`, `selPrev`: (handle, sequence) at the boundary, as carried so far, and as carried before this heat (R354);
`detect`: a takeover's time, cause and readiness; `switched`: when OWN_OUT switched; `yieldTo`: the boundary and new EPOCH of a planned handover;
`partners`: the PARTNER_ID of each mirrored lease (kind, index), `bufOwners`: of each buffer;
`trigTold`: the trigger decisions last journalled; `bootWait`: watching for the peer since; `seqOut`, `seqIn`, `taken`: the session's
sequences; `peerVer`: the peer image's STATE_VER and MIN_VER; `switchV`: heat and value of a coming V; `ver`: V produced; `digest`,
`digestAt`: the configuration digest and its heat; `snapAt`: the heat the present attempt at a snapshot began in; `joins`: the shared buses just
taken over and not yet driven: I²C/I3C controllers from bit 0, CAN from bit 8 (R350). -/
structure Pair where
  role      : Role := .single
  drag      : Bool := false
  checkedIn : Bool := false
  missed    : Nat := 0
  expired   : Bool := true
  forcedLow : Bool := false
  ownOut    : Bool := false
  alivePin  : Bool := false
  aliveAt   : Option Nat := none
  hbAt      : Option Nat := none
  aliveTold : Bool := false
  hbTold    : Bool := false
  peer      : Bytes := []
  epoch     : BitVec 32 := 0
  snapped   : Bool := false
  resync    : Option (Nat × Nat) := none
  resyncFails : Nat := 0
  capture   : Option Nat := none
  captured  : Option Nat := none
  stopped   : Bool := false
  accepted  : Bool := true
  mirrored  : Bool := false
  ready     : Bool := false
  journal   : List JRec := []
  nextJseq  : Nat := 1
  part      : Option JRec := none
  apply     : List Nat := []
  since     : List Nat := []
  selNow    : List (Nat × Nat) := []
  sel       : List (Nat × Nat) := []
  selPrev   : List (Nat × Nat) := []
  detect    : Option (Nat × Nat × Bool) := none
  switched  : Option Nat := none
  yieldTo   : Option (Nat × Nat) := none
  chkOwn    : List ChkRec := []
  chkPeer   : List ChkRec := []
  common    : List ChkCommon := List.replicate 16 {}
  partners  : List ((Nat × Nat) × Nat) := []
  bufOwners : List (Nat × Nat) := []
  trigTold  : List Nat × List Nat := ([], [])
  unmirroredAt : Option Nat := none
  bootWait  : Option Nat := none
  snapIn    : Option SnapIn := none
  snapId    : Nat := 0
  seqOut    : Nat := 1
  seqIn     : Nat := 0
  taken     : List Nat := []
  peerVer   : Option (Nat × Nat) := none
  switchV   : Option (Nat × Nat) := none
  ver       : Nat := 0
  takeovers : List Bytes := []
  digest    : BitVec 64 := 0
  digestAt  : Nat := 0
  snapAt    : Nat := 0
  joins     : Nat := 0
  deriving DecidableEq, Repr

/-! ## Chapter 17: keys, lifecycle -/

/-- One-time-programmable memory: identity, enrolment with the root secret or the extractor's helper data, anti-rollback counters, lifecycle,
owner keys (R375, R393, R397). -/
structure Otp where
  enrolled   : Bool := false
  check      : Bytes := []
  root       : Bytes := []
  helper     : Bytes := []
  erased     : Bool := false
  lifecycle  : Nat := 0
  fwCtr      : Nat := 0
  patCtr     : Nat := 0
  owners     : List Bytes := []
  unitId     : Nat := 0
  mac0       : Nat := 0
  mac1       : Nat := 0
  stepping   : Nat := 0
  debugNext  : Bool := false
  deriving DecidableEq, Repr, Inhabited

/-- A slot's record (Table 17.2) and its cached key: `key` is the plain key in key RAM when `usable` (R381, R386). -/
structure KeySlot where
  state   : Nat := 0
  typ     : Nat := 0
  cls     : Nat := 0
  child   : Nat := 0
  origin  : Nat := 0
  branch  : Nat := 0
  parent  : Nat := 0
  flags   : Nat := 0
  seq     : Nat := 0
  blob0   : Nat := 0xFFFF
  blob1   : Nat := 0xFFFF
  mtag0   : Bytes := List.replicate 8 0
  mtag1   : Bytes := List.replicate 8 0
  keyId   : Bytes := List.replicate 16 0
  key     : Bytes := []
  usable  : Bool := false
  deriving DecidableEq, Repr, Inhabited

/-- What follows a completed table update (R385, R391, R392). -/
inductive AfterUpdate where
  /-- A key message's reply and event 0x0D08 for (slot, operation). -/
  | message (reply : HeldReply) (slot op : Nat)
  /-- Activation goes on (R415): the images, MODE, and the reply of UPD_ACTIVATE. -/
  | activate (kinds mode : Nat) (reply : HeldReply)
  /-- A confirmed trial goes on to the counters (R393, R419). -/
  | confirm (kinds : Nat)
  /-- A trial ended unconfirmed. -/
  | unseal
  deriving DecidableEq, Repr

/-- A table update in progress (R385): new blobs (location, bytes), the records to be written, the steps done (0 to 3). -/
structure TableUpdate where
  blobs   : List (Nat × Bytes)
  records : List KeySlot
  done    : Nat
  after   : AfterUpdate
  deriving DecidableEq, Repr

/-- The key engine (R375 to R396). `masks`: re-mask passes; `remaskAt`: the heat of the last, or of the start (R387). -/
structure KeyEngine where
  rs        : Option Bytes := none
  fromOtp   : Bool := false
  bch       : Nat := 0
  m         : Bytes := []
  mNext     : Option Bytes := none
  fwHash    : Bytes := List.replicate 32 0
  patHash   : Bytes := List.replicate 32 0
  fwHashN   : Bytes := List.replicate 32 0
  patHashN  : Bytes := List.replicate 32 0
  fwSvn     : Nat := 0
  patSvn    : Nat := 0
  bootId    : Bytes := List.replicate 8 0
  debugOpen : Bool := false
  slots     : List KeySlot := List.replicate 64 {}
  tableSeq  : Nat := 0
  update    : Option TableUpdate := none
  aliasCert : Bytes := []
  masks     : Nat := 0
  remaskAt  : Nat := 0
  ownNonce  : Option Bytes := none
  peerNonce : Option Bytes := none
  peerId    : Nat := 0
  pairTold  : Bool := false
  kOut      : Bytes := []
  kIn       : Bytes := []
  deriving DecidableEq, Repr

/-! ## Chapter 18: update -/

/-- An image slot: 0 firmware A, 1 firmware B, 2 pattern A, 3 pattern B. States as `upd.slot_state`. -/
structure ImgSlot where
  state : Nat := 0
  deriving DecidableEq, Repr, Inhabited

/-- A download (R408, R409). `pages`: the programmed 256-byte pages; `held`: the bytes of partly received pages, as (offset, byte);
`erased`: sectors of the slot erased so far; `headed`: header and trailer are written; `waiting`: blocks whose page is not yet
erased. -/
structure Transfer where
  id      : Nat
  kind    : Nat
  slot    : Nat
  header  : Bytes
  size    : Nat
  pages   : List Nat := []
  held    : List (Nat × Byte) := []
  erased  : Nat := 0
  headed  : Bool := false
  waiting : List (Nat × Bytes × HeldReply) := []
  lastAt  : Nat := 0
  verifyAt : Nat := 0
  deriving DecidableEq, Repr

/-- A stage of an update whose flash work is running (R415, R419, R420). -/
inductive UpdJob where
  /-- Verification of a transfer (R411). -/
  | verify (transfer : Nat) (reply : HeldReply)
  /-- The boot record of an activation: kinds, MODE, its reply. -/
  | activate (kinds mode : Nat) (reply : HeldReply)
  /-- The boot record of a confirmation. -/
  | confirm
  /-- The boot record of a changeback or of an abandoned changeover, with its cause. -/
  | revert (cause : Nat)
  deriving DecidableEq, Repr

/-- The update engine. `jobs`: flash work under way; `seals`: table updates that wait for the key engine; `phase` as `upd.state`;
`trialFlag`, `trialKinds`, `trialAt` (the changeover or start); `since`: when the conditions of R419 began to hold, `condBits` those that
hold; `confirmAsked`: UPD_CONFIRM came; `resident`: a resident pair exists; `entered`: the heat at which Changeover is entered; `back`: a
changeback with its cause; `fwRun`, `patRun`: the slots that run; `wasReady`: mirrored and ready at activation; `wasRunning`: outputs
running then; `causes0`: `dev.degraded_causes` then; `broke`: a controller fault came since the last evaluation; `selfTestBad`;
`resume`: the resident pair resumes from its checkpoint at the next boundary, after the fault named; `record`: the boot record in use; `loadAt`: when a
changeover's Load began (R416). -/
structure Update where
  slots     : List ImgSlot := List.replicate 4 {}
  transfers : List Transfer := []
  nextId    : Nat := 1
  jobs      : List UpdJob := []
  seals     : List AfterUpdate := []
  phase     : Nat := 0
  trialFlag : Bool := false
  trialKinds : Nat := 0
  trialAt   : Nat := 0
  since     : Option Nat := none
  condBits  : Nat := 0
  confirmAsked : Bool := false
  resident  : Bool := false
  entered   : Option Nat := none
  back      : Option Nat := none
  fwRun     : Nat := 0
  patRun    : Nat := 0
  wasReady  : Bool := false
  wasRunning : Nat := 0
  causes0   : Nat := 0
  broke     : Bool := false
  selfTestBad : Bool := false
  resume    : Bool := false
  record    : Bytes := []
  loadAt    : Nat := 0
  deriving DecidableEq, Repr

/-! ## Chapter 19: modes and power -/

/-- A bring-up script of the pattern (R441). -/
structure Script where
  no      : Nat
  ctl     : Nat
  mask    : Nat
  retries : Nat
  ops     : Bytes
  deriving DecidableEq, Repr, Inhabited

/-- Modes and power (chapter 19). `asked`: the causes of Table 19.2 that wait for a heat boundary; `restart`: the command in hand restarts
the device, with the mode cause and the reset cause; `soft`: the Reset in force was not one by RESET_N; `retryAt`: when a firmware was last looked for; `booted`: the ROM has run since the last Reset; `noFirmware`: it found no firmware to start and retries; `enrolling`: the
root secret was established in this start; `maintOnly`: no acceptable pattern; `releasedAt`: when the release or wake
happened, in µs before heat 0 of the start or as an absolute core cycle after a wake; `leadUs`: the time from RESET_N release to heat 0;
`bankAt`: Banked entry with its cause and the heat it begins; `bankBegun`; `wake`: a wake in progress: source and heat boundaries since; `heldWake`: a wake
event that came during entry; `idleSince`: all wake sources inactive since; `wakeLines`: the wake sources active at the last boundary;
`firstPour`: the first pour since the start or wake; `applied`: a pattern is in force; `scripts`: the pattern's; `running`: scripts started and not ended, with
their begin; `log`: `dev.mode_log`, newest first; `tjHot`: samples in a row at the latch threshold; `warned`: the warning is on; `overSince`,
`underSince`: heats since which Tj is at the shedding threshold or below it less the hysteresis; `shedAt`: the last step; `shed`: outputs shed,
most recent first; `sleepRunning`: outputs that ran at Banked entry; `avsRun`, `avsFails`, `avsTop`,
`avsStopped`: the AVS loop; `stretched`: cycles stretched in a heat; `pwrEn`, `sramRet`, `aon`, `aonAt`: the always-on domain; `gpioIn`: input
levels. -/
structure Power where
  mode    : Mode := .boot
  cause   : Nat := 2
  asked   : List Nat := []
  restart : Option (Nat × Nat) := none
  soft    : Bool := false
  booted  : Bool := false
  noFirmware : Bool := false
  enrolling : Bool := false
  maintOnly : Bool := false
  entered : Nat := 0
  releasedAt : Nat := 0
  leadUs  : Nat := 0
  bankAt  : Option (Nat × Nat) := none
  bankBegun : Bool := false
  wake    : Option (Nat × Nat) := none
  heldWake : Option Nat := none
  idleSince : Option Nat := none
  wakeLines : Nat := 0
  firstPour : Option Nat := none
  retryAt : Nat := 0
  applied : Bool := false
  scripts : List Script := []
  running : List (Nat × Nat) := []
  log     : List Bytes := []
  tjHot   : Nat := 0
  warned  : Bool := false
  overSince  : Option Nat := none
  underSince : Option Nat := none
  shedAt  : Option Nat := none
  shed    : List Nat := []
  sleepRunning : Nat := 0
  avsRun  : Nat := 0
  avsFails : Nat := 0
  avsTop  : Nat := 0
  avsStopped : Bool := false
  stretched : HeatTally := {}
  pwrEn   : Bool := false
  sramRet : Bool := false
  aon     : Bool := false
  aonAt   : Nat := 0
  gpioIn  : Nat := 0
  deriving DecidableEq, Repr

/-! ## Chapter 20: faults -/

/-- A controller pair (`flt.ctl_state`): 0 idle, 1 active, 2 testing, 3 out of service, with its last fault. At a start pair 0 is the active
one, which the spec leaves open (DESIGN CHOICE, assumption 70). `again`: an earlier
fault fell within `flt.ctl_window_s` of it (R462). `code`: the load sections of the firmware in its memory, each with its ADDRESS; `entry`: where execution
begins (R405). -/
structure CtlPair where
  state   : Nat := 0
  faultAt : Option Nat := none
  faultNo : Nat := 0
  again   : Bool := false
  code    : List (Nat × Bytes) := []
  entry   : Option Nat := none
  deriving DecidableEq, Repr, Inhabited

/-- The fault controller (R457 to R465). `active`: fault number and since when (heat); `moment`: those active for one heat; `told`: fault and
heat of the last 0x0F10; `pin`: FAULT_N asserted, `pinAt` since when; `pinBy`: the faults that asserted it; `clear`: an FLT_CLEAR that
waits for its boundary; `clearAsk`: one has come since the assertion; `halted`: no controller pair runs, since a heat; `pairs`; `selftestAt`:
the last self-test of the idle pair; `log`: `flt.log`, newest first; `txDown`: ports with a driver fault; `txRunAt`: when such a port was
enabled again; `inject`: a fault to inject; `holdOwn`: OWN_OUT is held low until the peer's role is known (R461), since; `warm`: the other pair is ready,
with the state adopted or not, and becomes active at the next boundary (R460); `haltedAt`: the core cycle of the halt. -/
structure Faults where
  active   : List (Nat × Nat) := []
  moment   : List Nat := []
  told     : List (Nat × Nat) := []
  pin      : Bool := false
  pinAt    : Nat := 0
  pinBy    : List Nat := []
  clear    : Option Nat := none
  clearAsk : Bool := false
  halted   : Option Nat := none
  pairs    : List CtlPair := [{ state := 1 }, { state := 0 }]
  selftestAt : Nat := 0
  log      : List Bytes := []
  counts   : List Nat := List.replicate 20 0
  txDown   : Nat := 0
  txRunAt  : List (Option Nat) := List.replicate 16 none
  inject   : Option (Nat × Nat) := none
  holdOwn  : Option Nat := none
  warm     : Option Bool := none
  haltedAt : Nat := 0
  deriving DecidableEq, Repr

/-! ## What leaves the device -/

/-- What the device has put on its outputs, newest first. -/
inductive Out where
  /-- A Jorek message on a route (R45). -/
  | jorek (r : Route) (j : Jorek)
  /-- The untagged ANNOUNCE given to an Ethernet port for a group address: the IPv4 group, or ff02::1 (R44, R49). -/
  | announce (port : Nat) (group : Nat) (j : Jorek)
  /-- An ARP reply to a MAC and IPv4 address, with the frame's VLAN tag (R44). -/
  | arpReply (port : Nat) (tag : Option Nat) (mac ip : Nat)
  /-- An ICMP echo reply, with the frame's VLAN tag (R44). -/
  | icmpReply (port : Nat) (tag : Option Nat) (dst : Nat) (payload : Bytes)
  /-- An IPv4 packet that carries UDP (R44): VLAN tag, source and destination address; for a fragment its identification, offset and
  more-fragments flag; the piece of the UDP datagram. -/
  | ipv4 (port : Nat) (tag : Option Nat) (src dst : Nat) (frag : Option (Nat × Nat × Bool)) (data : Bytes)
  /-- An IPv6 packet that carries UDP (R44). -/
  | ipv6 (port : Nat) (tag : Option Nat) (src dst : Nat) (data : Bytes)
  /-- A CAN FD frame (R46, R47): controller, nominal rate and data-phase rate in kbit/s (0: no switch), identifier, data. -/
  | can (ctl nom fast ident : Nat) (data : Bytes)
  /-- A CAN FD controller that begins to drive a bus it has taken over first waits for so many recessive bits (R350). -/
  | canJoin (ctl bits : Nat)
  /-- A packet sent on a runner output or a transmit port; a marked packet leaves with its CRC inverted (R113). -/
  | packet (output : Nat) (p : Packet)
  /-- A transfer started on an I²C/I3C controller at its bus rate (R69, Table 3.15). -/
  | bus (ctl khz : Nat) (ops : List XferOp)
  /-- A transfer that failed is ended on the bus (R69): SCL is clocked so many times, then STOP. -/
  | busStop (ctl clocks : Nat)
  /-- The answer to an in-band interrupt or Hot-Join request from an address (R70). -/
  | ibi (ctl addr : Nat) (ack : Bool)
  /-- The PAIR_SYNC_OUT pulse at the boundary of a heat (R35). -/
  | pairSync (heat : Nat)
  /-- An FSYNC pulse (R294): output, width in µs, whether the active level is high; of an output that takes a generator's sync, whether that
  V sync is active high (R235). -/
  | fsync (output width : Nat) (high drain : Bool) (vsync : Option Bool)
  /-- A frame a serial audio port transmits (R305, R310): port and slots, `none` for high impedance. -/
  | audio (port : Nat) (slots : List (Option Nat))
  /-- A frame sent on the Morcel link (R339). -/
  | morFrame (f : MorFrame)
  /-- A control block sent on the Morcel link: type and bytes 1 to 7 (R330). -/
  | morBlock (typ : Nat) (fields : Bytes)
  /-- A set point in mV sent over AVSBus to a rail (R449). -/
  | avs (rail mv : Nat)
  /-- Rows of one control block on every lane of the Morcel link (R331, R335, R338): type, and row by row MCOUNT or COUNT (0 for IDLE and
  SLUMBER). -/
  | morRows (typ : Nat) (counts : List Nat)
  deriving DecidableEq, Repr

/-! ## The device -/

/-- The device without its queue, its clock and its crucible RAM. `dirty`: the keys commits wrote and no latch line
has taken yet, doubled, plus 1 where the value changed (R492). -/
structure Dev where
  variant : Variant := .ely2416
  par     : Params := {}
  work    : HeatWork := {}
  ctl     : Ctl
  txn     : TxnEngine := {}
  rx      : List RxPort := List.replicate 24 {}
  tx      : List TxPort := List.replicate 16 {}
  tg      : List Tg := List.replicate 16 {}
  run     : Runner := {}
  cru     : Crucible := {}
  otp     : Otp := {}
  key     : KeyEngine := {}
  flash   : List Host.Cell := []
  pwr     : Power := {}
  spr     : List Sprue := List.replicate 16 {}
  moulds  : List Mould := List.replicate 12 {}
  integ   : Integrity := {}
  clk     : Clocks := {}
  aud     : Audio := {}
  mor     : Morcel := {}
  pair    : Pair := {}
  upd     : Update := {}
  flt     : Faults := {}
  dirty   : List Nat := []
  out     : List Out := []
  fresh   : Nat := 0
  deriving DecidableEq, Repr

/-- The whole block: the waiting commands, the time base, the crucible RAM and the device. `ckpt`: the resident pair's checkpoint of
the handed-over state (R421). -/
structure State where
  pending : List Instr := []
  tb      : TimeBase := ⟨0, 0⟩
  mem     : List Host.Cell := []
  dev     : Dev
  ckpt    : Option Dev := none
  deriving DecidableEq, Repr

/-- Why a run stops with a fault: no command of this block does, so there is no reason. Nothing raises it; safe. -/
inductive Fault where
  deriving DecidableEq, Repr

/-- Why a run stops with a refusal. -/
inductive Refusal where
  /-- The command has no meaning yet; raised by `exec` alone, safe. -/
  | notModelled (mnemonic : String)
  deriving DecidableEq, Repr

/-- The device at reset. -/
def Dev.reset : Dev :=
  { ctl := { slots := List.replicate 32 {}, i2c := List.replicate 8 {} } }

/-- The block right after reset. -/
def State.reset : State := { dev := Dev.reset }

end Sys2Proof.Machine
end

