-- ==== Sys2Proof/Machine/Ops.lean ====
section
/-!
DEFINITION. The named operations the meanings share: bytes and fields, parameter access, events, messages out, lists.
-/

namespace Sys2Proof.Machine

/-! ## Bytes and fields (R5) -/

/-- `n` bytes of a number, little-endian. -/
def leBytes : Nat → Nat → Bytes
  | 0, _ => []
  | n + 1, v => BitVec.ofNat 8 v :: leBytes n (v / 256)

/-- A little-endian number. -/
def leNat : Bytes → Nat
  | [] => 0
  | b :: bs => b.toNat + 256 * leNat bs

/-- `n` bytes of a number, big-endian (published standards, R5). -/
def beBytes (n v : Nat) : Bytes := (leBytes n v).reverse

/-- A big-endian number. -/
def beNat (b : Bytes) : Nat := leNat b.reverse

/-- The `n` bytes at offset `off`. -/
def slice (b : Bytes) (off n : Nat) : Bytes := (b.drop off).take n

/-- The little-endian field of `n` bytes at offset `off`. -/
def rd (b : Bytes) (off n : Nat) : Nat := leNat (slice b off n)

/-- Field of `w` bits from bit `lo` of a number (R5). -/
def bits (v lo w : Nat) : Nat := v / 2 ^ lo % 2 ^ w

/-- Bit `i` of a number. -/
def bit (v i : Nat) : Bool := v / 2 ^ i % 2 == 1

/-- A number with bit `i` set to `b`. -/
def setBit (v i : Nat) (b : Bool) : Nat :=
  if bit v i == b then v else if b then v + 2 ^ i else v - 2 ^ i

/-- How many of bits 0 to n - 1 are set. -/
def popCount : Nat → Nat → Nat
  | 0, _ => 0
  | n + 1, v => v % 2 + popCount n (v / 2)

/-- The positions of the set bits among bits 0 to n - 1, rising. -/
def setBits (n v : Nat) : List Nat := (List.range n).filter (fun i => bit v i)

/-- A number's bits as a mask. -/
def maskOf (l : List Nat) : Nat := l.foldl (fun m i => setBit m i true) 0

/-- Zero bytes up to a multiple of 4. -/
def pad4 (b : Bytes) : Bytes := b ++ List.replicate ((4 - b.length % 4) % 4) 0

/-- `b` cut or zero-padded to `n` bytes. -/
def fit (n : Nat) (b : Bytes) : Bytes := (b ++ List.replicate n 0).take n

/-- A Bool as 0 or 1. -/
def b2n (b : Bool) : Nat := if b then 1 else 0

/-- Signed reading of an n-bit field. -/
def signed (n v : Nat) : Int := if v % 2 ^ n < 2 ^ (n - 1) then (v % 2 ^ n : Int) else (v % 2 ^ n : Int) - 2 ^ n

/-- Two's complement encoding in n bits. -/
def unsigned (n : Nat) (v : Int) : Nat := (v % (2 ^ n : Int)).toNat

/-- ⌈a ÷ b⌉ for b > 0. -/
def ceilDiv (a b : Nat) : Nat := (a + b - 1) / b

/-- Rounding half up: round(a ÷ b) for b > 0. -/
def roundDiv (a b : Nat) : Nat := (2 * a + b) / (2 * b)

/-- A saturating count of `w` bits. -/
def sat (w v : Nat) : Nat := min v (2 ^ w - 1)

/-- Clamp an integer to lo–hi. -/
def clamp (lo hi : Nat) (v : Int) : Nat := if v < lo then lo else if v > hi then hi else v.toNat

/-- Number `a` is newer than `b` modulo 2³² (R28, R152): (a − b) mod 2³² lies in 1 to 2³¹ − 1. -/
def newer (a b : Nat) : Bool :=
  let d := (a + 2 ^ 32 - b % 2 ^ 32) % 2 ^ 32
  decide (1 ≤ d) && decide (d < 2 ^ 31)

/-! ## CRC-32 (R139) -/

/-- One bit of the reflected CRC-32 of polynomial 0x04C1_1DB7. -/
def crcBit (c : BitVec 32) : BitVec 32 := if c.getLsbD 0 then (c >>> 1) ^^^ 0xEDB88320#32 else c >>> 1

/-- One byte into a CRC-32 register. -/
def crcByte (c : BitVec 32) (b : Byte) : BitVec 32 :=
  crcBit (crcBit (crcBit (crcBit (crcBit (crcBit (crcBit (crcBit (c ^^^ b.zeroExtend 32))))))))

/-- Bytes into a CRC-32 register, whose initial value is all ones. -/
def crcFeed (c : BitVec 32) (b : Bytes) : BitVec 32 := b.foldl crcByte c

/-- The CRC-32 of a byte string (R139). -/
def crc32 (b : Bytes) : BitVec 32 := crcFeed 0xFFFFFFFF#32 b ^^^ 0xFFFFFFFF#32

/-! ## Lists -/

/-- Element `i` of a list of like things, or the default. -/
def getAt {α : Type} [Inhabited α] (l : List α) (i : Nat) : α := l.getD i default

/-- Change element `i`. -/
def modAt {α : Type} (l : List α) (i : Nat) (f : α → α) : List α := l.modify i f

/-- Whether some element is equal to `a`. -/
def has (l : List Nat) (a : Nat) : Bool := l.any (· == a)

/-- Whether a list of numbers repeats an element. -/
def repeats : List Nat → Bool
  | [] => false
  | a :: l => has l a || repeats l

/-! ## Time (R24, R26) -/

/-- Core cycles in a heat (R24). -/
abbrev heatCycles : Nat := 100000

/-- Core cycles in a millisecond at 800 MHz. -/
abbrev msCycles : Nat := 800000

/-- The absolute core cycle of an instant. -/
def Now.abs (n : Now) : Nat := n.heat * heatCycles + n.cycle

/-- The instant of an absolute core cycle. -/
def nowOf (c : Nat) : Now := ⟨c / heatCycles, c % heatCycles⟩

/-- The 12-byte timestamp of Table 2.1 (R26). -/
def Now.stamp (n : Now) : Bytes := leBytes 8 (n.heat % 2 ^ 48) ++ leBytes 4 (n.cycle % 2 ^ 17)

/-! ## Parameter access (R11, R74 to R76) -/

/-- The number in a value; 0 for a blob. -/
def PVal.toNat : PVal → Nat
  | .num v => v.toNat
  | .blob _ => 0

/-- The bytes of a blob; empty for a number. -/
def PVal.bytes : PVal → Bytes
  | .num _ => []
  | .blob b => b

/-- A numeric value. -/
def numVal (v : Nat) : PVal := .num (BitVec.ofNat 64 v)

/-- A store's key for a definition ID and instance. -/
def pkey (id inst : Nat) : Nat := id * 256 + inst

/-- The value a store lists for a key. -/
def Store.look : Store → Nat → Option PVal
  | [], _ => none
  | (k, v) :: s, key => if k == key then some v else Store.look s key

/-- Write a key of a store, keeping keys strictly rising. -/
def Store.put : Store → Nat → PVal → Store
  | [], key, v => [(key, v)]
  | (k, w) :: s, key, v =>
    if key < k then (key, v) :: (k, w) :: s
    else if key == k then (key, v) :: s
    else (k, w) :: Store.put s key v

/-- How many instances of a group the variant has (Table 22.1). -/
def ParamGroup.count (g : ParamGroup) (v : Variant) : Nat :=
  match v with
  | .ely2416 => g.n16
  | .ely1208 => g.n08

/-- Instances of a definition on the variant; 0 for an unknown ID. -/
def instances (v : Variant) (id : Nat) : Nat :=
  match groupOf id with
  | some g => g.count v
  | none => 0

/-- The reset value of a parameter instance (R8): the map's Reset column, with the instances it tells apart. -/
def resetVal (id inst : Nat) : PVal :=
  match paramDef id with
  | none => numVal 0
  | some p =>
    if p.width == .blob then .blob []
    else if id == P.cupola_enable && inst == 0 then numVal 1
    else if id == P.gpio_func && inst == 0 then numVal 3
    else if id == P.gpio_func && inst == 1 then numVal 4
    else if id == P.gpio_func && inst == 2 then numVal 5
    else numVal p.reset

/-- A parameter's value in a store, or its reset value. -/
def Store.val (s : Store) (id inst : Nat) : PVal := (s.look (pkey id inst)).getD (resetVal id inst)

/-- A store's number. -/
def Store.num (s : Store) (id inst : Nat) : Nat := (s.val id inst).toNat

/-- A store's blob. -/
def Store.bytes (s : Store) (id inst : Nat) : Bytes := (s.val id inst).bytes

/-- Whether a definition is raster-bound: its committed value waits for a latch line or a restart (R9). -/
def rasterBound (id : Nat) : Bool :=
  match paramDef id with
  | some p => p.takes == .pour || p.takes == .reseat
  | none => false

/-- The committed value a block acts on: that of a scene shown, where it carries a heat-class one of its output (R267), else the
committed value (R11). -/
def Dev.cn (d : Dev) (id inst : Nat) : Nat :=
  match d.par.overlay.look (pkey id inst) with
  | some v => v.toNat
  | none => d.par.committed.num id inst

/-- The committed blob of a parameter. -/
def Dev.cb (d : Dev) (id inst : Nat) : Bytes := d.par.committed.bytes id inst

/-- The number the data path uses: the live value of a raster-bound parameter, the committed value of any other (R21). -/
def Dev.ln (d : Dev) (id inst : Nat) : Nat :=
  if rasterBound id then d.par.live.num id inst else d.par.committed.num id inst

/-- The blob the data path uses (R21). -/
def Dev.lb (d : Dev) (id inst : Nat) : Bytes :=
  if rasterBound id then d.par.live.bytes id inst else d.par.committed.bytes id inst

/-- A read-only value the hardware keeps. -/
def Dev.sn (d : Dev) (id inst : Nat) : Nat := d.par.stat.num id inst

/-- Write a committed value. -/
def Dev.setC (d : Dev) (id inst : Nat) (v : PVal) : Dev :=
  { d with par := { d.par with committed := d.par.committed.put (pkey id inst) v } }

/-- Write a live value. -/
def Dev.setL (d : Dev) (id inst : Nat) (v : PVal) : Dev :=
  { d with par := { d.par with live := d.par.live.put (pkey id inst) v } }

/-- Write a read-only value the hardware keeps. -/
def Dev.setS (d : Dev) (id inst : Nat) (v : PVal) : Dev :=
  { d with par := { d.par with stat := d.par.stat.put (pkey id inst) v } }

/-- Write a read-only number. -/
def Dev.setSN (d : Dev) (id inst v : Nat) : Dev := d.setS id inst (numVal v)

/-- Add to a saturating count of 32 bits. -/
def Dev.bumpBy (d : Dev) (id inst k : Nat) : Dev :=
  if k == 0 then d else d.setSN id inst (sat 32 (d.sn id inst + k))

/-- Count one in a saturating 32-bit count. -/
def Dev.bump (d : Dev) (id inst : Nat) : Dev := d.bumpBy id inst 1

/-- Add `k` to the saturating field of `w` bits from bit `lo` of a read-only value. -/
def Dev.bumpField (d : Dev) (id inst lo w k : Nat) : Dev :=
  let v := d.sn id inst
  let f := bits v lo w
  d.setSN id inst (v - f * 2 ^ lo + sat w (f + k) * 2 ^ lo)

/-- Write the field of `w` bits from bit `lo` of a read-only value. -/
def Dev.putField (d : Dev) (id inst lo w k : Nat) : Dev :=
  let v := d.sn id inst
  d.setSN id inst (v - bits v lo w * 2 ^ lo + (k % 2 ^ w) * 2 ^ lo)

/-! ## Outputs and free values -/

/-- Put something on an output. -/
def Dev.say (d : Dev) (o : Out) : Dev := { d with out := o :: d.out }

/-- The next free value and the device after drawing it (assumption 1). -/
def Dev.draw (d : Dev) : BitVec 256 × Dev := (Config.fresh d.fresh, { d with fresh := d.fresh + 1 })

/-- `n` bytes of a free value. -/
def freeBytes (n : Nat) (v : BitVec 256) : Bytes := leBytes n v.toNat

/-! ## Counts of resources (Table 0.1) -/

/-- Receive ports of the variant. -/
def Dev.nRx (d : Dev) : Nat := match d.variant with | .ely2416 => 24 | .ely1208 => 12
/-- Transmit ports and timing generators of the variant. -/
def Dev.nTx (d : Dev) : Nat := match d.variant with | .ely2416 => 16 | .ely1208 => 8
/-- Sprues of the variant. -/
def Dev.nSprue (d : Dev) : Nat := match d.variant with | .ely2416 => 16 | .ely1208 => 8
/-- Moulds of the variant. -/
def Dev.nMould (d : Dev) : Nat := match d.variant with | .ely2416 => 12 | .ely1208 => 6

/-! ## Events (R62, R64) -/

/-- The instance of an event that concerns the whole device (Table 3.12). -/
abbrev whole : Nat := 0xFFFF

/-- Whether a queue's mask includes the event's block: bit n is block n, bit 0 is ignored (R62). -/
def EvQueue.wants (q : EvQueue) (code : Nat) : Bool :=
  let blk := code / 256
  blk != 0 && bit q.mask blk

/-- The entry of a full queue that can absorb an event: unsent, with the same code and instance (R64). -/
def QEvent.absorbs (code inst : Nat) (e : QEvent) : Bool := e.sentAt.isNone && e.code == code && e.inst == inst

/-- Whether an event is dropped at a queue (R64). -/
def EvQueue.drops (q : EvQueue) (code inst : Nat) : Bool :=
  q.wants code && decide (64 ≤ q.entries.length) && !q.entries.any (QEvent.absorbs code inst)

/-- The event number after `n` (R62). -/
def nextEventNumber (n : Nat) : Nat := if n == 0xFFFFFFFF then 1 else n + 1

/-- The first entry that can absorb an event takes it: COUNT up, coalesced, DETAIL replaced, TIME kept (R64). -/
def absorb (code inst : Nat) (det : Bytes) : List QEvent → List QEvent
  | [] => []
  | e :: l =>
    if QEvent.absorbs code inst e then
      { e with count := sat 16 (e.count + 1), coalesced := true, detail := fit 12 det } :: l
    else e :: absorb code inst det l

/-- An event arrives at a queue (R62, R64). -/
def EvQueue.push (q : EvQueue) (n : Now) (code inst : Nat) (det : Bytes) : EvQueue :=
  if !q.wants code then q
  else if q.entries.length < 64 then
    { q with entries := q.entries ++ [⟨q.nextNum, code, inst, 1, false, n, fit 12 det, none⟩]
             nextNum := nextEventNumber q.nextNum }
  else if q.entries.any (QEvent.absorbs code inst) then { q with entries := absorb code inst det q.entries }
  else { q with lost := sat 16 (q.lost + 1) }

/-- A session takes an event into its queue; a slot that is not in an open session has none. -/
def Session.event (s : Session) (n : Now) (code inst : Nat) (det : Bytes) : Session :=
  if s.state == .open then { s with ev := s.ev.push n code inst det } else s

/-- Whether a session's queue drops an event. -/
def Session.dropsEvent (s : Session) (code inst : Nat) : Bool := s.state == .open && s.ev.drops code inst

/-- Change session slot `i`. -/
def Dev.onSlot (d : Dev) (i : Nat) (f : Session → Session) : Dev :=
  { d with ctl := { d.ctl with slots := modAt d.ctl.slots i f } }

/-- Session slot `i`. -/
def Dev.slot (d : Dev) (i : Nat) : Session := d.ctl.slots.getD i {}

/-- An event enters the queue of every session that wants it (R62). -/
def Dev.raise (d : Dev) (n : Now) (code inst : Nat) (det : Bytes) : Dev :=
  let losses := (d.ctl.slots.filter (fun s => s.dropsEvent code inst)).length
  let d' : Dev := { d with ctl := { d.ctl with slots := d.ctl.slots.map (fun s => s.event n code inst det) } }
  d'.bumpBy P.ctl_lost_event_count 0 losses

/-- An event raised to one named session (R62). -/
def Dev.raiseTo (d : Dev) (n : Now) (slot code inst : Nat) (det : Bytes) : Dev :=
  let losses := b2n ((d.slot slot).dropsEvent code inst)
  (d.onSlot slot (fun s => s.event n code inst det)).bumpBy P.ctl_lost_event_count 0 losses

/-! ## Once per heat -/

/-- Count `k` in a tally of the current heat. -/
def HeatTally.add (t : HeatTally) (h k : Nat) : HeatTally :=
  if t.heat == h then { t with count := t.count + k } else { heat := h, count := k }

/-- Count `k` occurrences at an instant, with what the event's DETAIL will say of the latest. -/
def HeatTally.noteBy (t : HeatTally) (n : Now) (k : Nat) (last : Bytes) : HeatTally :=
  if t.count == 0 then { heat := n.heat, count := k, first := n, last := last } else { t with count := t.count + k, last := last }

/-- Count one occurrence. -/
def HeatTally.note (t : HeatTally) (n : Now) (last : Bytes) : HeatTally := t.noteBy n 1 last

/-- The 16-bit count of an event's DETAIL. -/
def HeatTally.bytes (t : HeatTally) : Bytes := leBytes 2 (sat 16 t.count)

/-- The event of a count, raised at the boundary that ends its heat with the time of the first occurrence (assumption 65). -/
def Dev.tell (d : Dev) (t : HeatTally) (code inst : Nat) (det : Bytes) : Dev :=
  if t.count == 0 then d else d.raise t.first code inst det

/-! ## Jorek messages (R39, R40, R43) -/

/-- The 16-byte header of a message with its LENGTH (Table 3.1). -/
def Jorek.header (j : Jorek) : Bytes :=
  [0xE1#8, BitVec.ofNat 8 j.version] ++ leBytes 2 j.typ ++ leBytes 2 j.session ++ leBytes 4 j.seq ++
    leBytes 2 j.payload.length ++ leBytes 2 j.flags ++ leBytes 2 0

/-- A message's bytes: header, payload, and the tag when FLAGS[1] is set (R39). -/
def Jorek.encode (j : Jorek) : Bytes := j.header ++ j.payload ++ (if bit j.flags 1 then j.tag else [])

/-- Read a message from bytes; `none` when MAGIC is wrong, LENGTH is over 4,096, or the size differs from what the header
declares (R42, Table 3.2). -/
def Jorek.parse (b : Bytes) : Option Jorek :=
  let len := rd b 10 2
  let flags := rd b 12 2
  let tagLen := if bit flags 1 then 8 else 0
  if b.length < 16 || rd b 0 1 != 0xE1 || decide (4096 < len) || b.length != 16 + len + tagLen then none
  else some ⟨rd b 1 1, rd b 2 2, rd b 4 2, rd b 6 4, flags, slice b 16 len, slice b (16 + len) tagLen⟩

/-- The tag of a message under a session key (R40): the first 8 bytes of the AES-CMAC over header and payload. -/
def Jorek.tagOf (key : Bytes) (j : Jorek) : Bytes := (beBytes 16 (Config.cmac key (j.header ++ j.payload)).toNat).take 8

/-- SHA-256 as 32 bytes. -/
def sha256 (b : Bytes) : Bytes := beBytes 32 (Config.sha256 b).toNat

/-- The blocks of KDF (R377). -/
def kdfBlocks (key label context : Bytes) (nbits : Nat) : Nat → Nat → Bytes
  | 0, _ => []
  | k + 1, i =>
    beBytes 32 (Config.hmac256 key (beBytes 4 i ++ label ++ [0#8] ++ context ++ beBytes 4 nbits)).toNat ++
      kdfBlocks key label context nbits k (i + 1)

/-- KDF(K, label, context, L) with L in bits (R377). -/
def kdf (key label context : Bytes) (nbits : Nat) : Bytes :=
  (kdfBlocks key label context nbits (ceilDiv nbits 256) 1).take (nbits / 8)

/-- The bytes of an ASCII label. -/
def ascii (s : String) : Bytes := s.toList.map (fun c => BitVec.ofNat 8 c.toNat)

/-- Whether this unit holds a pin group that it shares with its peer undriven (R350): pair operation is on and its OWN_OUT is low.
Groups as `pair.shared`. -/
def Dev.pinsHeld (d : Dev) (g : Nat) : Bool := d.cn P.pair_enable 0 == 1 && !d.pair.ownOut && bit (d.cn P.pair_shared 0) g

/-! ## Frames out (R44, R46, R47) -/

/-- A port's MAC address (`ctl.eth_mac0`, `ctl.eth_mac1`). -/
def Dev.mac (d : Dev) (port : Nat) : Nat := if port == 0 then d.otp.mac0 else d.otp.mac1

/-- A port's IPv4 address. -/
def Dev.ipv4 (d : Dev) (port : Nat) : Nat := d.cn (if port == 0 then P.ctl_ipv4_addr0 else P.ctl_ipv4_addr1) 0

/-- Whether a unit with no acceptable pattern runs a port: Ethernet port 0, with an IPv6 link-local address (R437). -/
def Dev.rescuePort (d : Dev) (port : Nat) : Bool := d.pwr.maintOnly && port == 0

/-- Whether a port is enabled and its MAC address is programmed (R44). -/
def Dev.ethOn (d : Dev) (port : Nat) : Bool := (d.rescuePort port || bit (d.cn P.ctl_eth_en 0) port) && d.mac port != 0

/-- Whether a port takes an IPv6 link-local address (R44). -/
def Dev.ipv6On (d : Dev) (port : Nat) : Bool := d.cn P.ctl_ipv6_en 0 == 1 || d.rescuePort port

/-- The link-local address of a port: its MAC address by modified EUI-64 under fe80::/64 (R44; the layout is that of RFC 4291,
assumption 66). -/
def Dev.linkLocal (d : Dev) (port : Nat) : Nat :=
  let m := d.mac port
  let hi := m / 2 ^ 24 % 2 ^ 24
  0xFE80 * 2 ^ 112 + setBit hi 17 (!bit hi 17) * 2 ^ 40 + 0xFFFE * 2 ^ 24 + m % 2 ^ 24

/-- The VLAN tag of the frames the device sends: PCP and VID of `ctl.vlan` while it is enabled (R44). -/
def Dev.vlanTag (d : Dev) : Option Nat := let v := d.cn P.ctl_vlan 0; if bit v 15 then some (v % 2 ^ 15) else none

/-- The sum of a byte string's 16-bit big-endian words. -/
def sumWords : Bytes → Nat
  | [] => 0
  | [a] => 256 * a.toNat
  | a :: b :: l => 256 * a.toNat + b.toNat + sumWords l

/-- The Internet checksum of a byte string (RFC 1071), with 0 sent as all ones (RFC 768; assumption 66). -/
def checksum (b : Bytes) : Nat :=
  let s := sumWords b
  let c := 65535 - (if s == 0 then 0 else (s - 1) % 65535 + 1)
  if c == 0 then 65535 else c

/-- A UDP datagram (RFC 768) under the pseudo-header's address bytes, of which the length and the protocol follow. -/
def udpDatagram (addresses : Bytes) (sport dport : Nat) (payload : Bytes) : Bytes :=
  let len := 8 + payload.length
  let head := beBytes 2 sport ++ beBytes 2 dport ++ beBytes 2 len
  let sum := checksum (addresses ++ beBytes 4 len ++ beBytes 4 17 ++ head ++ [0#8, 0#8] ++ payload)
  head ++ beBytes 2 sum ++ payload

/-- The pieces a UDP datagram leaves in over IPv4 (R44): whole when header and datagram fit 1,500 bytes, else fragments of 1,480 bytes. -/
def ipv4Pieces (udp : Bytes) : List (Nat × Bool × Bytes) :=
  if udp.length + 20 ≤ 1500 then [(0, false, udp)]
  else (List.range (ceilDiv udp.length 1480)).map (fun i =>
    (1480 * i, decide (1480 * (i + 1) < udp.length), slice udp (1480 * i) 1480))

/-- An Ethernet port sends bytes in one UDP datagram from `ctl.udp_port` to an address and port (R44): over IPv6 for an address that is
no IPv4 address. The identification of fragments is a free value (assumption 66). -/
def Dev.sendUdp (d : Dev) (port dst dport : Nat) (b : Bytes) : Dev :=
  let sport := d.cn P.ctl_udp_port 0
  if !d.ethOn port then d
  else if 2 ^ 32 ≤ dst then
    if !d.ipv6On port then d
    else
      let src := d.linkLocal port
      d.say (.ipv6 port d.vlanTag src dst (udpDatagram (beBytes 16 src ++ beBytes 16 dst) sport dport b))
  else
    let src := d.ipv4 port
    let udp := udpDatagram (beBytes 4 src ++ beBytes 4 dst) sport dport b
    if src == 0 then d
    else if udp.length + 20 ≤ 1500 then d.say (.ipv4 port d.vlanTag src dst none udp)
    else
      let (v, d) := d.draw
      let id := v.toNat % 2 ^ 16
      (ipv4Pieces udp).foldl (fun d p => d.say (.ipv4 port d.vlanTag src dst (some (id, p.1, p.2.1)) p.2.2)) d

/-- The next valid CAN FD data length. -/
def canLength (n : Nat) : Nat :=
  if n ≤ 8 then n else if n ≤ 12 then 12 else if n ≤ 16 then 16 else if n ≤ 20 then 20 else if n ≤ 24 then 24
  else if n ≤ 32 then 32 else if n ≤ 48 then 48 else 64

/-- The frames a message leaves in on CAN FD (R47): 63 message bytes in each frame but the last, which is padded. -/
def canFrames (msg : Bytes) : List Bytes :=
  let k := max 1 (ceilDiv msg.length 63)
  (List.range k).map (fun i =>
    let last := i + 1 == k
    let hdr := (if i == 0 then 128 else 0) + (if last then 64 else 0) + i % 64
    let part := slice msg (63 * i) 63
    fit (if last then canLength (part.length + 1) else 64) (BitVec.ofNat 8 hdr :: part))

/-- The identifier of a frame to a partner's node (Table 3.8). -/
def Dev.canIdent (d : Dev) (node : Nat) : Nat :=
  bits (d.cn P.ctl_can_id_base 0) 12 17 * 2 ^ 12 + 2 ^ 11 + node % 64 * 2 ^ 5 + b2n d.pair.drag * 2 ^ 4

/-- Whether a CAN FD controller takes part in its bus: enabled and not bus-off (R71). -/
def Dev.canOn (d : Dev) (ctl : Nat) : Bool := bit (d.cn P.ctl_can_en 0) ctl && (d.ctl.can.getD ctl {}).state != 2

/-- A CAN FD controller sends a message to a node (R46, R47); after a takeover it first waits for 11 recessive bits (R350). -/
def Dev.sendCan (d : Dev) (ctl node : Nat) (b : Bytes) : Dev :=
  if d.canOn ctl then
    let d := if bit d.pair.joins (8 + ctl) then
        ({ d with pair := { d.pair with joins := setBit d.pair.joins (8 + ctl) false } } : Dev).say (.canJoin ctl 11)
      else d
    (canFrames b).foldl (fun d f => d.say (.can ctl (d.cn P.ctl_can_nom_kbps 0) (d.cn P.ctl_can_data_kbps 0) (d.canIdent node) f)) d
  else d

/-- A transport engine sends the frames of a message on a route (R44 to R47). -/
def Dev.frames (d : Dev) (r : Route) (b : Bytes) : Dev :=
  if r.transport < 2 then d.sendUdp r.transport r.addr r.port b
  else if r.transport < 4 then d.sendCan (r.transport - 2) r.addr b
  else d

/-- Send a message to a route: it is given to the transport's engine, which sends its frames. CAN transmit stays recessive while the pins
are held (R350). -/
def Dev.send (d : Dev) (r : Route) (j : Jorek) : Dev :=
  if (r.transport == 2 || r.transport == 3) && d.pinsHeld 6 then d else (d.say (.jorek r j)).frames r j.encode

/-- The session ID a slot carries (R50). -/
def Session.id (s : Session) (slot : Nat) : Nat := s.gen * 32 + slot

/-- Send a tagged message in an authenticated session under the next outbound SEQ (R40, R41). -/
def Dev.sendIn (d : Dev) (slot : Nat) (r : Route) (typ flags : Nat) (payload : Bytes) : Dev :=
  let s := d.slot slot
  let j : Jorek := ⟨1, typ, s.id slot, s.seqOut, flags, payload, []⟩
  let j : Jorek := { j with tag := j.tagOf s.keys.kD2p }
  (d.onSlot slot (fun s => { s with seqOut := s.seqOut + 1 })).send r j

/-- The reply prefix of Table 3.4. -/
def replyPrefix (status seq : Nat) : Bytes := leBytes 2 status ++ leBytes 2 0 ++ leBytes 4 seq

/-- An untagged reply (R40): OPEN replies and replies to unknown sessions. -/
def Dev.replyUntagged (d : Dev) (r : Route) (typ session seq status : Nat) (data : Bytes) : Dev :=
  d.send r ⟨1, typ, session, 0, 1, replyPrefix status seq ++ data, []⟩

/-- Record the reply of a handled request so that a retransmission is answered by it (R41). -/
def Session.recordReply (s : Session) (typ seq : Nat) (payload : Bytes) : Session :=
  { s with handled := s.handled.map (fun h =>
      if h.seq == seq && h.typ == typ && h.reply.isNone then { h with reply := some payload } else h) }

/-- The reply of a session's request (R43, R45): tagged, to the request's route, and kept for R41. Nothing is sent when the
session of that ID is gone. -/
def Dev.replyTo (d : Dev) (slot session : Nat) (r : Route) (typ seq status : Nat) (data : Bytes) : Dev :=
  let s := d.slot slot
  if s.state == .open && s.id slot == session then
    let payload := replyPrefix status seq ++ data
    (d.onSlot slot (fun s => s.recordReply typ seq payload)).sendIn slot r (typ) 3 payload
  else d

/-- The slot a session ID names (R50). -/
def slotOf (session : Nat) : Nat := session % 32

/-- Reply to a request that was taken from a mailbox. -/
def Dev.reply (d : Dev) (m : Msg) (status : Nat) (data : Bytes) : Dev :=
  d.replyTo (slotOf m.j.session) m.j.session m.route m.j.typ m.j.seq status data

/-- A rejection: the reply holds only the prefix (R43). -/
def Dev.reject (d : Dev) (m : Msg) (status : Nat) : Dev := d.reply m status []

/-- Keep a reply for the first message window to come (R69, R90). -/
def Dev.hold (d : Dev) (h : HeldReply) : Dev := { d with ctl := { d.ctl with held := d.ctl.held ++ [h] } }

/-- The held reply that will answer a message. -/
def Msg.held (m : Msg) (status : Nat) (data : Bytes) : HeldReply :=
  ⟨slotOf m.j.session, m.j.session, m.j.typ, m.j.seq, m.route, status, data⟩

/-! ## Modes (R428) -/

/-- The code of a mode (Table 19.1). -/
def Mode.code : Mode → Nat
  | .reset => 0 | .boot => 1 | .provisioning => 2 | .autonomous => 3 | .run => 4 | .degraded => 5
  | .standby => 6 | .takeover => 7 | .changeover => 8 | .banked => 9 | .maintenance => 10 | .latched => 11

/-- Whether the firmware's controllers run now (R20, R22): no halt, and a mode in which firmware runs. -/
def Dev.fwRuns (d : Dev) : Bool := d.flt.halted.isNone && d.pwr.mode != .reset && d.pwr.mode != .banked && d.pwr.booted && !d.pwr.noFirmware

/-- Ask for a mode transition by its cause number (Table 19.2); it takes place at a heat boundary (R429). -/
def Dev.askMode (d : Dev) (cause : Nat) : Dev :=
  if has d.pwr.asked cause then d else { d with pwr := { d.pwr with asked := d.pwr.asked ++ [cause] } }

end Sys2Proof.Machine
end

