-- ==== Sys2Proof/Machine/Faults.lean ====
section
/-!
DEFINITION. Detecting a fault (chapter 20): its record, its event, FAULT_N and the yield path. The reactions of Table 20.1 that act
on another block stand with that block's commands.
-/

namespace Sys2Proof.Machine

/-- Set a bit of `dev.degraded_causes` (Table 19.8); the mode follows at a boundary (R429). -/
def Dev.degrade (d : Dev) (b : Nat) : Dev :=
  d.setSN P.dev_degraded_causes 0 (setBit (d.sn P.dev_degraded_causes 0) b true)

/-- Clear a bit of `dev.degraded_causes`. -/
def Dev.undegrade (d : Dev) (b : Nat) : Dev :=
  d.setSN P.dev_degraded_causes 0 (setBit (d.sn P.dev_degraded_causes 0) b false)

/-- `flt.pin_mask`: bits 15, 16, 18 and 19 read 1 (Table 20.3). -/
def Dev.pinMask (d : Dev) : Nat := [15, 16, 18, 19].foldl (fun m i => setBit m i true) (d.cn P.flt_pin_mask 0)

/-- Whether FAULT_N is asserted whatever the mask (R463): Latched, or a start that cannot complete. -/
def Dev.pinByMode (d : Dev) : Bool := d.pwr.mode == .latched || d.pwr.mode == .reset || d.flt.active.any (fun a => a.1 == 19)

/-- Whether the unit is active and mirrored with a ready standby, with the fault's bit in `flt.yield_mask` (R457, R459). -/
def Dev.yields (d : Dev) (k : Nat) : Bool :=
  d.pair.role == .active && d.pair.mirrored && d.pair.ready && bit (d.cn P.flt_yield_mask 0) k

/-- The reaction code of a fault (0x0F10, Table 20.4) from Table 20.1. -/
def Dev.reaction (d : Dev) (k : Nat) : Nat :=
  if d.yields k then 4
  else if has [0, 9, 17] k then 0
  else if has [1, 2, 3, 7, 8, 10] k then 1
  else if has [12, 13] k then 2
  else if has [4, 5, 6] k then (if d.cn P.flt_warm_policy 0 == 1 && d.pair.role == .single then 5 else 3)
  else if k == 11 then 5
  else if k == 19 then 0
  else 6

/-- A 24-byte record of `flt.log`. -/
def faultRecord (n : Now) (k reaction inst : Nat) (detail : Bytes) : Bytes :=
  n.stamp ++ leBytes 1 k ++ leBytes 1 reaction ++ leBytes 2 inst ++ fit 8 detail

/-- The faults that assert FAULT_N now, as a mask. -/
def Faults.asserting (f : Faults) : Nat := maskOf f.pinBy

/-- FAULT_N is asserted (R463); 0x0F12 when it changes. -/
def Dev.pinAssert (d : Dev) (n : Now) : Dev :=
  if d.flt.pin then d
  else
    let d : Dev := { d with flt := { d.flt with pin := true, pinAt := n.abs } }
    d.raise n 0x0F12 whole (leBytes 1 0 ++ leBytes 8 d.flt.asserting)

/-- The yield of a paired unit (R459 step 1): PAIR_ALIVE_OUT stops and OWN_OUT is forced low. -/
def Dev.faultYield (d : Dev) : Dev :=
  { d with pair := { d.pair with forcedLow := true, ownOut := false, expired := true } }

/-- One occurrence of a fault (R457): `flt.counts`, `flt.log`, `flt.latched`; active for the heat, or until cleared when
`lasting`; 0x0F10 at most once per number and heat; FAULT_N as R463; the yield of R459. -/
def Dev.fault (d : Dev) (n : Now) (k inst : Nat) (detail : Bytes) (lasting : Bool) : Dev :=
  let r := d.reaction k
  let told := d.flt.told.any (fun t => t.1 == k && t.2 == n.heat)
  let pins := bit d.pinMask k || k == 17
  let yields := d.yields k
  let f := d.flt
  let f : Faults := { f with
    counts := modAt f.counts k (fun c => sat 32 (c + 1))
    log := (faultRecord n k r inst detail :: f.log).take 32
    active := if lasting && !f.active.any (fun a => a.1 == k) then f.active ++ [(k, n.heat)] else f.active
    moment := if lasting || has f.moment k then f.moment else f.moment ++ [k]
    told := if told then f.told else (k, n.heat) :: f.told.filter (fun t => t.1 != k)
    pinBy := if pins && !has f.pinBy k then f.pinBy ++ [k] else f.pinBy }
  let d : Dev := { d with flt := f }
  let d := d.setSN P.flt_latched 0 (setBit (d.sn P.flt_latched 0) k true)
  let d := if told then d
    else d.raise n 0x0F10 k (leBytes 1 r ++ leBytes 1 0 ++ leBytes 2 inst ++ fit 8 detail)
  let d := if pins then d.pinAssert n else d
  if yields then d.faultYield else d

/-- A lasting fault's condition ends: 0x0F11 with its duration (Table 20.4). -/
def Dev.faultEnds (d : Dev) (n : Now) (k : Nat) : Dev :=
  match d.flt.active.find? (fun a => a.1 == k) with
  | none => d
  | some a =>
    let d : Dev := { d with flt := { d.flt with active := d.flt.active.filter (fun a => a.1 != k) } }
    d.raise n 0x0F11 k (leBytes 4 (n.heat - a.2))

/-- Whether a fault is active (R457). -/
def Faults.isActive (f : Faults) (k : Nat) : Bool := f.active.any (fun a => a.1 == k) || has f.moment k

/-- The faults of one heat become inactive at the boundary (R457). -/
def Dev.endMoments (d : Dev) (n : Now) : Dev :=
  let was := d.flt.moment
  let d : Dev := { d with flt := { d.flt with moment := [] } }
  was.foldl (fun d k => d.raise n 0x0F11 k (leBytes 4 1)) d

/-- FAULT_N is released (R464): 0x0F12. -/
def Dev.pinRelease (d : Dev) (n : Now) : Dev :=
  let by_ := d.flt.asserting
  let d : Dev := { d with flt := { d.flt with pin := false, pinBy := [], clearAsk := false } }
  d.raise n 0x0F12 whole (leBytes 1 1 ++ leBytes 8 by_)

/-- Whether the shortest assertion of FAULT_N is over (R464). -/
def Dev.pinMinOver (d : Dev) (n : Now) : Bool := decide (d.flt.pinAt + d.cn P.flt_pin_min_us 0 * 800 ≤ n.abs)

/-- FAULT_N at a boundary (R464): a clear takes effect; the pin is released when its condition holds. A pin that only a mode holds (R463)
is released with it. -/
def Dev.pinBoundary (d : Dev) (n : Now) : Dev :=
  let d := match d.flt.clear with
    | some m =>
      let named := setBits 20 m
      let d := named.foldl (fun d k => d.setSN P.flt_latched 0 (setBit (d.sn P.flt_latched 0) k false)) d
      { d with flt := { d.flt with clear := none, clearAsk := true } }
    | none => d
  if !d.flt.pin then d
  else if d.pinByMode || d.flt.pinBy.any d.flt.isActive || !d.pinMinOver n then d
  else if d.cn P.flt_pin_latch 0 == 0 || d.flt.pinBy.isEmpty || (d.flt.clearAsk && d.flt.pinBy.all (fun k => !bit (d.sn P.flt_latched 0) k)) then
    d.pinRelease n
  else d

/-- FLT_CLEAR (R464): 0x8F02 when a named fault is active; the mask's bits above 19 are reserved and ignored (R6, R465). -/
def handleFltClear (d : Dev) (m : Msg) : Dev :=
  let mask := rd m.j.payload 0 8
  if m.j.payload.length != 8 then d.reject m 0x8206
  else if (setBits 20 mask).any d.flt.isActive then d.reject m 0x8F02
  else
    let named := mask % 2 ^ 20
    let d : Dev := { d with flt := { d.flt with clear := some (maskOf (setBits 20 ((d.flt.clear.getD 0)) ++ setBits 20 named)) } }
    d.reply m 0 []

/-- `flt.active` as a mask. -/
def Dev.activeMask (d : Dev) : Nat := maskOf ((List.range 20).filter d.flt.isActive)

end Sys2Proof.Machine
end

