-- ==== Sys2Proof/Machine/Clocks.lean ====
section
/-!
DEFINITION. Clock synthesis (chapter 13): cupolas, the reference, ladles, CLKOUT and FSYNC outputs. A rotation rate is an integer in
units of 2⁻⁴⁸ of f_c, which is ROT with its 16 fraction bits (R285).
-/

namespace Sys2Proof.Machine

/-! ## Access -/

/-- Cupola `k`. -/
def Dev.cup (d : Dev) (k : Nat) : Cupola := d.clk.cups.getD k {}

/-- Change cupola `k`. -/
def Dev.onCup (d : Dev) (k : Nat) (f : Cupola → Cupola) : Dev := { d with clk := { d.clk with cups := modAt d.clk.cups k f } }

/-- Change the reference monitor. -/
def Dev.onRef (d : Dev) (f : RefMon → RefMon) : Dev := { d with clk := { d.clk with ref := f d.clk.ref } }

/-- Ladle `l`. -/
def Dev.ladle (d : Dev) (l : Nat) : Ladle := d.clk.ladles.getD l {}

/-- Change ladle `l`. -/
def Dev.onLadle (d : Dev) (l : Nat) (f : Ladle → Ladle) : Dev :=
  { d with clk := { d.clk with ladles := modAt d.clk.ladles l f } }

/-! ## Ladle arithmetic (R285, R288, R289) -/

/-- ROT's scale: 2³² with 16 fraction bits. -/
abbrev rotOne : Nat := 2 ^ 48

/-- f_c of a divider N in Hz: N × 25 MHz ÷ 4 (R275). -/
def fcOf (n : Nat) : Nat := n * 6250000

/-- f_c of the cupola that a ladle takes. -/
def Dev.fc (d : Dev) (l : Nat) : Nat := fcOf (d.cup (d.ln P.ladle_cupola l)).n

/-- The rotation that gives `hz` from f_c through divider `dv` (R285). -/
def rotFor (fc hz dv : Nat) : Int := (2 * ((hz * dv : Nat) - (fc : Int)) * rotOne + fc) / (2 * fc : Nat)

/-- The divider that minimises |ROT_base| (R285). -/
def bestDiv (fc hz : Nat) : Nat :=
  let a := max 4 (min 4096 (fc / max hz 1))
  let b := min 4096 (a + 1)
  if (rotFor fc hz b).natAbs < (rotFor fc hz a).natAbs then b else a

/-- The frequency of a rotation and divider, in Hz, to the nearest. -/
def hzOf (fc dv : Nat) (rot : Int) : Nat := roundDiv (fc * ((rotOne : Int) + rot).toNat) (rotOne * max dv 1)

/-- A spread profile's segments: SLOPE signed, LENGTH (R289). -/
def profSegs (b : Bytes) : List (Int × Nat) :=
  (List.range (b.length / 8)).map (fun i => (signed 32 (rd b (8 * i) 4), rd b (8 * i + 4) 4))

/-- The length of a profile's loop in core cycles. -/
def profLoop (l : List (Int × Nat)) : Nat := (l.map (·.2)).sum

/-- ROT_ssc `t` cycles into a loop. -/
def sscWalk : List (Int × Nat) → Nat → Int → Int
  | [], _, acc => acc
  | (s, n) :: l, t, acc => if t ≤ n then acc + s * t else sscWalk l (t - n) (acc + s * n)

/-- The mean of ROT_ssc over a loop. -/
def sscMean : List (Int × Nat) → Int → Int → Int
  | [], _, sum => sum
  | (s, n) :: l, acc, sum => sscMean l (acc + s * n) (sum + acc * n + s * n * n / 2)

/-- ROT_ssc of a ladle at an instant. -/
def Ladle.ssc (l : Ladle) (t : Nat) : Int :=
  let p := profSegs l.profile
  if profLoop p == 0 then 0 else l.ssc0 + sscWalk p ((t - l.profAt) % profLoop p) 0

/-- The present frequency of a ladle without its spread, in Hz. -/
def Dev.ladleHz (d : Dev) (i : Nat) : Nat :=
  let l := d.ladle i
  if !l.on then 0
  else if l.dividing then roundDiv (d.fc i) (max l.d 1)
  else roundDiv (hzOf (d.fc i) l.d l.base * ((1000000000 : Int) + l.comp).toNat) 1000000000

/-- A ladle's mean frequency over the last heat, with its spread (`ladle.status`): its frequency moves linearly within a heat (R288). -/
def Dev.ladleMean (d : Dev) (i : Nat) : Nat :=
  let l := d.ladle i
  let p := profSegs l.profile
  let hz := (l.lastHz + d.ladleHz i) / 2
  if !l.on then 0
  else if l.dividing || profLoop p == 0 then hz
  else hz - (hzOf (d.fc i) l.d l.base - hzOf (d.fc i) l.d (l.base + sscMean p 0 0 / profLoop p))

/-- Whether ladle `i` clocks a transmit port (R286). -/
def Dev.portLadle (d : Dev) (i : Nat) : Bool := decide (i < d.nTx)

/-- The frequency the settings give ladle `i`: the pixel clock or the lane clock of its port, or `ladle.freq_hz` (R110, R286);
0 is off. -/
def Dev.ladleWant (d : Dev) (i : Nat) : Nat :=
  if d.portLadle i then
    match d.ln P.txp_source i with
    | 1 => if d.ln P.tg_enable i == 1 then d.ln P.tg_pclk_hz i else 0
    | 2 => if d.cn P.txp_enable i == 1 then d.ln P.txp_lane_kbps i * 125 else 0
    | _ => 0
  else d.cn P.ladle_freq_hz i

/-! ## Running the ladles -/

/-- A ladle runs at a frequency at once: at its start, or in a reseat's hold (R246, R286). -/
def Dev.ladleSet (d : Dev) (i hz : Nat) : Dev :=
  let fc := d.fc i
  if hz == 0 || fc == 0 then d.onLadle i (fun l => { l with on := false, gliding := none, waiting := none, comp := 0, profile := [], nextProf := none, faulted := false, dividing := false, synced := false })
  else if bit (d.cn P.ladle_mode i) 0 then
    d.onLadle i (fun l => { l with on := true, dividing := true, cup := d.ln P.ladle_cupola i, restart := false, lastHz := hz, d := d.cn P.ladle_div i, base := 0, target := hz, gliding := none
                                   waiting := none, comp := 0, profile := [], nextProf := none })
  else
    let dv := bestDiv fc hz
    d.onLadle i (fun l => { l with on := true, dividing := false, cup := d.ln P.ladle_cupola i, restart := false, lastHz := hz, faulted := false, d := dv, base := rotFor fc hz dv, target := hz
                                   gliding := none, waiting := none, comp := 0 })

/-- The step of a glide per heat, in 2⁻⁴⁸ of f_c: f₀ × slew × 10⁻⁶ Hz (R288). -/
def Dev.glideStep (d : Dev) (i f0 : Nat) : Nat :=
  max 1 (roundDiv ((d.ladle i).d * f0 * d.cn P.ladle_slew_ppm_per_heat i * rotOne) (1000000 * max (d.fc i) 1))

/-- The most heats a glide lasts (R244). -/
def Dev.glideHeats (d : Dev) (i f0 hz : Nat) : Nat :=
  ceilDiv ((hz - f0 + (f0 - hz)) * 1000000) (max 1 (f0 * d.cn P.ladle_slew_ppm_per_heat i))

/-- A glide starts from the present frequency (R244, R245, R288): counted; 0x0805 for a pixel clock. -/
def Dev.glideStart (d : Dev) (n : Now) (i hz : Nat) : Dev :=
  let f0 := d.ladleHz i
  let bound := d.glideHeats i f0 hz
  let d := d.onLadle i (fun l => { l with gliding := some f0, target := hz, waiting := none })
  let d := d.bumpField P.ladle_stats i 32 16 1
  if d.portLadle i then d.raise n 0x0805 i (leBytes 4 hz ++ leBytes 4 bound) else d

/-- The rotation a ladle's target asks for with its present divider. -/
def Dev.targetRot (d : Dev) (i : Nat) : Int := rotFor (d.fc i) (d.ladle i).target (d.ladle i).d

/-- Move toward a goal by at most `step`. -/
def approach (cur goal : Int) (step : Nat) : Int :=
  if cur < goal then min goal (cur + step) else max goal (cur - step)

/-- One heat of a ladle's glide and of its relock compensation (R283, R288). -/
def Dev.ladleHeat (d : Dev) (i : Nat) : Dev :=
  let l := d.ladle i
  let goal := d.targetRot i
  let d := d.onLadle i (fun l => { l with lastHz := d.ladleHz i })
  let d := match l.gliding with
    | some f0 => let s := d.glideStep i f0
                 d.onLadle i (fun l => { l with base := approach l.base goal s })
    | none => d
  d.onLadle i (fun l => { l with comp := approach l.comp 0 (d.cn P.cupola_glide_ppb_per_heat 0) })

/-- The spread profile follows its settings at a boundary (R289): it starts with ROT_ssc 0, or waits for the end of the running
loop. -/
def Dev.profileFollow (d : Dev) (n : Now) (i : Nat) : Dev :=
  let want := if bit (d.cn P.ladle_mode i) 1 && !(d.ladle i).dividing then d.cb P.ladle_profile i else []
  d.onLadle i (fun l =>
    if !l.on then { l with profile := [], nextProf := none }
    else if l.profile == want then { l with nextProf := none }
    else if l.profile.isEmpty then { l with profile := want, profAt := n.abs, ssc0 := 0, nextProf := none }
    else { l with nextProf := some want })

/-- LADLE_PROFILE_LOOP_END (R289): the running loop has ended with ROT_ssc back at 0; a waiting profile replaces it there. -/
def profileLoopEnd (d : Dev) (n : Now) (i : Nat) : Dev :=
  d.onLadle i (fun l =>
    let loop := max 1 (profLoop (profSegs l.profile))
    let ended := l.profAt + (n.abs - l.profAt) / loop * loop
    if l.profile.isEmpty || ended == l.profAt then l
    else match l.nextProf with
      | some p => { l with profile := p, profAt := ended, ssc0 := 0, nextProf := none }
      | none => { l with profAt := ended, ssc0 := 0 })

/-- A ladle follows its settings at a heat boundary (R286, R288, R290): start, stop, divider mode, glide; one without a running output that is given
another cupola stops until the next boundary. A port ladle's pixel clock glides when its latch line has transferred it (`waiting`, R244). -/
def Dev.ladleFollow (d : Dev) (n : Now) (i : Nat) : Dev :=
  let l := d.ladle i
  let want := d.ladleWant i
  let divMode := bit (d.cn P.ladle_mode i) 0
  let d :=
    if l.on && l.cup != d.ln P.ladle_cupola i then (d.ladleSet i 0).onLadle i (fun l => { l with restart := true })
    else if l.restart then d
    else if !l.on then (if want == 0 || d.portLadle i && d.ln P.txp_source i == 1 then d else d.ladleSet i want)
    else if want == 0 && !d.portLadle i then d.ladleSet i 0
    else if divMode && !(l.dividing && l.d == d.cn P.ladle_div i) then d.ladleSet i want
    else if !divMode && l.dividing && !l.faulted then d.ladleSet i want
    else match l.waiting with
      | some hz => d.glideStart n i hz
      | none =>
        if !d.portLadle i && !l.dividing && want != l.target then d.glideStart n i want else d
  d.profileFollow n i

/-- Every ladle follows its settings. -/
def Dev.ladlesFollow (d : Dev) (n : Now) : Dev := (List.range 20).foldl (fun d i => d.ladleFollow n i) d

/-- One heat of every ladle. -/
def Dev.ladlesHeat (d : Dev) : Dev := (List.range 20).foldl (fun d i => d.ladleHeat i) d

/-- ROT_base with another divider at the same output period (R285). -/
def rebase (base : Int) (dv dv' : Nat) : Int := ((rotOne : Int) + base) * dv' / (max dv 1 : Nat) - rotOne

/-- LADLE_RECENTRE (R285): with |ROT_base| above 12.5 % the ladle takes D ± 1 when that makes it smaller. -/
def ladleRecentre (d : Dev) (i : Nat) : Dev :=
  let l := d.ladle i
  let dv := if l.base < 0 then l.d + 1 else l.d - 1
  if l.on && !l.dividing && decide (2 ^ 45 < l.base.natAbs) && decide (4 ≤ dv) && decide (dv ≤ 4096)
      && decide ((rebase l.base l.d dv).natAbs < l.base.natAbs) then
    (d.onLadle i (fun l => { l with d := dv, base := rebase l.base l.d dv })).bumpField P.ladle_stats i 0 32 1
  else d

/-- ROT_base at an instant: within a heat a glide moves it linearly (R288). -/
def Dev.rotBase (d : Dev) (i : Nat) (n : Now) : Int :=
  let l := d.ladle i
  match l.gliding with
  | some f0 => approach l.base (d.targetRot i) (d.glideStep i f0 * n.cycle / heatCycles)
  | none => l.base

/-- The divider fallback of a rotator fault (R290): the nearest D; 0x0A07. -/
def rotatorFallback (d : Dev) (n : Now) (i : Nat) : Dev :=
  let l := d.ladle i
  if !l.on || l.dividing then d
  else
    let rot := d.rotBase i n + l.ssc n.abs
    let dv := max 4 (min 4096 (roundDiv (d.fc i) (max 1 (d.ladleHz i))))
    let ppm := rot.natAbs * 1000000 / rotOne
    let d := d.onLadle i (fun l => { l with dividing := true, faulted := true, d := dv, base := 0, gliding := none, comp := 0
                                            profile := [], nextProf := none })
    d.raise n 0x0A07 i (leBytes 2 dv ++ leBytes 2 ppm)

/-- The state code of a ladle (`ladle.status` bits 47:45). -/
def Ladle.code (l : Ladle) : Nat :=
  if !l.on then 0 else if l.faulted then 5 else if l.dividing then 4 else if l.comp != 0 then 3
  else if l.gliding.isSome then 2 else 1

/-! ## Cupolas -/

/-- The code of a cupola state (Table 13.3). -/
def CupState.code : CupState → Nat
  | .off => 0 | .search => 1 | .acquire => 2 | .locked => 3 | .flywheel => 4 | .holdover => 5

/-- A cupola begins on divider N: Acquire with a stored band, else Search (R276, Table 13.1). -/
def Cupola.begin_ (c : Cupola) (t nDiv : Nat) : Cupola :=
  match c.mem.find? (fun b => b.n == nDiv) with
  | some b => { c with state := .acquire, since := t, begun := t, n := nDiv, band := b.band, fromMem := true
                       mem := b :: c.mem.filter (fun b => b.n != nDiv) }
  | none => { c with state := .search, since := t, begun := t, n := nDiv, fromMem := false }

/-- Store a band, most recently used first, replacing the least recently used (R276). -/
def Cupola.store (c : Cupola) (band : Nat) : Cupola :=
  { c with mem := (({ n := c.n, band := band } : Band) :: c.mem.filter (fun b => b.n != c.n)).take 16 }

/-- The divider in force: 384 for cupola 0 (R275). -/
def Dev.cupN (d : Dev) (k : Nat) : Nat := if k == 0 then 384 else d.ln P.cupola_n k

/-- A cupola relocks on its live divider (R246, R279). -/
def Dev.cupRelock (d : Dev) (n : Now) (k : Nat) : Dev :=
  if (d.cup k).n == d.cupN k || (d.cup k).state == .off then d else d.onCup k (fun c => c.begin_ n.abs (d.cupN k))

/-- Cupolas follow `cupola.enable` at a boundary (R275, R279); a cupola whose divider changed while it clocks no running output
relocks. -/
def Dev.cupsFollow (d : Dev) (n : Now) : Dev :=
  [1, 2, 3].foldl (fun d k =>
    let c := d.cup k
    if d.cn P.cupola_enable k == 0 then
      (if c.state == .off then d else d.onCup k (fun c => { c with state := .off, since := n.abs }))
    else if c.state == .off then d.onCup k (fun c => c.begin_ n.abs (d.cupN k))
    else d.cupRelock n k) d

/-- BAND_SEARCH_DONE (R276): the band is stored; Acquire. -/
def bandFound (d : Dev) (n : Now) (k band : Nat) : Dev :=
  if (d.cup k).state != .search then d
  else d.onCup k (fun c => { c.store (band % 64) with state := .acquire, since := n.abs, band := band % 64, fromMem := false })

/-- The enabled cupolas. -/
def Dev.enabledCups (d : Dev) : List Nat := (List.range 4).filter (fun k => k == 0 || d.cn P.cupola_enable k == 1)

/-- Whether every enabled cupola is locked. -/
def Dev.allLocked (d : Dev) : Bool := d.enabledCups.all (fun k => (d.cup k).state == .locked)

/-- The core cycles of one reference period (R280). -/
abbrev refCycles : Nat := 32

/-- Whether a cupola has been acquiring for the `cupola.lock_n` periods that a lock takes (R277). -/
def Dev.lockDue (d : Dev) (n : Now) (k : Nat) : Bool := decide ((d.cup k).since + refCycles * d.cn P.cupola_lock_n k ≤ n.abs)

/-- CUPOLA_LOCK (R277): Locked, 0x0A05; the hold DAC's code is recorded (R278); 0x0A02 when a relock is complete (R283). -/
def cupolaLocked (d : Dev) (n : Now) (k code : Nat) : Dev :=
  let c := d.cup k
  if c.state != .acquire then d
  else
    let d := d.onCup k (fun c => { c with state := .locked, since := n.abs, holdCode := code, qualified := code })
    let d := d.raise n 0x0A05 k (leBytes 1 c.band ++ leBytes 1 (b2n c.fromMem) ++ leBytes 2 ((n.abs - c.begun) / 800))
    if d.clk.ref.relocking && d.allLocked then
      (d.onRef (fun r => { r with relocking := false })).raise n 0x0A02 whole
        (leBytes 4 d.clk.ref.lastMs ++ leBytes 4 (unsigned 32 d.clk.ref.err))
    else d

/-- CUPOLA_LOCK_TIMEOUT (R276): a stored band that has not locked within 15 µs and `cupola.lock_n` periods is discarded; Search. -/
def cupolaTimeout (d : Dev) (n : Now) (k : Nat) : Dev :=
  let c := d.cup k
  if c.state == .acquire && decide (c.since + 12000 + refCycles * d.cn P.cupola_lock_n k ≤ n.abs) then
    d.onCup k (fun c => { c with mem := c.mem.filter (fun b => b.n != c.n), state := .search, since := n.abs, fromMem := false })
  else d

/-- Loss of lock on a qualified reference (R277): 0x0A06; Search. -/
def cupolaLost (d : Dev) (n : Now) (k : Nat) (err : Int) : Dev :=
  let d := d.onCup k (fun c => { c with state := .search, since := n.abs, begun := n.abs, fromMem := false
                                        losses := sat 16 (c.losses + 1) })
  d.raise n 0x0A06 k (leBytes 2 (unsigned 16 err))

/-! ## The reference (R280 to R284) -/

/-- REFERENCE_GLITCH (R280): counted, also for this heat's 0x0A03; locked cupolas enter Flywheel. -/
def refGlitch (d : Dev) (n : Now) : Dev :=
  let d := d.onRef (fun r => { r with glitches := r.glitches.note n [], lastGlitch := n.abs })
  let d := d.bumpField P.cupola_ref_stats 0 0 32 1
  { d with clk := { d.clk with cups := d.clk.cups.map (fun (c : Cupola) =>
    if c.state == .locked then { c with state := .flywheel, since := n.abs } else c) } }

/-- 0x0A03 for the heat that ends (R280). -/
def Dev.tellGlitches (d : Dev) : Dev :=
  let t := d.clk.ref.glitches
  (d.onRef (fun r => { r with glitches := {} })).tell t 0x0A03 whole t.bytes

/-- FLYWHEEL_RECOVER (R278): after 8 good periods flywheeling cupolas return through Acquire with the stored band. -/
def flywheelRecover (d : Dev) (n : Now) : Dev :=
  if n.abs < d.clk.ref.lastGlitch + 8 * refCycles then d
  else { d with clk := { d.clk with cups := d.clk.cups.map (fun (c : Cupola) =>
      if c.state == .flywheel then { c with state := .acquire, since := n.abs, begun := n.abs } else c) } }

/-- Whether CLKOUT `i` takes the internal clock (R293). -/
def Dev.clkSub (d : Dev) (i : Nat) : Bool :=
  d.clk.ref.lost && d.cn P.clkout_source i == 0x20 && bit (d.cn P.clkout_ctrl i) 2 && d.cn P.clkout_format i != 0

/-- CLKOUT outputs follow their settings and the reference (R292, R293); 0x0A09 when a substitution begins or ends. -/
def Dev.clkoutsFollow (d : Dev) (n : Now) : Dev :=
  (List.range 6).foldl (fun d i =>
    let was := (d.clk.clkout.getD i {}).sub
    let sub := d.clkSub i
    let d : Dev := { d with clk := { d.clk with clkout := modAt d.clk.clkout i (fun _ =>
      { format := d.cn P.clkout_format i, source := d.cn P.clkout_source i, div := d.cn P.clkout_div i, sub := sub }) } }
    if was == sub then d else d.raise n 0x0A09 i (leBytes 1 (b2n sub))) d

/-- A CLKOUT's output frequency (`clkout.status`). -/
def Dev.clkoutHz (d : Dev) (i : Nat) : Nat :=
  let c := d.clk.clkout.getD i {}
  if c.format == 0 || d.pwr.mode == .banked || d.pinsHeld 1 then 0
  else if c.source == 0x20 then (if d.clk.ref.lost && !c.sub then 0 else 25000000 / max c.div 1)
  else d.ladleHz c.source / max c.div 1

/-- Whether a glitch run is over 64 periods: a cupola has been in Flywheel for them (R281). -/
def Dev.glitchRun (d : Dev) (n : Now) : Bool :=
  d.clk.cups.any (fun (c : Cupola) => c.state == .flywheel && decide (c.since + 64 * refCycles ≤ n.abs))

/-- REFERENCE_LOSS (R281): every enabled cupola enters Holdover, for cause 2 with the qualified code; 0x0A01. -/
def refLoss (d : Dev) (n : Now) (cause : Nat) : Dev :=
  if d.clk.ref.lost || !has [1, 2, 3] cause || (cause == 3 && !d.glitchRun n) then d
  else
    let d := d.onRef (fun r => { r with lost := true, cause := cause, since := n.abs, limitTold := false, relockAt := none })
    let d := d.bumpField P.cupola_ref_stats 0 32 16 1
    let d : Dev := { d with clk := { d.clk with cups := d.clk.cups.map (fun (c : Cupola) =>
      if c.state == .off then c
      else { c with state := .holdover, since := n.abs, holdCode := if cause == 2 then c.qualified else c.holdCode }) } }
    (d.raise n 0x0A01 whole (leBytes 1 cause)).clkoutsFollow n

/-- The holdover's length in ms at an instant. -/
def Dev.holdoverMs (d : Dev) (t : Nat) : Nat := (t - d.clk.ref.since) / msCycles

/-- HOLDOVER_LIMIT (R281): 0x0A04; Degraded. -/
def holdoverLimit (d : Dev) (n : Now) : Dev :=
  let r := d.clk.ref
  let ms := d.holdoverMs n.abs
  if r.lost && !r.limitTold && decide (d.cn P.cupola_holdover_limit_ms 0 ≤ ms) then
    ((d.onRef (fun r => { r with limitTold := true })).raise n 0x0A04 whole (leBytes 4 ms)).degrade 1
  else d

/-- The heat of a relock once the reference is qualified: the next boundary (R283), or one the peer can be told of (R284). -/
def Dev.relockHeat (d : Dev) (n : Now) : Nat :=
  if d.pair.role == .active && d.mor.up then n.heat + 3 else n.heat + 1

/-- Whether a window of re-qualification can be over (R282): `cupola.requal_cycles` periods since the loss and since the last
period outside 92–100 counts, and a count within ±200 ppm. -/
def Dev.requalDue (d : Dev) (n : Now) (e : Int) : Bool :=
  decide (max d.clk.ref.since d.clk.ref.lastGlitch + refCycles * d.cn P.cupola_requal_cycles 0 ≤ n.abs) && decide (e.natAbs ≤ 200000)

/-- REFERENCE_REQUALIFIED (R282): e is recorded; the relock is planned, but an aligned follower waits for RELOCK (R284). -/
def refRequalified (d : Dev) (n : Now) (e : Int) : Dev :=
  if !d.clk.ref.lost || d.clk.ref.relockAt.isSome || !d.requalDue n e then d
  else
    let at_ := d.relockHeat n
    let follower := d.pair.role == .standby && d.work.aligned && d.mor.up
    let d := d.onRef (fun r => { r with err := e, relockAt := if follower then none else some at_ })
    d.bumpField P.cupola_ref_stats 0 48 16 1

/-- The relock at its boundary (R283): enabled cupolas enter Acquire; ladles in rotation mode add a compensation of e. -/
def Dev.relock (d : Dev) (n : Now) : Dev :=
  if d.clk.ref.relockAt.any (fun h => decide (h ≤ n.heat)) then
    let ms := d.holdoverMs n.abs
    let d := d.onRef (fun r => { r with lost := false, relockAt := none, relocking := true, lastMs := ms })
    let e := d.clk.ref.err
    let d : Dev := { d with clk := { d.clk with
      cups := d.clk.cups.map (fun (c : Cupola) =>
        if c.state == .holdover then { c with state := .acquire, since := n.abs, begun := n.abs } else c)
      ladles := d.clk.ladles.map (fun (l : Ladle) => if l.on && !l.dividing then { l with comp := l.comp + e } else l) } }
    (d.undegrade 1).clkoutsFollow n
  else d

/-- The glides that latch lines asked for start at the first heat boundary that follows, a new one from the frequency reached (R244, R245). -/
def Dev.glidesDue (d : Dev) (n : Now) : Dev :=
  (List.range 16).foldl (fun d i =>
    match (d.ladle i).waiting with
    | some hz => if (d.ladle i).on && !(d.ladle i).dividing then d.glideStart n i hz else d
    | none => d) d

/-- Ladles that stopped to change their cupola start from the new one (R286). -/
def Dev.ladlesRestart (d : Dev) (n : Now) : Dev :=
  (List.range 20).foldl (fun d i =>
    if (d.ladle i).restart then ((d.onLadle i (fun l => { l with restart := false })).ladleSet i (d.ladleWant i)).profileFollow n i else d) d

/-- The clocks' part of a heat boundary before commits transfer: relock, glides, restarts. -/
def Dev.clocksHeat (d : Dev) (n : Now) : Dev := (((d.ladlesHeat).relock n).glidesDue n).ladlesRestart n

/-- The clocks follow the committed settings at a boundary. -/
def Dev.clocksFollow (d : Dev) (n : Now) : Dev := ((d.cupsFollow n).ladlesFollow n).clkoutsFollow n

/-- Phase errors measured over the last heat (`cupola.phase_err`). -/
def Dev.phaseErrs (d : Dev) (l : List (Nat × Int × Nat)) : Dev :=
  l.foldl (fun d p => d.onCup p.1 (fun c => { c with err := unsigned 16 p.2.1 + (p.2.2 % 2 ^ 16) * 2 ^ 16 })) d

end Sys2Proof.Machine
end

