-- ==== Sys2Proof/Machine/Audio.lean ====
section
/-!
DEFINITION. Audio (chapter 14): serial ports, PDM inputs, the tundish, embedded audio, and the batch of each heat boundary.
-/

namespace Sys2Proof.Machine

/-! ## Access -/

/-- Serial port `i`. -/
def Dev.sap (d : Dev) (i : Nat) : Sap := d.aud.saps.getD i {}
/-- Change serial port `i`. -/
def Dev.onSap (d : Dev) (i : Nat) (f : Sap → Sap) : Dev := { d with aud := { d.aud with saps := modAt d.aud.saps i f } }
/-- PDM input `i`. -/
def Dev.pdm (d : Dev) (i : Nat) : Pdm := d.aud.pdms.getD i {}
/-- Change PDM input `i`. -/
def Dev.onPdm (d : Dev) (i : Nat) (f : Pdm → Pdm) : Dev := { d with aud := { d.aud with pdms := modAt d.aud.pdms i f } }
/-- Tundish instance `i`. -/
def Dev.tun (d : Dev) (i : Nat) : Tundish := d.aud.tuns.getD i {}
/-- Change tundish instance `i`. -/
def Dev.onTun (d : Dev) (i : Nat) (f : Tundish → Tundish) : Dev := { d with aud := { d.aud with tuns := modAt d.aud.tuns i f } }
/-- Embedded-audio instance `i`. -/
def Dev.eaud (d : Dev) (i : Nat) : Eaud := d.aud.eauds.getD i {}
/-- Change embedded-audio instance `i`. -/
def Dev.onEaud (d : Dev) (i : Nat) (f : Eaud → Eaud) : Dev := { d with aud := { d.aud with eauds := modAt d.aud.eauds i f } }

/-! ## Queues (R311) -/

/-- Count one in a queue's tally. -/
def HeatTally.one (t : HeatTally) : HeatTally := { t with count := t.count + 1 }

/-- Write a frame into a queue of `cap` frames: a full queue drops it whole. -/
def AQueue.push (q : AQueue) (cap : Nat) (f : AFrame) : AQueue :=
  if q.q.length < cap then { q with q := q.q ++ [f] } else { q with beyond := q.beyond.one }

/-- Read a frame: an empty queue gives the last frame read, or a zero frame. -/
def AQueue.pop (q : AQueue) : AFrame × AQueue :=
  match q.q with
  | f :: l => (f, { q with q := l, last := some f })
  | [] => (q.last.getD {}, { q with under := q.under.one })

/-- A queue reset to empty. -/
def AQueue.emptied (q : AQueue) : AQueue := { q with q := [], last := none }

/-- Frames in a serial-port or tundish queue. -/
abbrev audioCap : Nat := 64

/-- Frames in an extractor or inserter queue of `c` channels: ⌊4,096 ÷ C⌋. -/
def eaudCap (c : Nat) : Nat := 4096 / max c 1

/-! ## Rates and domains (R301, R306, R313, R315) -/

/-- Bits of a frame of serial port `p`. -/
def Dev.sapBits (d : Dev) (p : Nat) : Nat := d.cn P.sap_slots p * d.cn P.sap_slot_bits p

/-- The bit clock of a port (R304). -/
def Dev.sapBclk (d : Dev) (p : Nat) : Nat := d.cn P.sap_rate_hz p * d.sapBits p

/-- A port in master mode. -/
def Dev.sapMaster (d : Dev) (p : Nat) : Bool := bit (d.cn P.sap_clocking p) 0

/-- R_q of a master port in 2⁻¹⁶ (R306). -/
def Dev.sapRq (d : Dev) (p : Nat) : Nat :=
  roundDiv (d.cn P.ladle_freq_hz (bits (d.cn P.sap_clocking p) 8 5) * 65536) (max 1 (d.sapBclk p))

/-- The sample rate of a PDM rate code (Table 14.9). -/
def pdmRate (code : Nat) : Nat := match code with | 0 => 16000 | 1 => 32000 | _ => 48000

/-- The PDM clock in Hz. -/
def Dev.pdmClk (d : Dev) (p : Nat) : Nat :=
  d.cn P.ladle_freq_hz (bits (d.cn P.pdm_clock p) 0 5) / max 1 (bits (d.cn P.pdm_clock p) 8 8)

/-- The decimation ratio of a PDM input. -/
def Dev.pdmRatio (d : Dev) (p : Nat) : Nat := d.pdmClk p / pdmRate (d.cn P.pdm_rate p)

/-- The rate of a rate code (R319); 0 for a reserved code. -/
def codeRate (c : Nat) : Nat :=
  [8000, 11025, 12000, 16000, 22050, 24000, 32000, 44100, 48000, 88200, 96000, 176400, 192000].getD c 0

/-- The domain of a serial port (Table 14.2). -/
def Dev.sapDomain (d : Dev) (p : Nat) : Domain :=
  if d.sapMaster p then .ladle (bits (d.cn P.sap_clocking p) 8 5) (d.sapRq p * d.sapBits p) else .slave p

/-- The domain of a PDM input. -/
def Dev.pdmDomain (d : Dev) (p : Nat) : Domain :=
  .ladle (bits (d.cn P.pdm_clock p) 0 5) (bits (d.cn P.pdm_clock p) 8 8 * d.pdmRatio p * 65536)

/-- The domain a tundish targets (R315). -/
def Dev.tunDst (d : Dev) (i : Nat) : Option Domain :=
  let v := d.cn P.tundish_dst i
  match bits v 12 4 with
  | 1 => some (d.sapDomain (bits v 0 4))
  | 2 => some (.ladle (bits v 0 5) (roundDiv (d.cn P.ladle_freq_hz (bits v 0 5) * 65536) (max 1 (codeRate (bits v 8 4)))))
  | _ => none

/-- The channel addresses of a map blob. -/
def mapAddrs (b : Bytes) : List Nat := (List.range (b.length / 2)).map (fun k => rd b (2 * k) 2)

/-- The source unit of a channel address (Table 14.1): its kind and unit. -/
def addrUnit (a : Nat) : Nat × Nat := (bits a 12 4, bits a 4 4)

/-- The domain of a channel address; none for silence. -/
def Dev.addrDomain (d : Dev) (a : Nat) : Option Domain :=
  let u := bits a 4 4
  match bits a 12 4 with
  | 1 => some (d.sapDomain u)
  | 2 => some (d.pdmDomain u)
  | 3 => d.tunDst u
  | 4 => some (.ext u)
  | _ => none

/-- The domain of a list of addresses: that of the first that is not silence. -/
def Dev.mapDomain (d : Dev) (l : List Nat) : Option Domain := l.findSome? d.addrDomain

/-- The nominal rate of a domain in Hz (R315). -/
def Dev.domainRate (d : Dev) : Domain → Nat
  | .ladle l dv => roundDiv (d.cn P.ladle_freq_hz l * 65536) (max 1 dv)
  | .slave p => d.cn P.sap_rate_hz p
  | .ext n => codeRate (bits (d.cn P.eaud_ctrl n) 32 4)

/-- Input addresses of a tundish. -/
def Dev.tunMap (d : Dev) (i : Nat) : List Nat := mapAddrs (d.cb P.tundish_map i)

/-- The nominal ratio r_out ÷ r_in of a tundish in 2⁻³². -/
def Dev.tunNominal (d : Dev) (i : Nat) : Nat :=
  match d.tunDst i, d.mapDomain (d.tunMap i) with
  | some o, some a => roundDiv (d.domainRate o * 2 ^ 32) (max 1 (d.domainRate a))
  | _, _ => 2 ^ 32

/-- A ratio in ppm from nominal, as 0x0B07 and 0x0B08 carry it. -/
def Dev.tunPpm (d : Dev) (i : Nat) : Nat :=
  let nom := max 1 (d.tunNominal i)
  unsigned 32 ((((d.tun i).ratio : Int) - nom) * 1000000 / nom)

/-! ## Samples (R305) -/

/-- A received slot as a 24-bit sample. -/
def slotIn (w v : Nat) : Nat :=
  if w == 16 then v % 2 ^ 16 * 256 else if w == 24 then v % 2 ^ 24 else v / 256 % 2 ^ 24

/-- A 24-bit sample as a transmitted slot. -/
def slotOut (w s : Nat) : Nat :=
  if w == 16 then unsigned 16 (min ((signed 24 s + 128) / 256) 32767)
  else if w == 24 then s % 2 ^ 24 else s % 2 ^ 24 * 256

/-- The frame a port receives from raw slots under the receive mask its frame began with (R310). -/
def Dev.sapFrame (d : Dev) (p : Nat) (slots : List Nat) (t : Nat) : AFrame :=
  { s := (List.range (d.cn P.sap_slots p)).map (fun k =>
      if bit (d.sap p).rxFrame k then slotIn (d.cn P.sap_slot_bits p) (slots.getD k 0) else 0), at_ := t }

/-- What a port sends for a queued frame (R305, R310): a disabled slot is zero, or high impedance. -/
def Dev.sapSlots (d : Dev) (p : Nat) (f : AFrame) : List (Option Nat) :=
  (List.range (d.cn P.sap_slots p)).map (fun k =>
    if bit (d.sap p).txMask k then some (slotOut (d.cn P.sap_slot_bits p) (f.s.getD k 0))
    else if d.cn P.sap_idle_slot p == 1 then none else some 0)

/-- A running port sends its next frame. -/
def Dev.sapSend (d : Dev) (p : Nat) : Dev :=
  let (f, q) := (d.sap p).tx.pop
  (d.onSap p (fun s => { s with tx := q })).say (.audio p (if d.pinsHeld 3 then (d.sapSlots p f).map (fun _ => none) else d.sapSlots p f))

/-! ## The wires of a serial port (Table 14.3, R306) -/

/-- The bits SAPn_DOUT carries in a frame, MSB first, one for each bit clock; none is high impedance. With a delay of one bit clock (I²S, or
TDM with bit 4), the last bit of the frame before comes first (`last`). -/
def Dev.sapWire (d : Dev) (p : Nat) (slots : List (Option Nat)) (last : Option Bool) : List (Option Bool) :=
  let w := d.cn P.sap_slot_bits p
  let fmt := d.cn P.sap_format p
  let l := slots.flatMap (fun s => (List.range w).map (fun k => s.map (fun v => bit v (w - 1 - k))))
  if bits fmt 0 2 == 0 || (bits fmt 0 2 == 2 && bit fmt 4) then (last :: l).take l.length else l

/-- The level of SAPn_FSYNC in each bit clock of a frame (Table 14.3); bit 3 inverts it. -/
def Dev.sapFsync (d : Dev) (p : Nat) : List Bool :=
  let w := d.cn P.sap_slot_bits p
  let fmt := d.cn P.sap_format p
  (List.range (d.sapBits p)).map (fun k =>
    let high : Bool := match bits fmt 0 2 with
      | 0 => decide (w ≤ k)
      | 1 => decide (k < w)
      | _ => decide (k < (if bit fmt 5 then w else 1))
    high != bit fmt 3)

/-- Whether data is driven on the falling edge of SAPn_BCLK and sampled on the rising one; bit 2 inverts both. -/
def Dev.sapFalling (d : Dev) (p : Nat) : Bool := !bit (d.cn P.sap_format p) 2

/-- The period of the `k`-th bit clock of a master port in ladle periods (R306): ⌊R_q⌋ or ⌈R_q⌉, from a first-order accumulator. -/
def Dev.sapPeriod (d : Dev) (p k : Nat) : Nat := (k + 1) * d.sapRq p / 65536 - k * d.sapRq p / 65536

/-- The frequency SAPn_MCLK sends (R306): f_L over its divider, in master or slave mode; none when it is off. -/
def Dev.sapMclk (d : Dev) (p : Nat) : Option Nat :=
  let c := d.cn P.sap_clocking p
  if bit c 1 && !d.pinsHeld 3 then some (d.ladleHz (bits c 8 5) / max 1 (bits c 16 8)) else none

/-! ## Serial ports -/

/-- Frames a transmit queue is primed with (R308): ⌈rate × 250 µs⌉ + 1. -/
def primeFrames (rate : Nat) : Nat := ceilDiv rate 4000 + 1

/-- A port restarts (R308): its queues are emptied, the transmit queue is primed; a master port is held for two frame periods at
the old rate; 0x0B01. -/
def Dev.sapRestart (d : Dev) (n : Now) (p cause : Nat) : Dev :=
  let old := (d.sap p).refRate
  let rate := d.cn P.sap_rate_hz p
  let hold := if (d.sap p).state == 0 || old == 0 then 0 else 2 * (80000000000 / old)
  let d := d.onSap p (fun s =>
    { state := 1, tx := { q := List.replicate (primeFrames rate) {} }, rxMask := s.rxMask, txMask := s.txMask, rxFrame := s.rxMask
      nextRx := s.nextRx, nextTx := s.nextTx
      holdTo := n.abs + (if d.sapMaster p then hold else 0), refRate := rate * 100, rate := 0 })
  (d.bumpField P.sap_stats p 48 16 1).raise n 0x0B01 p (leBytes 1 cause)

/-- A port is stopped (R308). -/
def Dev.sapStop (d : Dev) (p : Nat) : Dev :=
  d.onSap p (fun s => { rxMask := s.rxMask, txMask := s.txMask, nextRx := s.nextRx, nextTx := s.nextTx })

/-- The parameters whose change restarts a port (R308). -/
def sapRestarts (id : Nat) : Bool := has [P.sap_format, P.sap_rate_hz, P.sap_slots, P.sap_slot_bits, P.sap_clocking] id

/-- A serial port follows a commit at its boundary: `changed` lists the definitions of the port that changed. A running port that is disabled
completes its current frame first; Banked stops it at once (R308). -/
def Dev.sapFollow (d : Dev) (n : Now) (p : Nat) (changed : List Nat) : Dev :=
  let on := d.cn P.sap_enable p == 1 && !d.pwr.bankBegun
  if !on then (if (d.sap p).state == 1 && !d.pwr.bankBegun then d.onSap p (fun s => { s with stopping := true }) else d.sapStop p)
  else if (d.sap p).state == 0 || (d.sap p).stopping || has changed P.sap_enable then d.sapRestart n p 1
  else if changed.any sapRestarts then d.sapRestart n p 2
  else d

/-- The time after the last edge that a stopped clock takes to be declared (R309): 4 periods at the reference rate, at least 2
heats. -/
def Sap.stopAfter (s : Sap) : Nat := max (4 * (80000000000 / max 1 s.refRate)) (2 * heatCycles)

/-- SAP_CLOCK_STOP (R309): no edge for so long on a running slave port, from its restart on; 0x0B05. -/
def sapClockStop (d : Dev) (n : Now) (p : Nat) : Dev :=
  let s := d.sap p
  if s.state == 1 && !d.sapMaster p && decide ((s.lastEdge.getD s.holdTo) + s.stopAfter ≤ n.abs) then
    (d.onSap p (fun s => { s with state := 2, good := 0, rate := 0 })).raise n 0x0B05 p (leBytes 1 1)
  else d

/-- SAP_CLOCK_RESUME (R309): 8 good periods on a stopped port; it restarts; 0x0B05. -/
def sapClockResume (d : Dev) (n : Now) (p : Nat) : Dev :=
  let s := d.sap p
  if s.state == 2 && decide (8 ≤ s.good) then (d.sapRestart n p 3).raise n 0x0B05 p (leBytes 1 0) else d

/-- Whether a period lies within ±5 % of a rate (R309). -/
def goodPeriod (rate cycles : Nat) : Bool :=
  decide (95 * 800000000 ≤ 100 * cycles * rate) && decide (100 * cycles * rate ≤ 105 * 800000000)

/-- The committed masks apply from the frame that begins (R310); 0x0B0C for each direction that changed, with that frame's number. -/
def Dev.maskSwitch (d : Dev) (n : Now) (p : Nat) : Dev :=
  let s := d.sap p
  let cnt := leBytes 2 s.frame.toNat
  let d := d.onSap p (fun s => { s with rxMask := s.nextRx, txMask := s.nextTx })
  let d := if s.rxMask == s.nextRx then d else d.raise n 0x0B0C p (leBytes 1 0 ++ leBytes 2 s.nextRx ++ cnt)
  if s.txMask == s.nextTx then d else d.raise n 0x0B0C p (leBytes 1 1 ++ leBytes 2 s.nextTx ++ cnt)

/-- SLOT_MASK_APPLY (R310): the masks of the last boundary apply from the frame whose sync edge is due; where it is not called, the edge
itself applies them. -/
def slotMaskApply (d : Dev) (n : Now) (p : Nat) : Dev := if (d.sap p).state == 1 then d.maskSwitch n p else d

/-- SAP_FSYNC_EDGE (R307): a slave port timestamps the edge; the frame that ended is received, or counted as a framing error when
it had too few bit clocks; the frame that begins is sent, or the port stops. -/
def sapEdge (d : Dev) (n : Now) (p clocks : Nat) (slots : List Nat) : Dev :=
  let s := d.sap p
  if s.state == 0 || d.sapMaster p then d
  else
    let good := match s.lastEdge with
      | some e => if goodPeriod (d.cn P.sap_rate_hz p) (n.abs - e) then s.good + 1 else 0
      | none => 0
    let d := d.onSap p (fun s => { s with
      edges := (s.edges ++ [n.abs]).filter (fun e => decide (n.abs < e + 8 * heatCycles)), lastEdge := some n.abs, good := good })
    if s.state == 2 then d
    else
      let first := s.lastEdge.isNone
      let d := d.onSap p (fun s => { s with heatEdges := s.heatEdges ++ [n.abs] })
      let d :=
        if first then d
        else if clocks < d.sapBits p then d.bumpField P.sap_stats p 32 16 1
        else d.onSap p (fun s => { s with rx := s.rx.push audioCap (d.sapFrame p slots n.abs) })
      if s.stopping then d.sapStop p
      else ((d.maskSwitch n p).onSap p (fun s => { s with rxFrame := s.rxMask, frame := s.frame + 1 })).sapSend p

/-- The rate a port reports (R307), in 0.01 Hz. -/
def edgeRate (l : List Nat) : Nat :=
  match l.head?, l.getLast? with
  | some a, some b => if a < b then (l.length - 1) * 80000000000 / (b - a) else 0
  | _, _ => 0

/-- Rate reports and SAP_RATE_CHANGE in the hard window (R307, R309): 0x0B04 when the measured rate departs from the reference by
more than `sap.rate_change_ppm`; each reported rate becomes the reference. -/
def Dev.sapRates (d : Dev) (n : Now) : Dev :=
  (List.range 12).foldl (fun d p =>
    let s := d.sap p
    let r := edgeRate s.edges
    if s.state != 1 || r == 0 then d
    else
      let d := d.onSap p (fun s => { s with rate := r })
      if d.sapMaster p then d
      else
        let off := r - s.refRate + (s.refRate - r)
        let d := d.onSap p (fun s => { s with refRate := r })
        if d.cn P.sap_rate_change_ppm p * s.refRate < off * 1000000 then d.raise n 0x0B04 p (leBytes 4 r) else d) d

/-! ## PDM inputs -/

/-- PDM_STUCK (R314): one level at one edge for 1 ms of running; 0x0B0D once per microphone, until the input is stopped. -/
def pdmStuck (d : Dev) (n : Now) (i mic : Nat) (level : Bool) : Dev :=
  if (d.pdm i).on && decide ((d.pdm i).since + msCycles ≤ n.abs) && decide (mic < 2) && !bit (d.pdm i).stuck mic then
    (d.onPdm i (fun p => { p with stuck := setBit p.stuck mic true })).raise n 0x0B0D i (leBytes 1 mic ++ leBytes 1 (b2n level))
  else d

/-- What a microphone of a PDM input gives from a decimated sample of each edge (R313, R314): that of its edge, swapped by bit 2. With a high-pass
filter or a gain the value is one the spec bounds and does not give, a free value (assumption 1). -/
def Dev.pdmSample (d : Dev) (i m : Nat) (edges : List Nat) : Nat × Dev :=
  let c := d.cn P.pdm_ctrl i
  if !bit c m then (0, d)
  else if bits c 4 2 == 0 && bits (d.cn P.pdm_gain i) (8 * m) 8 == 0 then (edges.getD (if bit c 2 then 1 - m else m) 0 % 2 ^ 24, d)
  else
    let (v, d) := d.draw
    (v.toNat % 2 ^ 24, d)

/-- A PDM input's frame at an instant. -/
def Dev.pdmFrame (d : Dev) (i t : Nat) (edges : List Nat) : Dev :=
  let (a, d) := d.pdmSample i 0 edges
  let (b, d) := d.pdmSample i 1 edges
  d.onPdm i (fun q => { q with batch := q.batch ++ [{ s := [a, b], at_ := t }] })

/-- A PDM input follows `pdm.enable`. -/
def Dev.pdmFollow (d : Dev) (n : Now) (i : Nat) : Dev :=
  let on := d.cn P.pdm_enable i == 1 && !d.pwr.bankBegun
  if (d.pdm i).on == on then d else d.onPdm i (fun _ => { on := on, since := n.abs })

/-! ## The tundish -/

/-- A tundish follows its map: on with a map, acquiring from the nominal ratio (R315, R316). -/
def Dev.tunFollow (d : Dev) (n : Now) (i : Nat) : Dev :=
  let on := !(d.tunMap i).isEmpty && d.mapDomain (d.tunMap i) != none
  if on && (d.tun i).state == 0 then d.onTun i (fun _ => { state := 1, ratio := d.tunNominal i, acq := n.heat })
  else if !on && (d.tun i).state != 0 then d.onTun i (fun _ => {})
  else d

/-- TUNDISH_HOLD (R316): the input has stopped for 2 heats, or the ratio is out of range: the instance holds, or mutes with the
mute ramp on; 0x0B07. -/
def tundishHold (d : Dev) (n : Now) (i : Nat) (outOfRange : Bool) : Dev :=
  let t := d.tun i
  if (t.state == 1 || t.state == 2) && (outOfRange || decide (2 ≤ t.idle)) then
    let st := if outOfRange || bit (d.cn P.tundish_ctrl i) 4 then 4 else 3
    (d.onTun i (fun t => { t with state := st, ramp := 0 })).raise n 0x0B07 i (leBytes 1 st ++ leBytes 4 (d.tunPpm i))
  else d

/-- Whether an acquisition is settled by its bound (R316): 160 heats, or 320, 640 or 1,280 with loop codes 1 to 3; in nominal mode at once. -/
def Dev.tunSettled (d : Dev) (n : Now) (i : Nat) : Bool :=
  let c := d.cn P.tundish_ctrl i
  bit c 0 || decide ((d.tun i).acq + 160 * 2 ^ bits c 1 2 ≤ n.heat)

/-- TUNDISH_UPDATE (R316): the hard window's ratio estimates; 0x0B08 when tracking settles, at the latest by its bound; re-acquisition after
a hold whose input runs again. -/
def Dev.tunUpdate (d : Dev) (n : Now) (l : List (Nat × Nat × Bool)) : Dev :=
  l.foldl (fun d e =>
    let i := e.1
    let t := d.tun i
    if t.state == 0 then d
    else if (t.state == 3 || t.state == 4) then
      if t.idle == 0 && decide (2 ^ 29 ≤ e.2.1) && decide (e.2.1 ≤ 2 ^ 35) then
        (d.onTun i (fun t => { t with state := 1, ratio := e.2.1, ramp := 0, acq := n.heat })).bumpField P.tundish_stats i 48 16 1
      else d
    else
      let d := if bit (d.cn P.tundish_ctrl i) 0 then d.onTun i (fun t => { t with ratio := d.tunNominal i })
               else d.onTun i (fun t => { t with ratio := e.2.1 % 2 ^ 40 })
      if t.state == 1 && (e.2.2 || d.tunSettled n i) then
        (d.onTun i (fun t => { t with state := 2 })).raise n 0x0B08 i (leBytes 4 (d.tunPpm i))
      else d) d

/-- One output frame of a tundish: interpolated samples, which the spec bounds and does not give (free values, assumption 1);
zeros once a mute ramp is done. -/
def Dev.tunOut (d : Dev) (i t : Nat) : Dev :=
  let muted := (d.tun i).state == 4 && decide (64 ≤ (d.tun i).ramp)
  let (l, d) := (d.tunMap i).foldl (fun (p : List Nat × Dev) _ =>
    if muted then (p.1 ++ [0], p.2)
    else let (v, d) := p.2.draw
         (p.1 ++ [v.toNat % 2 ^ 24], d)) ([], d)
  d.onTun i (fun t' => { t' with outq := t'.outq.push audioCap { s := l, at_ := t }, ramp := t'.ramp + 1 })

/-- Step 2 of a batch for one tundish (R303, R316): it consumes its input frames and writes output frames at the tracked ratio; in a
hold it produces one frame per output pacer count from the last frame. `counts`: the input domain's pacer counts; `nOut`: the output
domain's. -/
def Dev.tunRun (d : Dev) (i counts : Nat) (nOut : List Nat) (t : Nat) : Dev :=
  let u := d.tun i
  if u.state == 0 then d
  else
    let nIn := u.inq.q.length
    let d := d.onTun i (fun u => { u with idle := if counts == 0 then u.idle + 1 else 0 })
    if u.state == 3 || u.state == 4 then
      let reads := nOut.length * 2 ^ 32 / max 1 u.ratio
      let d := d.onTun i (fun u => { u with inq := (List.range (max reads nIn)).foldl (fun q _ => q.pop.2) u.inq })
      nOut.foldl (fun d c => d.tunOut i c) d
    else
      let owed := u.phase + nIn * u.ratio
      let d := d.onTun i (fun u => { u with phase := owed % 2 ^ 32
                                            inq := (List.range nIn).foldl (fun q _ => q.pop.2) u.inq })
      (List.range (owed / 2 ^ 32)).foldl (fun d k => d.tunOut i (nOut.getD k t)) d

/-! ## Embedded audio (R318 to R321) -/

/-- A sample's size in bytes for a format code; 0 for the undefined code. -/
def sampleSize (fmt : Nat) : Nat := match fmt with | 0 => 2 | 1 => 3 | 2 => 4 | _ => 0

/-- A sample of a packet as 24 bits. -/
def sampleIn (fmt v : Nat) : Nat := match fmt with | 0 => v * 256 | 1 => v | _ => v / 256

/-- A 24-bit sample as a packet carries it. -/
def sampleOut (fmt s : Nat) : Nat := match fmt with | 0 => slotOut 16 s | 1 => s % 2 ^ 24 | _ => s % 2 ^ 24 * 256

/-- Why an extractor discards a packet (0x0B09): none when it is valid (R320). -/
def Dev.audioBad (d : Dev) (i : Nat) (p : Bytes) (marked : Bool) : Option Nat :=
  let c := rd p 0 1 % 16 + 1
  let fmt := rd p 1 1 % 4
  let cnt := rd p 3 1
  if marked then some 1
  else if rd p 0 1 / 16 != 1 then some 3
  else if p.length != 16 + cnt * c * sampleSize fmt || decide (64 < cnt) || sampleSize fmt == 0 then some 2
  else if rd p (p.length - 4) 4 != (crc32 (p.take (p.length - 4))).toNat then some 4
  else if bits (rd p 1 1) 2 4 != bits (d.cn P.eaud_ctrl i) 32 4 then some 5
  else none

/-- The heat number nearest `h` whose bits 31:0 equal `p` (R320). -/
def nearHeat (h p : Nat) : Nat :=
  let base := h / 2 ^ 32 * 2 ^ 32 + p
  if h + 2 ^ 31 < base && 2 ^ 32 ≤ base then base - 2 ^ 32
  else if base + 2 ^ 31 < h then base + 2 ^ 32 else base

/-- 0x0B09 of an extractor for the heat that ends (R320). -/
def Dev.tellEaud (d : Dev) (i : Nat) : Dev :=
  let t := (d.eaud i).bad
  (d.onEaud i (fun e => { e with bad := {} })).tell t 0x0B09 i (t.bytes ++ t.last)

/-- AUDIO_PACKET_EXTRACT (R320): an extractor takes a packet of its stream: a bad packet is discarded and counted; the frames of a
good one are queued with their due times; late frames are dropped. -/
def audioExtract (d : Dev) (n : Now) (i : Nat) (p : Bytes) (marked : Bool) : Dev :=
  if bits (d.cn P.eaud_ctrl i) 0 2 != 1 then d
  else match d.audioBad i p marked with
  | some cause =>
    d.onEaud i (fun e => { e with bad := e.bad.note n (leBytes 1 cause), discarded := sat 16 (e.discarded + 1) })
  | none =>
    let c := rd p 0 1 % 16 + 1
    let fmt := rd p 1 1 % 4
    let sz := sampleSize fmt
    let seq := rd p 2 1
    let e := d.eaud i
    let d := if e.lastSeq.any (fun s => (s + 1) % 256 != seq) then d.raise n 0x0B0A i (leBytes 1 1 ++ leBytes 1 seq) else d
    let d := if bit (rd p 1 1) 6 then d.raise n 0x0B0A i (leBytes 1 2 ++ leBytes 1 seq) else d
    let changed := e.lastSeq.isSome && (e.channels != c || e.size != sz)
    let d := if changed then
        (d.onEaud i (fun e => { e with q := e.q.emptied, released := 0 })).raise n 0x0B0A i (leBytes 1 3 ++ leBytes 1 seq)
      else d
    let d := d.onEaud i (fun e => { e with lastSeq := some seq, channels := c, size := sz })
    let start := nearHeat n.heat (rd p 4 4) * heatCycles + rd p 8 2 * 8 + d.cn P.eaud_delay_us i * 800
    let rate := max 1 (codeRate (bits (rd p 1 1) 2 4))
    let frames := (List.range (rd p 3 1)).map (fun k =>
      ({ s := (List.range c).map (fun j => sampleIn fmt (rd p (12 + (k * c + j) * sz) sz))
         at_ := start + k * 800000000 / rate } : AFrame))
    let late := frames.filter (fun f => decide (f.at_ + msCycles < n.abs))
    let d := frames.foldl (fun d f => if f.at_ + msCycles < n.abs then d
      else d.onEaud i (fun e => { e with q := e.q.push (eaudCap c) f })) d
    match late.head? with
    | some f =>
      (d.onEaud i (fun e => { e with late := sat 16 (e.late + late.length) })).raise n 0x0B0B i
        (leBytes 2 late.length ++ leBytes 4 ((n.abs - f.at_) / 800))
    | none => d

/-- The mode of an embedded-audio instance: 0 off, 1 extract, 2 insert. -/
def Dev.eaudMode (d : Dev) (i : Nat) : Nat := bits (d.cn P.eaud_ctrl i) 0 2

/-- The channel count of an inserter. -/
def Dev.eaudC (d : Dev) (i : Nat) : Nat := bits (d.cn P.eaud_ctrl i) 24 4 + 1

/-- An Elyel audio packet's payload (Table 14.6). -/
def audioPayload (c fmt code seq : Nat) (disc : Bool) (pt : Nat) (l : List AFrame) : Bytes :=
  let sz := sampleSize fmt
  let body := leBytes 1 (16 + (c - 1)) ++ leBytes 1 (fmt + 4 * code + 64 * b2n disc) ++ leBytes 1 seq ++ leBytes 1 l.length ++
    leBytes 4 (pt / heatCycles) ++ leBytes 2 (pt % heatCycles / 8) ++ leBytes 2 0 ++
    l.flatMap (fun f => (List.range c).flatMap (fun k => leBytes sz (sampleOut fmt (f.s.getD k 0))))
  body ++ leBytes 4 (crc32 body).toNat

/-- AUDIO_PACKET_FORM (R321): when MINF frames wait an inserter with no packet formed forms one of up to MAXF frames. -/
def Dev.audioForm (d : Dev) (i : Nat) : Dev :=
  let v := d.cn P.eaud_ctrl i
  let e := d.eaud i
  if d.eaudMode i != 2 || e.formed.isSome || decide (e.q.q.length < max 1 (bits v 40 7)) then d
  else
    let l := e.q.q.take (bits v 48 7)
    let pt := ((l.head?.map (·.at_)).getD 0) + d.cn P.eaud_delay_us i * 800
    let pl := audioPayload (d.eaudC i) (bits v 28 2) (bits v 32 4) e.seq e.disc pt l
    d.onEaud i (fun e => { e with q := { e.q with q := e.q.q.drop l.length, last := l.getLast? }, formed := some pl
                                  seq := (e.seq + 1) % 256, disc := false, lastSeq := some e.seq })

/-- The packet an inserter sends (R318, R319). -/
def Dev.audioPacket (d : Dev) (i : Nat) (pl : Bytes) : Packet :=
  let v := d.cn P.eaud_ctrl i
  ⟨bits v 16 4, bits v 8 6, false, 0, pl, false⟩

/-- The formed packet has been sent in a line of a pour. -/
def Dev.audioSent (d : Dev) (i : Nat) (in_ : Option (Nat × Nat)) : Dev :=
  (d.onEaud i (fun e => { e with formed := none, sentIn := in_ })).audioForm i

/-- An embedded-audio instance follows its mode: a change of MODE starts it afresh. -/
def Dev.eaudFollow (d : Dev) (i : Nat) : Dev :=
  if (d.eaud i).mode == d.eaudMode i then d else d.onEaud i (fun _ => { mode := d.eaudMode i })

/-! ## The batch (R303) -/

/-- Times at which a ladle pacer counts in a heat that began at `t0`, and its phase afterwards: its accumulator gains f_L × 2¹⁶ per
heat and a frame takes D × 8,000 (R301). -/
def pacerTimes (acc hz dv t0 : Nat) : List Nat × Nat :=
  let per := dv * 8000
  let gain := hz * 65536
  if per == 0 || gain == 0 then ([], acc)
  else ((List.range ((acc + gain) / per)).map (fun k => t0 + ((k + 1) * per - acc) * heatCycles / gain), (acc + gain) % per)

/-- The ladle domains in use. -/
def Dev.ladleDomains (d : Dev) : List Domain :=
  let l := (List.range 12).filterMap (fun p => if (d.sap p).state != 0 && d.sapMaster p then some (d.sapDomain p) else none) ++
    (List.range 4).filterMap (fun p => if (d.pdm p).on then some (d.pdmDomain p) else none) ++
    (List.range 16).filterMap (fun i => if (d.tun i).state != 0 then d.tunDst i else none)
  (l.filter (fun x => match x with | .ladle _ _ => true | _ => false)).eraseDups

/-- The pacer counts of every ladle domain over the heat that ended: (domain, times); pacers move on. -/
def Dev.paceLadles (d : Dev) (t0 : Nat) : List (Domain × List Nat) × Dev :=
  let r := d.ladleDomains.map (fun x =>
    match x with
    | .ladle l dv =>
      let acc := ((d.aud.pacers.find? (fun (p : Pacer) => p.dom == x)).map (fun (p : Pacer) => p.acc)).getD 0
      let (ts, a) := pacerTimes acc (d.ladleHz l) dv t0
      (x, ts, a)
    | _ => (x, [], 0))
  (r.map (fun p => (p.1, p.2.1)),
   { d with aud := { d.aud with pacers := r.map (fun p => ({ dom := p.1, acc := p.2.2 } : Pacer)) } })

/-- A domain's counts in a batch. -/
def countsOf (l : List (Domain × List Nat)) (x : Domain) : List Nat := ((l.find? (fun p => p.1 == x)).map (·.2)).getD []

/-- Step 1 of a batch (R303, R320): extractor frames due at the boundary are released; their times are the counts of the
extractor's domain. -/
def Dev.extRelease (d : Dev) (i t : Nat) : List Nat × Dev :=
  if d.eaudMode i != 1 then ([], d)
  else
    let e := d.eaud i
    let due := (e.q.q.drop e.released).takeWhile (fun f => decide (f.at_ ≤ t))
    (due.map (·.at_), d.onEaud i (fun e => { e with released := e.released + due.length }))

/-- Take one frame from a source unit's queue (R303, R311). -/
def Dev.takeFrame (d : Dev) (u : Nat × Nat) : AFrame × Dev :=
  match u.1 with
  | 1 => let (f, q) := (d.sap u.2).rx.pop
         (f, d.onSap u.2 (fun s => { s with rx := q }))
  | 2 => (((d.pdm u.2).batch.head?).getD {}, d.onPdm u.2 (fun p => { p with batch := p.batch.drop 1 }))
  | 3 => let (f, q) := (d.tun u.2).outq.pop
         (f, d.onTun u.2 (fun t => { t with outq := q }))
  | 4 =>
    if 0 < (d.eaud u.2).released then
      let (f, q) := (d.eaud u.2).q.pop
      (f, d.onEaud u.2 (fun e => { e with q := q, released := e.released - 1 }))
    else ((d.eaud u.2).q.last.getD {}, d.onEaud u.2 (fun e => { e with q := { e.q with under := e.q.under.one } }))
  | _ => ({}, d)

/-- Frames taken in one step of a batch: (unit, frame). -/
abbrev Taken := List ((Nat × Nat) × AFrame)

/-- The sample a channel address gives from the frames taken. -/
def sampleOf (l : Taken) (a : Nat) : Nat :=
  if a == 0 then 0 else (((l.find? (fun p => p.1 == addrUnit a)).map (fun p => p.2.s.getD (bits a 0 4) 0)).getD 0)

/-- The sinks of a batch: 0 a port's transmit queue, 1 a tundish input, 2 an inserter, with their channel addresses. -/
def Dev.sinks (d : Dev) : List (Domain × Nat × Nat × List Nat) :=
  (List.range 12).filterMap (fun p =>
    if (d.sap p).state == 1 then some (d.sapDomain p, 0, p, mapAddrs (d.cb P.sap_tx_map p)) else none) ++
  (List.range 16).filterMap (fun i =>
    if (d.tun i).state != 0 then (d.mapDomain (d.tunMap i)).map (fun x => (x, 1, i, d.tunMap i)) else none) ++
  (List.range 8).filterMap (fun i =>
    if d.eaudMode i == 2 then (d.mapDomain (mapAddrs (d.cb P.eaud_map i))).map (fun x => (x, 2, i, mapAddrs (d.cb P.eaud_map i)))
    else none)

/-- A sink appends a frame. A transmit slot outside the committed mask carries zeros (R310); a full inserter queue marks a
discontinuity (R321). -/
def Dev.appendFrame (d : Dev) (kind i : Nat) (addrs : List Nat) (l : Taken) (t : Nat) : Dev :=
  match kind with
  | 0 =>
    let mask := d.cn P.sap_tx_mask i
    let s := (List.range 16).map (fun k => if bit mask k then sampleOf l (addrs.getD k 0) else 0)
    d.onSap i (fun p => { p with tx := p.tx.push audioCap { s := s, at_ := t } })
  | 1 => d.onTun i (fun u => { u with inq := u.inq.push audioCap { s := addrs.map (sampleOf l), at_ := t } })
  | _ =>
    let full : Bool := decide (eaudCap (d.eaudC i) ≤ (d.eaud i).q.q.length)
    d.onEaud i (fun e => { e with q := e.q.push (eaudCap (d.eaudC i)) { s := addrs.map (sampleOf l), at_ := t }
                                  disc := e.disc || full })

/-- Step 3 of a batch for one domain (R303): for each count every sink appends one frame, taking one frame from each of its source
units; a unit that several sinks name is read once per count. -/
def Dev.feedDomain (d : Dev) (x : Domain) (times : List Nat) : Dev :=
  let sinks := d.sinks.filter (fun s => s.1 == x)
  let units := ((sinks.flatMap (fun s => s.2.2.2)).map addrUnit).eraseDups.filter (fun u => u.1 != 0)
  times.foldl (fun d t =>
    let (taken, d) := units.foldl (fun (p : Taken × Dev) u =>
      let (f, d) := p.2.takeFrame u
      (p.1 ++ [(u, f)], d)) ([], d)
    sinks.foldl (fun d s => d.appendFrame s.2.1 s.2.2.1 s.2.2.2 taken t) d) d

/-- Report a queue's underruns and overruns of this heat (R311): counted in the unit's statistics; 0x0B02, 0x0B03. -/
def Dev.tellQueue (d : Dev) (n : Now) (kind inst under beyond stat lo hi w : Nat) : Dev :=
  let d := if under == 0 then d else (d.bumpField stat inst lo w under).raise n 0x0B02 inst (leBytes 1 kind ++ leBytes 2 (sat 16 under))
  if beyond == 0 then d else (d.bumpField stat inst hi 16 beyond).raise n 0x0B03 inst (leBytes 1 kind ++ leBytes 2 (sat 16 beyond))

/-- The tallies of a queue cleared. -/
def AQueue.told (q : AQueue) : AQueue := { q with under := {}, beyond := {} }

/-- Report every queue's tallies and clear them. `sap.status` bits 2 and 3 tell the last heat. -/
def Dev.tellAudio (d : Dev) (n : Now) : Dev :=
  let d := (List.range 12).foldl (fun d p =>
    let s := d.sap p
    let d := d.tellQueue n 1 p s.rx.under.count s.rx.beyond.count P.sap_stats 0 16 16
    let d := d.tellQueue n 2 p s.tx.under.count s.tx.beyond.count P.sap_stats 0 16 16
    let flags := b2n (decide (0 < s.rx.under.count + s.tx.under.count)) + 2 * b2n (decide (0 < s.rx.beyond.count + s.tx.beyond.count))
    let d := if bits (d.sn P.sap_status p) 2 2 == flags then d else d.putField P.sap_status p 2 2 flags
    d.onSap p (fun s => { s with rx := s.rx.told, tx := s.tx.told })) d
  let d := (List.range 16).foldl (fun d i =>
    let t := d.tun i
    let d := d.tellQueue n 3 i (t.inq.under.count + t.outq.under.count) (t.inq.beyond.count + t.outq.beyond.count) P.tundish_stats 0 32 32
    d.onTun i (fun t => { t with inq := t.inq.told, outq := t.outq.told })) d
  (List.range 8).foldl (fun d i =>
    let e := d.eaud i
    let k := if d.eaudMode i == 1 then 4 else 5
    let u := e.q.under.count
    let o := e.q.beyond.count
    let d := if u == 0 then d else d.raise n 0x0B02 i (leBytes 1 k ++ leBytes 2 (sat 16 u))
    let d := if o == 0 then d else d.raise n 0x0B03 i (leBytes 1 k ++ leBytes 2 (sat 16 o))
    d.onEaud i (fun e => { e with q := e.q.told })) d

/-- AUDIO_BATCH (R303) at a heat boundary: what master ports and PDM inputs took in over the heat, then the three steps, then the
packets inserters can form. -/
def audioBatch (d : Dev) (n : Now) (b : BoundaryIn) : Dev :=
  let t0 := (n.heat - 1) * heatCycles
  let (ladles, d) := d.paceLadles t0
  let slaves := (List.range 12).filterMap (fun p =>
    if (d.sap p).state == 1 && !d.sapMaster p then some (Domain.slave p, (d.sap p).heatEdges) else none)
  let d := (List.range 12).foldl (fun d p =>
    let s := d.sap p
    if s.state == 1 && d.sapMaster p then
      let ts := (countsOf ladles (d.sapDomain p)).filter (fun t => decide (s.holdTo ≤ t))
      let ts := if s.stopping then ts.take 1 else ts
      let got := ((b.sap.find? (fun q => q.1 == p)).map (·.2)).getD []
      let d := (List.range ts.length).foldl (fun d k =>
        let f := d.sapFrame p (got.getD k []) (ts.getD k 0)
        let d := d.onSap p (fun s => { s with rx := s.rx.push audioCap f })
        if s.stopping then d.sapStop p
        else ((d.maskSwitch n p).onSap p (fun s => { s with rxFrame := s.rxMask, frame := s.frame + 1 })).sapSend p) d
      d.onSap p (fun s => if s.state == 0 then s else
        { s with edges := (s.edges ++ ts).filter (fun e => decide (n.abs ≤ e + 8 * heatCycles)) })
    else d.onSap p (fun s => { s with heatEdges := [] })) d
  let d := (List.range 4).foldl (fun d p =>
    if (d.pdm p).on then
      let ts := countsOf ladles (d.pdmDomain p)
      let got := ((b.pdm.find? (fun q => q.1 == p)).map (·.2)).getD []
      (List.range ts.length).foldl (fun d k => d.pdmFrame p (ts.getD k 0) (got.getD k [])) (d.onPdm p (fun q => { q with batch := [] }))
    else d) d
  let (exts, d) := (List.range 8).foldl (fun (a : List (Domain × List Nat) × Dev) i =>
    let (ts, d) := a.2.extRelease i n.abs
    (a.1 ++ [(Domain.ext i, ts)], d)) ([], d)
  let all := ladles ++ slaves ++ exts
  let d := (List.range 16).foldl (fun d i =>
    let inp := ((d.mapDomain (d.tunMap i)).map (countsOf all)).getD []
    d.tunRun i inp.length (((d.tunDst i).map (countsOf all)).getD []) n.abs) d
  let d := all.foldl (fun d x => d.feedDomain x.1 x.2) d
  let d := d.tellAudio n
  let d := (List.range 12).foldl (fun d p =>
    d.onSap p (fun s => { s with nextRx := d.cn P.sap_rx_mask p, nextTx := d.cn P.sap_tx_mask p })) d
  (List.range 8).foldl (fun d i => d.audioForm i) d

/-- A queue whose pointers disagree (R312): it is reset to empty, and the access that found it is a write to a full queue or a read from an
empty one. -/
def AQueue.mismatch (q : AQueue) (write : Bool) : AQueue :=
  if write then { q.emptied with beyond := q.beyond.one } else q.emptied.pop.2

/-- QUEUE_POINTER_MISMATCH on an audio queue (R312): the queue is empty; 0x0B06 with the unit kind. -/
def audioQueueReset (d : Dev) (n : Now) (kind unit : Nat) (write : Bool) : Dev :=
  let d := match kind with
    | 1 => d.onSap unit (fun s => { s with rx := s.rx.mismatch write })
    | 2 => d.onSap unit (fun s => { s with tx := s.tx.mismatch write })
    | 3 => if unit < 16 then d.onTun unit (fun t => { t with inq := t.inq.mismatch write })
           else d.onTun (unit - 16) (fun t => { t with outq := t.outq.mismatch write })
    | _ => d.onEaud unit (fun e => { e with q := e.q.mismatch write, released := 0, disc := e.disc || write })
  let inst := if kind == 3 then unit % 16 else unit
  d.raise n 0x0B06 inst (leBytes 1 kind ++ leBytes 1 (if kind == 3 then unit / 16 else 0))

/-- Audio stops in Banked and keeps no state (R308). -/
def Dev.audioBanked (d : Dev) : Dev := { d with aud := {} }

end Sys2Proof.Machine
end

