-- ==== Sys2Proof/Machine/Mem.lean ====
section
/-!
DEFINITION. The crucible RAM (R145, R146): a list of (address, byte) cells in canonical form. The address of a byte is
bank × 1 MiB + granule × 4 KiB + offset; an unlisted address reads 0 (assumption 3).
-/

namespace Sys2Proof.Machine

/-- The crucible RAM. -/
abbrev Mem := List Host.Cell

/-- Bytes of the crucible: 64 banks of 1 MiB (R145). -/
abbrev crucibleBytes : Nat := 67108864

/-- What an address no cell lists reads as (assumption 3). -/
def memDefault : Byte := 0

/-- Read one byte. -/
def memRead : Mem → Nat → Byte
  | [], _ => memDefault
  | (k, v) :: m, a => if k == a then v else memRead m a

/-- Write one byte; a byte equal to what an unlisted address reads as is not listed. -/
def memWrite : Mem → Nat → Byte → Mem
  | [], a, v => if v == memDefault then [] else [(a, v)]
  | (k, w) :: m, a, v =>
    if a < k then (if v == memDefault then (k, w) :: m else (a, v) :: (k, w) :: m)
    else if a == k then (if v == memDefault then m else (a, v) :: m)
    else (k, w) :: memWrite m a v

/-- Every key of `m` is above `a`. -/
def memAbove (a : Nat) (m : Mem) : Bool := m.all (fun c => decide (a < c.1))

/-- The canonical form: addresses strictly rising, inside the crucible, and no cell that holds the default. -/
def Mem.wf : Mem → Bool
  | [] => true
  | (k, v) :: m => decide (k < crucibleBytes) && v != memDefault && memAbove k m && Mem.wf m

/-- Write one byte of the crucible; an address beyond the crucible does not exist and nothing is written. -/
def ramWrite (m : Mem) (a : Nat) (v : Byte) : Mem := if a < crucibleBytes then memWrite m a v else m

/-- The address of byte `a` of a slot image, by the slot's recorded stripe map (R151). `none` outside the slot. -/
def SlotRec.addr (s : SlotRec) (a : Nat) : Option Nat :=
  let w := s.place.length
  let rot := bits s.map.toNat 0 6
  let step := bits s.map.toNat 6 6
  let c := a / 256
  let v := c % w
  let r := c / w
  let j := (rot + v * step) % w
  match s.place[j]? with
  | none => none
  | some (bank, gs) =>
    match gs[r / 16]? with
    | none => none
    | some g =>
      let word := (r % 16) * 8 + (a % 256) / 32
      some (bank * 1048576 + g * 4096 + word * 32 + a % 32)

/-- The banks of the chunks that hold `n` bytes of a slot image from offset `a`. -/
def SlotRec.banks (s : SlotRec) (a n : Nat) : List Nat :=
  if n == 0 then []
  else ((List.range ((a + n - 1) / 256 - a / 256 + 1)).filterMap (fun k => (s.addr ((a / 256 + k) * 256)).map (· / 1048576))).eraseDups

/-- Read byte `a` of a slot image. An Empty slot reads zero without accessing a bank (R152). -/
def slotRead (m : Mem) (s : SlotRec) (a : Nat) : Byte :=
  if s.state == .empty then 0
  else match s.addr a with
    | some x => memRead m x
    | none => 0

/-- Write one byte of a slot image. -/
def slotWrite (m : Mem) (s : SlotRec) (a : Nat) (v : Byte) : Mem :=
  match s.addr a with
  | some x => ramWrite m x v
  | none => m

/-- Write bytes of a slot image from offset `a`. -/
def slotWrites (m : Mem) (s : SlotRec) : Nat → Bytes → Mem
  | _, [] => m
  | a, b :: bs => slotWrites (slotWrite m s a b) s (a + 1) bs

/-- Read `n` bytes of a slot image from offset `a`. -/
def slotReads (m : Mem) (s : SlotRec) (a n : Nat) : Bytes := (List.range n).map (fun i => slotRead m s (a + i))

/-- Zero `n` bytes of the RAM from address `a`. -/
def memZero (m : Mem) (a : Nat) : Nat → Mem
  | 0 => m
  | n + 1 => memZero (ramWrite m (a + n) 0) a n

/-- The device together with its crucible RAM, for the commands that write pictures. -/
structure DM where
  dev : Dev
  mem : Mem

/-- Act on the device alone. -/
def DM.map (x : DM) (f : Dev → Dev) : DM := { x with dev := f x.dev }

end Sys2Proof.Machine
end

