-- ==== Sys2Proof/Machine/Crucible.lean ====
section
/-!
DEFINITION. The crucible frame store (chapter 7): formats and slot layout, granule allocation, slots, holds and frame
selection, ownership, buffer messages, re-striping, ECC, scrubbing.
-/

namespace Sys2Proof.Machine

/-! ## Formats and layout (R148, R149, Table 7.1) -/

/-- The format codes of Table 7.1. -/
def knownFormat (f : Nat) : Bool :=
  has [0x01, 0x02, 0x03, 0x04, 0x05, 0x06, 0x08, 0x09, 0x0A, 0x0B, 0x0C, 0x0D, 0x10, 0x11, 0x12, 0x13] f

/-- RAW formats: stored and replayed only (R148). -/
def rawFormat (f : Nat) : Bool := has [0x10, 0x11, 0x12, 0x13] f

/-- YUV formats (Table 7.1). -/
def yuvFormat (f : Nat) : Bool := has [0x01, 0x02, 0x03, 0x04, 0x05, 0x06] f

/-- Planes of a format. -/
def fmtPlanes (f : Nat) : Nat := if has [0x03, 0x04] f then 2 else if has [0x05, 0x06] f then 3 else 1

/-- Bytes per line of a plane for width w (Table 7.1). -/
def lineBytes (f w : Nat) : Nat :=
  if f == 0x02 || f == 0x06 || f == 0x08 || f == 0x13 then 2 * w
  else if f == 0x09 then 3 * w
  else if f == 0x0A || f == 0x0B then 4 * w
  else if f == 0x11 then 5 * w / 4
  else if f == 0x12 then 3 * w / 2
  else w

/-- Lines of a plane for height h. -/
def planeLines (f plane h : Nat) : Nat := if f == 0x03 && plane == 1 then h / 2 else h

/-- Whether width and height suit the format (R149, last column of Table 7.1). -/
def sizeOk (f w h : Nat) : Bool :=
  decide (1 ≤ w) && decide (w ≤ 8192) && decide (1 ≤ h) && decide (h ≤ 8192) &&
  (if f == 0x03 then w % 2 == 0 && h % 2 == 0
   else if f == 0x04 || f == 0x12 then w % 2 == 0
   else if f == 0x11 then w % 4 == 0
   else true)

/-- Round up to a multiple of `m`. -/
def roundUp (m v : Nat) : Nat := ceilDiv v m * m

/-- The stride in use for a requested stride; `none` when invalid (R149). -/
def strideOf (f w req : Nat) : Option Nat :=
  let least := lineBytes f w
  if req == 0 then some (roundUp 32 least)
  else if req % 32 == 0 && decide (least ≤ req) && decide (req ≤ 65536) then some req else none

/-- Where plane `p` starts in a slot (R149). -/
def planeStart (f h stride : Nat) : Nat → Nat
  | 0 => 0
  | p + 1 => roundUp 256 (planeStart f h stride p + stride * planeLines f p h)

/-- SLOT_BYTES (R149). -/
def slotBytes (f h stride : Nat) : Nat :=
  let last := fmtPlanes f - 1
  roundUp 256 (planeStart f h stride last + stride * planeLines f last h)

/-- The bank width W: the smallest power of two at least n, capped at 64 (R150). -/
def bankWidth (n : Nat) : Nat :=
  if n ≤ 1 then 1 else if n ≤ 2 then 2 else if n ≤ 4 then 4 else if n ≤ 8 then 8
  else if n ≤ 16 then 16 else if n ≤ 32 then 32 else 64

/-- Granules a slot holds in each of its banks: k = ⌈n ÷ W⌉ (R150). -/
def granulesPerBank (n : Nat) : Nat := ceilDiv n (bankWidth n)

/-- SLOT_BYTES of a buffer. -/
def Buf.slotBytes (b : Buf) : Nat := Machine.slotBytes b.fmt b.height b.stride

/-- Granules per slot of a buffer: W × k. -/
def Buf.granules (b : Buf) : Nat :=
  let n := ceilDiv b.slotBytes 4096
  bankWidth n * granulesPerBank n

/-- A buffer's handle (R147). -/
def Buf.handle (b : Buf) : Nat := b.gen * 1024 + b.index

/-! ## Granules (R146, R150) -/

/-- The granules a slot occupies, as (bank, granule). -/
def SlotRec.granules (s : SlotRec) : List (Nat × Nat) := s.place.flatMap (fun p => p.2.map (fun g => (p.1, g)))

/-- Every granule in use: slots of live buffers, slots readers still hold, granules awaiting clearing, ingot caches. -/
def Dev.usedGranules (d : Dev) : List (Nat × Nat) :=
  d.cru.bufs.flatMap (fun b => b.slots.flatMap SlotRec.granules) ++
  d.cru.dying.flatMap (fun s => s.slot.granules) ++ d.cru.clearing ++ d.cru.ingots.flatMap (fun p => p.2)

/-- The granules of a region in a bank: 0 to 223 general, 224 to 255 retained (R146). -/
def regionGranules (retained : Bool) : List Nat :=
  if retained then (List.range 32).map (· + 224) else List.range 224

/-- The free granules of a bank in a region, lowest first. -/
def freeIn (used : List (Nat × Nat)) (retained : Bool) (bank : Nat) : List Nat :=
  (regionGranules retained).filter (fun g => !used.any (fun u => u.1 == bank && u.2 == g))

/-- Insert a (free count, bank) keeping most free first, lower bank first on ties (R150). -/
def insertBank (p : Nat × Nat) : List (Nat × Nat) → List (Nat × Nat)
  | [] => [p]
  | q :: l => if q.1 < p.1 || (q.1 == p.1 && decide (p.2 < q.2)) then p :: q :: l else q :: insertBank p l

/-- The bank set of a slot of width `w` (R150): all banks for 64, else those with the most free granules. The set is kept
in rising bank order (assumption 4). -/
def bankSet (used : List (Nat × Nat)) (retained : Bool) (w : Nat) : List Nat :=
  if w == 64 then List.range 64
  else
    let ranked := (List.range 64).foldl (fun l b => insertBank ((freeIn used retained b).length, b) l) []
    let chosen := (ranked.take w).map (·.2)
    (List.range 64).filter (fun b => has chosen b)

/-- Allocate one slot of n granules' worth of bytes; `none` when a bank of its set lacks k free granules. The lowest free
granules are taken (assumption 4). -/
def allocSlot (used : List (Nat × Nat)) (retained : Bool) (n : Nat) : Option (List (Nat × List Nat)) :=
  let w := bankWidth n
  let k := granulesPerBank n
  let place := (bankSet used retained w).map (fun b => (b, (freeIn used retained b).take k))
  if place.all (fun p => p.2.length == k) then some place else none

/-- Allocate `m` slots in slot order (R150). -/
def allocSlots (used : List (Nat × Nat)) (retained : Bool) (n : Nat) : Nat → Option (List SlotRec)
  | 0 => some []
  | m + 1 =>
    match allocSlot used retained n with
    | none => none
    | some place =>
      let s : SlotRec := { place := place }
      match allocSlots (used ++ s.granules) retained n m with
      | none => none
      | some l => some (s :: l)

/-- Free granules of a region. -/
def Dev.freeGranules (d : Dev) (retained : Bool) : Nat :=
  let used := d.usedGranules
  ((List.range 64).map (fun b => (freeIn used retained b).length)).sum

/-- Least free granules in any bank of a region (`cru.largest_k`). -/
def Dev.leastFree (d : Dev) (retained : Bool) : Nat :=
  let used := d.usedGranules
  (List.range 64).foldl (fun m b => min m (freeIn used retained b).length) 256

/-! ## Handles (R147) -/

/-- The live buffer a handle names; handle 0 and stale handles name none. -/
def Dev.buf (d : Dev) (handle : Nat) : Option Buf :=
  if handle == 0 then none else d.cru.bufs.find? (fun b => b.handle == handle)

/-- Change the live buffer of a handle. -/
def Dev.onBuf (d : Dev) (handle : Nat) (f : Buf → Buf) : Dev :=
  { d with cru := { d.cru with bufs := d.cru.bufs.map (fun b => if b.handle == handle then f b else b) } }

/-- Change one slot of a buffer. -/
def Dev.onBufSlot (d : Dev) (handle i : Nat) (f : SlotRec → SlotRec) : Dev :=
  d.onBuf handle (fun b => { b with slots := modAt b.slots i f })

/-- Slot `i` of a buffer. -/
def Buf.slot (b : Buf) (i : Nat) : SlotRec := b.slots.getD i {}

/-- The generation after `g`: 1 to 63, wrapping to 1 (R147). -/
def nextGen (g : Nat) : Nat := if g ≥ 63 then 1 else g + 1

/-- The generation a descriptor index last had; 0 if it was never used. -/
def Dev.genOf (d : Dev) (i : Nat) : Nat := ((d.cru.gens.find? (fun p => p.1 == i)).map (·.2)).getD 0

/-- The lowest free descriptor index (assumption 4). -/
def Dev.freeDescriptor (d : Dev) : Option Nat :=
  (List.range 1024).find? (fun i => !d.cru.bufs.any (fun b => b.index == i))

/-! ## Slots, holds, selection (R152 to R155) -/

/-- A buffer's next sequence: up by 1, 1 after 0xFFFF_FFFF, never 0 (R152). -/
def nextSeq (s : Nat) : Nat := if s == 0xFFFFFFFF then 1 else s + 1

/-- The newest complete slot of a buffer (R152). -/
def Buf.newest (b : Buf) : Option Nat :=
  (List.range b.slots.length).foldl (fun best i =>
    if (b.slot i).state == .complete then
      match best with
      | none => some i
      | some j => if newer (b.slot i).seq (b.slot j).seq then some i else some j
    else best) none

/-- The newest complete slot of a buffer whose sequence is not above a limit, where one holds (R354). -/
def Buf.newestUpTo (b : Buf) : Option Nat → Option Nat
  | none => b.newest
  | some lim =>
    { b with slots := b.slots.map (fun (s : SlotRec) => if newer s.seq lim then { s with state := .empty } else s) }.newest

/-- A buffer as a latch line at instant `t` sees it: a slot completed in that core cycle or later is not seen (R187). -/
def Buf.seenAt (b : Buf) (t : Nat) : Buf :=
  { b with slots := b.slots.map (fun (s : SlotRec) => if s.doneAt.any (fun x => decide (t ≤ x)) then { s with state := .empty } else s) }

/-- The sequence that frame selection follows while the units are mirrored: SEL of the heat before (R354). -/
def Dev.selLimit (d : Dev) (handle : Nat) : Option Nat :=
  if d.pair.mirrored then some (((d.pair.selPrev.find? (fun p => p.1 == handle)).map (·.2)).getD 0) else none

/-- Whether a slot is held. -/
def SlotRec.held (s : SlotRec) : Bool := !s.holders.isEmpty

/-- A reader takes a hold on a slot. -/
def SlotRec.addHold (s : SlotRec) (h : Holder) : SlotRec :=
  { s with holders := if s.holders.any (· == h) then s.holders else s.holders ++ [h], unread := false }

/-- A reader releases its hold on a slot. -/
def SlotRec.dropHold (s : SlotRec) (h : Holder) : SlotRec := { s with holders := s.holders.filter (fun x => x != h) }

/-- The granules of a slot nobody holds go to clearing (R160). -/
def Dev.startClearing (d : Dev) (s : SlotRec) : Dev :=
  { d with cru := { d.cru with clearing := d.cru.clearing ++ s.granules } }

/-- A reader releases every hold it has, but on the slot (handle, index) `keep` names; slots of deleted buffers that lose
their last hold go to clearing (R153, R160). -/
def Dev.releaseHolds (d : Dev) (h : Holder) (keep : Option (Nat × Nat)) : Dev :=
  let drop (handle i : Nat) (s : SlotRec) : SlotRec := if keep == some (handle, i) then s else s.dropHold h
  let bufs := d.cru.bufs.map (fun b =>
    { b with slots := (List.range b.slots.length).map (fun i => drop b.handle i (b.slot i)) })
  let dying := d.cru.dying.map (fun x => { x with slot := drop x.handle x.idx x.slot })
  let freed := dying.filter (fun x => !x.slot.held)
  { d with cru := { d.cru with
      bufs := bufs
      dying := dying.filter (fun x => x.slot.held)
      clearing := d.cru.clearing ++ freed.flatMap (fun x => x.slot.granules) } }

/-- A reader takes a hold on slot `i` of a buffer and releases its other holds (R153). -/
def Dev.holdSlot (d : Dev) (h : Holder) (handle i : Nat) : Dev :=
  (d.releaseHolds h (some (handle, i))).onBufSlot handle i (fun s => s.addHold h)

/-- A slot with its picture's shape, live or of a deleted buffer a reader still holds. -/
structure SlotView where
  handle : Nat
  fmt    : Nat
  width  : Nat
  height : Nat
  stride : Nat
  slot   : SlotRec
  deriving DecidableEq, Repr, Inhabited

/-- The slot a reader fetches from. -/
def Dev.slotView (d : Dev) (handle i : Nat) : Option SlotView :=
  match d.buf handle with
  | some b => some ⟨handle, b.fmt, b.width, b.height, b.stride, b.slot i⟩
  | none =>
    (d.cru.dying.find? (fun x => x.handle == handle && x.idx == i)).map
      (fun x => ⟨x.handle, x.fmt, x.width, x.height, x.stride, x.slot⟩)

/-- The slot a sprue writes an arriving frame to (R155), for depth 2 or 3. Rule 1: neither held nor newest complete, Empty
first, else the lowest sequence; rule 2: the newest complete if not held; rule 3: none. A slot already in Writing from an
upload is not chosen. -/
def Buf.choose (b : Buf) : Option Nat :=
  let newest := b.newest
  let free := (List.range b.slots.length).filter (fun i =>
    !(b.slot i).held && some i != newest && (b.slot i).state != .writing)
  match free.find? (fun i => (b.slot i).state == .empty) with
  | some i => some i
  | none =>
    match free with
    | i :: l => some (l.foldl (fun best j => if newer (b.slot best).seq (b.slot j).seq then j else best) i)
    | [] =>
      match newest with
      | some i => if (b.slot i).held then none else some i
      | none => none

/-- The index, in a slot's bank set, of the bank with the fewest conflict cycles (R167). -/
def quietest (conflicts : List Nat) (place : List (Nat × List Nat)) : Nat :=
  (List.range place.length).foldl (fun best j =>
    let c (i : Nat) := conflicts.getD ((place.getD i (0, [])).1) 0
    if c j < c best then j else best) 0

/-- The stripe map a slot takes when it enters Writing (R151, R167). -/
def Dev.mapAtWrite (d : Dev) (depth : Nat) (s : SlotRec) : BitVec 16 :=
  let w := s.place.length
  if s.held || !d.cru.restripe || decide (depth < 2) || decide (w < 2) then s.map
  else
    let step := if w == 2 then 1 else (bits s.map.toNat 6 6 + 2) % w
    BitVec.ofNat 16 (quietest d.cru.conflicts s.place + step * 64)

/-- A slot becomes Complete and takes the buffer's next sequence (R152). `t`: the core cycle. -/
def Dev.completeSlot (d : Dev) (t handle i : Nat) : Dev :=
  d.onBuf handle (fun b =>
    let c := nextSeq b.counter
    { b with counter := c
             slots := modAt b.slots i (fun s =>
               { s with state := .complete, byUpload := false, seq := c, unread := !s.held, doneAt := some t }) })

/-- A slot becomes Empty. -/
def Dev.emptySlot (d : Dev) (handle i : Nat) : Dev :=
  d.onBufSlot handle i (fun s => { s with state := .empty, byUpload := false, seq := 0, upCrc := none })

/-! ## References (R160) -/

/-- The buffer handles an entry's value names in a role of R160. -/
def entryHandles (id : Nat) (v : PVal) : List Nat :=
  if id == P.sprue_target || id == P.vl_source then [v.toNat % 65536]
  else if id == P.gl_source then [v.toNat % 65536]
  else if id == P.vl_fallback then (if bits v.toNat 16 2 == 1 then [v.toNat % 65536] else [])
  else if id == P.cru_replay then (List.range 16).map (fun i => rd v.bytes (8 * i) 2)
  else []

/-- The handles a store's values name. -/
def Store.handles (s : Store) : List Nat := s.flatMap (fun kv => entryHandles (kv.1 / 256) kv.2)

/-- The commits not yet effective. -/
def Dev.pendingCommits (d : Dev) : List Commit := d.txn.commits.filter (fun c => c.state == .pending)

/-- Whether a buffer is referenced: by the configuration in force, a Pending commit, a scene of the running pattern or an
ingot's constituents (R160). -/
def Dev.referenced (d : Dev) (handle : Nat) : Bool :=
  has d.par.committed.handles handle ||
  d.pendingCommits.any (fun c => c.entries.any (fun e => has (entryHandles e.id e.val) handle)) ||
  has d.cru.sceneHandles handle || has d.cru.ingotHandles handle

/-- Delete a buffer (R160): the descriptor is free at once, slots readers hold go on until released, the others' granules
await clearing; 0x0606 with the reason. -/
def Dev.deleteBuf (d : Dev) (n : Now) (b : Buf) (reason : Nat) : Dev :=
  let idx := List.range b.slots.length
  let held := idx.filter (fun i => (b.slot i).held)
  let free := idx.filter (fun i => !(b.slot i).held)
  let dying := held.map (fun i => (⟨b.handle, b.fmt, b.width, b.height, b.stride, i, b.slot i⟩ : DyingSlot))
  let d := { d with cru := { d.cru with
      bufs := d.cru.bufs.filter (fun x => x.handle != b.handle)
      dying := d.cru.dying ++ dying
      clearing := d.cru.clearing ++ free.flatMap (fun i => (b.slot i).granules) } }
  d.raise n 0x0606 whole (leBytes 2 b.handle ++ leBytes 1 reason)

/-- Orphans no longer referenced are deleted at a heat boundary (R163). -/
def Dev.deleteOrphans (d : Dev) (n : Now) : Dev :=
  (d.cru.bufs.filter (fun b => b.owner == 0xFE && !d.referenced b.handle)).foldl (fun d b => d.deleteBuf n b 2) d

/-- A session's buffers become orphans when it closes (R163). -/
def Dev.orphanBufs (d : Dev) (n : Now) (slot session : Nat) : Dev :=
  (d.cru.bufs.filter (fun b => b.owner == slot)).foldl (fun d b =>
    (d.onBuf b.handle (fun b => { b with owner := 0xFE })).raise n 0x060A whole
      (leBytes 2 b.handle ++ leBytes 2 session)) d

/-- A session's buffers pass to the session that inherits its leases (R163). -/
def Dev.passBufs (d : Dev) (n : Now) (old oldId new newId : Nat) : Dev :=
  let k := (d.cru.bufs.filter (fun b => b.owner == old)).length
  if k == 0 then d
  else
    let bufs := d.cru.bufs.map (fun (b : Buf) => if b.owner == old then { b with owner := new } else b)
    Dev.raise { d with cru := { d.cru with bufs := bufs } } n 0x060B whole (leBytes 2 oldId ++ leBytes 2 newId ++ leBytes 2 k)

/-! ## Buffer messages (R158 to R162) -/

/-- The 24-byte descriptor of Table 7.3. -/
def Buf.descriptor (b : Buf) : Bytes :=
  let n := ceilDiv b.slotBytes 4096
  let flags := b2n b.retained + 2 * b2n (b.owner == 0xFF) + 4 * b2n (b.owner == 0xFE) +
    8 * b2n (b.slots.any (fun s => s.damaged))
  leBytes 1 b.fmt ++ leBytes 1 flags ++ leBytes 1 b.depth ++ leBytes 1 (fmtPlanes b.fmt) ++ leBytes 2 b.width ++
    leBytes 2 b.height ++ leBytes 4 b.stride ++ leBytes 4 b.slotBytes ++ leBytes 2 b.granules ++
    leBytes 1 (bankWidth n) ++ leBytes 1 b.owner ++ leBytes 4 0

/-- What BUF_CREATE asks for. -/
structure CreateReq where
  fmt      : Nat
  retained : Bool
  depth    : Nat
  width    : Nat
  height   : Nat
  stride   : Nat
  deriving DecidableEq, Repr, Inhabited

/-- Read a descriptor's bytes 0 to 11 (Table 7.3). -/
def createReq (b : Bytes) : CreateReq :=
  ⟨rd b 0 1, bit (rd b 1 1) 0, rd b 2 1, rd b 4 2, rd b 6 2, rd b 8 4⟩

/-- Create a buffer for an owner, testing in the order of R159; the owner's quota applies to sessions (R158). -/
def Dev.createBuf (d : Dev) (r : CreateReq) (owner : Nat) : Except Nat (Nat × Dev) :=
  if !knownFormat r.fmt then .error 0x8601
  else if !sizeOk r.fmt r.width r.height then .error 0x8602
  else match strideOf r.fmt r.width r.stride with
    | none => .error 0x8603
    | some stride =>
      if r.depth < 1 || 3 < r.depth then .error 0x8604
      else
        let n := ceilDiv (slotBytes r.fmt r.height stride) 4096
        let need := r.depth * (bankWidth n * granulesPerBank n)
        let mine := d.cru.bufs.filter (fun b => b.owner == owner)
        let have' := (mine.map (fun b => b.depth * b.granules)).sum
        if owner < 32 && (decide (d.cn P.cru_quota_buffers 0 < mine.length + 1) ||
            decide (d.cn P.cru_quota_granules 0 < have' + need)) then .error 0x8606
        else match d.freeDescriptor with
          | none => .error 0x8607
          | some i =>
            match allocSlots d.usedGranules r.retained n r.depth with
            | none => .error 0x8605
            | some slots =>
              let gen := nextGen (d.genOf i)
              let b : Buf := { index := i, gen := gen, fmt := r.fmt, retained := r.retained, owner := owner
                               depth := r.depth, width := r.width, height := r.height, stride := stride, slots := slots }
              .ok (b.handle, { d with cru := { d.cru with
                bufs := d.cru.bufs ++ [b]
                gens := (i, gen) :: d.cru.gens.filter (fun p => p.1 != i) } })

/-- BUF_CREATE (R159). -/
def handleBufCreate (d : Dev) (m : Msg) : Dev :=
  if m.j.payload.length != 12 then d.reject m 0x8206
  else match d.createBuf (createReq m.j.payload) (slotOf m.j.session) with
    | .error c => d.reject m c
    | .ok (h, d') =>
      let desc := ((d'.buf h).map Buf.descriptor).getD []
      d'.reply m 0 (leBytes 2 h ++ leBytes 2 0 ++ desc)

/-- Whether a session may upload to or delete a buffer (R158). -/
def mayWriteBuf (b : Buf) (slot cls : Nat) : Bool := b.owner == slot || (b.owner == 0xFF && cls == 3)

/-- BUF_DELETE (R160). -/
def handleBufDelete (d : Dev) (n : Now) (m : Msg) : Dev :=
  if m.j.payload.length != 4 then d.reject m 0x8206
  else
    let slot := slotOf m.j.session
    match d.buf (rd m.j.payload 0 2) with
    | none => d.reject m 0x8609
    | some b =>
      if !mayWriteBuf b slot (d.slot slot).cls then d.reject m 0x8608
      else if d.referenced b.handle then d.reject m 0x860A
      else (d.deleteBuf n b 1).reply m 0 []

/-- Whether a buffer is a sprue's target in the configuration in force or in a Pending commit (R157). -/
def Dev.sprueTargets (d : Dev) (handle : Nat) : Bool :=
  (List.range 16).any (fun i => d.cn P.sprue_target i == handle) ||
  d.pendingCommits.any (fun c => c.entries.any (fun e => e.id == P.sprue_target && e.val.toNat % 65536 == handle))

/-- BUF_UPLOAD (R161): the tests in order, then the data waits for background class. -/
def handleBufUpload (d : Dev) (n : Now) (m : Msg) : Dev :=
  let p := m.j.payload
  let slot := slotOf m.j.session
  let handle := rd p 0 2
  let i := rd p 2 1
  let plane := rd p 3 1
  let flags := rd p 4 1
  let offset := rd p 8 4
  let data := p.drop 12
  if p.length < 12 then d.reject m 0x8206
  else match d.buf handle with
    | none => d.reject m 0x8609
    | some b =>
      let s := b.slot i
      if !mayWriteBuf b slot (d.slot slot).cls then d.reject m 0x8608
      else if d.sprueTargets handle then d.reject m 0x860B
      else if decide (b.depth ≤ i) || decide (fmtPlanes b.fmt ≤ plane) ||
          decide (b.stride * planeLines b.fmt plane b.height < offset + data.length) then d.reject m 0x860C
      else if data.isEmpty && !bit flags 1 then d.reject m 0x860C
      else if s.held && !bit flags 2 then d.reject m 0x860D
      else if !(s.state == .writing && s.byUpload) && !bit flags 0 then d.reject m 0x860C
      else
        let map := if bit flags 0 then d.mapAtWrite b.depth s else s.map
        let d := d.onBufSlot handle i (fun s =>
          { s with state := .writing, byUpload := true, lastUpload := n.heat, map := map
                   damaged := if bit flags 0 then false else s.damaged, upCrc := none })
        { d with cru := { d.cru with uploads := d.cru.uploads ++
            [⟨handle, i, plane, offset, bit flags 1, data, m.held 0 []⟩] } }

/-- One 12-byte slot record of BUF_QUERY (R162). -/
def SlotRec.record (s : SlotRec) : Bytes :=
  let st := match s.state with | .empty => 0 | .writing => 1 | .complete => 2
  leBytes 1 st ++ leBytes 1 s.holders.length ++ leBytes 2 s.map.toNat ++ leBytes 4 s.seq ++ leBytes 1 (b2n s.damaged) ++
    leBytes 3 0

/-- BUF_QUERY (R162). -/
def handleBufQuery (d : Dev) (m : Msg) : Dev :=
  if m.j.payload.length != 4 then d.reject m 0x8206
  else match d.buf (rd m.j.payload 0 2) with
    | none => d.reject m 0x8609
    | some b =>
      let recs := (List.range 3).flatMap (fun i => if i < b.slots.length then (b.slot i).record else leBytes 12 0)
      d.reply m 0 (leBytes 2 b.handle ++ leBytes 2 0 ++ b.descriptor ++ recs)

/-! ## The crucible's own commands -/

/-- A write reaches a bank armed by `cru.ecc_inject`: the armed error stands in the RAM and the arm clears (R172). -/
def Dev.takeInject (d : Dev) (banks : List Nat) : Dev :=
  match d.cru.inject with
  | some (bank, double) =>
    if has banks bank then
      { d with cru := { d.cru with inject := none, injected := d.cru.injected ++ [(bank, double)] } }
    else d
  | none => d

/-- The CRC-32 of R139 over the planes of a slot (Table 16.4). -/
def planesCrc (m : Mem) (b : Buf) (s : SlotRec) : BitVec 32 :=
  crc32 ((List.range (fmtPlanes b.fmt)).flatMap (fun p =>
    slotReads m s (planeStart b.fmt b.height b.stride p) (b.stride * planeLines b.fmt p b.height)))

/-- UPLOAD_WRITTEN (R161): the oldest accepted upload's data is written, its slot completes if it was the last, and the
reply waits for the next message window. -/
def uploadWritten (x : DM) (n : Now) : DM :=
  match x.dev.cru.uploads with
  | [] => x
  | u :: rest =>
    let d := { x.dev with cru := { x.dev.cru with uploads := rest } }
    match d.buf u.handle with
    | none => ⟨d.hold u.reply, x.mem⟩
    | some b =>
      let s := b.slot u.slot
      let at' := planeStart b.fmt b.height b.stride u.plane + u.offset
      let mem := slotWrites x.mem s at' u.data
      let d := d.takeInject (s.banks at' u.data.length)
      let d := d.onBufSlot u.handle u.slot (fun r => { r with writes := r.writes + 1 })
      let d := if u.last then
          (d.completeSlot n.abs u.handle u.slot).onBufSlot u.handle u.slot (fun r => { r with upCrc := some (planesCrc mem b s) })
        else d
      ⟨d.hold u.reply, mem⟩

/-- UPLOAD_TIMEOUT (R161): a slot in Writing from an upload that none has named for `cru.upload_timeout_heats` becomes
Empty, with 0x0605. -/
def uploadTimeout (d : Dev) (n : Now) (handle i : Nat) : Dev :=
  match d.buf handle with
  | none => d
  | some b =>
    let s := b.slot i
    if s.state == .writing && s.byUpload && decide (s.lastUpload + d.cn P.cru_upload_timeout_heats 0 ≤ n.heat) then
      (d.emptySlot handle i).raise n 0x0605 whole (leBytes 2 handle ++ leBytes 1 i)
    else d

/-- GRANULE_CLEARED (R160): a granule awaiting clearing is zeroed and returns to the free pool. -/
def granuleCleared (x : DM) (bank granule : Nat) : DM :=
  if x.dev.cru.clearing.any (fun g => g == (bank, granule)) then
    ⟨({ x.dev with cru := { x.dev.cru with clearing := x.dev.cru.clearing.filter (fun g => g != (bank, granule)) } } : Dev).takeInject [bank],
     memZero x.mem (bank * 1048576 + granule * 4096) 4096⟩
  else x

/-- The slot that occupies a granule, of a live buffer or of a deleted one that a reader still holds: handle and slot index. -/
def Dev.slotAt (d : Dev) (bank granule : Nat) : Option (Nat × Nat) :=
  let lies (s : SlotRec) : Bool := s.granules.any (fun g => g == (bank, granule))
  match d.cru.bufs.findSome? (fun b => (List.range b.slots.length).findSome? (fun i => if lies (b.slot i) then some (b.handle, i) else none)) with
  | some who => some who
  | none => (d.cru.dying.find? (fun x => lies x.slot)).map (fun x => (x.handle, x.idx))

/-- A slot is marked damaged, also one of a deleted buffer (R168). -/
def Dev.markDamaged (d : Dev) (handle i : Nat) : Dev :=
  let d := d.onBufSlot handle i (fun s => { s with damaged := true })
  { d with cru := { d.cru with dying := d.cru.dying.map (fun (x : DyingSlot) =>
      if x.handle == handle && x.idx == i then { x with slot := { x.slot with damaged := true } } else x) } }

/-- A corrected error (R168): counted, also for this heat's 0x0601; 0x0603 when more than `cru.ecc_rate_limit` fall within 8,000 heats. -/
def eccCorrected (d : Dev) (n : Now) (bank : Nat) : Dev :=
  let tally := d.cru.eccHeat.note n (leBytes 1 bank)
  let recent := (d.cru.corrected.filter (fun h => decide (n.heat < h + 8000))) ++ [n.heat]
  let beyond := decide (d.cn P.cru_ecc_rate_limit 0 < recent.length)
  let tell := beyond && !d.cru.rateTold
  let d := { d with cru := { d.cru with eccHeat := tally, corrected := recent, rateTold := beyond } }
  let d := d.bumpField P.cru_ecc_counts 0 0 32 1
  if tell then d.raise n 0x0603 whole (leBytes 4 recent.length) else d

/-- 0x0601 for the heat that ends (R168): the corrected errors and the last one's bank. -/
def Dev.tellEcc (d : Dev) : Dev :=
  let t := d.cru.eccHeat
  ({ d with cru := { d.cru with eccHeat := {} } } : Dev).tell t 0x0601 whole (t.bytes ++ t.last)

/-- An uncorrectable error (R168): the 64-bit group is delivered as zeros, the slot is damaged, 0x0602, an entry in the log.
The log keeps the last 16. -/
def eccUncorrectable (x : DM) (n : Now) (bank granule group : Nat) : DM :=
  let d := x.dev.bumpField P.cru_ecc_counts 0 32 32 1
  let who := d.slotAt bank granule
  let (handle, i) := who.getD (0, 0)
  let d := match who with
    | some (h, i) => d.markDamaged h i
    | none => d
  let log := (d.cru.eccLog ++ [⟨handle, i, bank, granule, n⟩])
  let d := { d with cru := { d.cru with eccLog := log.drop (log.length - 16) } }
  ⟨d.raise n 0x0602 whole (leBytes 2 handle ++ leBytes 1 i ++ leBytes 1 bank ++ leBytes 2 granule),
   memZero x.mem (bank * 1048576 + granule * 4096 + (group % 512) * 8) 8⟩

/-- The injected error that a read of a bank finds is used up. -/
def Dev.dropInjected (d : Dev) (bank : Nat) (double : Bool) : Dev :=
  { d with cru := { d.cru with injected := d.cru.injected.erase (bank, double) } }

/-- The granules the patrol scrubber reads: every allocated one (R169). -/
def Dev.allocated (d : Dev) : Nat :=
  (d.cru.bufs.flatMap (fun b => b.slots.flatMap SlotRec.granules)).length + (d.cru.dying.flatMap (fun s => s.slot.granules)).length +
    (d.cru.ingots.flatMap (fun p => p.2)).length

/-- The allocated granules of the retained region. -/
def Dev.allocatedRetained (d : Dev) : Nat :=
  (d.usedGranules.filter (fun g => decide (224 ≤ g.2) && !d.cru.clearing.any (· == g))).length

/-- The patrol scrubber's work of a heat (R169): so many granules of the pass in progress. Since a wake the retained region comes first, and
only when it is done does the pass go on. -/
def Dev.scrubStep (d : Dev) (k : Nat) : Dev :=
  if d.cn P.cru_scrub_period_s 0 == 0 then d
  else
    let s := min d.allocated (d.cru.scrubbed + k)
    { d with cru := { d.cru with scrubbed := s, scrubFirst := d.cru.scrubFirst && decide (s < d.allocatedRetained) } }

/-- Whether `cru.scrub_period_s` has passed since the last patrol pass; 0 is off. -/
def Dev.scrubDue (d : Dev) (n : Now) : Bool :=
  let p := d.cn P.cru_scrub_period_s 0
  p != 0 && d.cru.scrubAt.all (fun t => decide (t + p * 800000000 ≤ n.abs))

/-- SCRUB_PASS (R169): one patrol pass over every allocated granule ends, once per period; the next begins with none scrubbed. -/
def scrubPass (d : Dev) (n : Now) : Dev :=
  if !d.scrubDue n then d
  else
    { d with cru := { d.cru with
        scrubPass := sat 16 (d.cru.scrubPass + 1), scrubbed := 0, scrubAt := some n.abs, scrubFirst := false } }

/-- After a wake the scrubber begins anew, with the retained region (R169). -/
def Dev.scrubWake (d : Dev) : Dev := { d with cru := { d.cru with scrubbed := 0, scrubAt := none, scrubFirst := true } }

/-- The hard window reads the previous heat's bank counts and chooses the re-striping (R165, R167). -/
def crucibleHard (d : Dev) (n : Now) (h : HardIn) : Dev :=
  let sum := h.conflicts.sum
  let re := d.cn P.cru_restripe 0 == 1 && decide (d.cn P.cru_restripe_min 0 ≤ sum)
  let hot := (List.range 64).map (fun b =>
    if decide (d.cn P.cru_hot_pct 0 * heatCycles < 100 * h.busy.getD b 0) then d.cru.hotRun.getD b 0 + 1 else 0)
  let d := { d with cru := { d.cru with conflicts := h.conflicts, busy := h.busy, restripe := re, hotRun := hot
                                        latHist := (sat 16 h.latMaxD :: d.cru.latHist).take 8 } }
  let d := (List.range 64).foldl (fun d b =>
    if hot.getD b 0 == 8 then
      d.raise n 0x0609 whole (leBytes 1 b ++ leBytes 1 (h.busy.getD b 0 * 100 / heatCycles)) else d) d
  let d := d.scrubStep h.scrubbed
  let d := d.putField P.cru_lat_stats 0 0 16 (sat 16 h.latMeanU)
  let d := d.putField P.cru_lat_stats 0 16 16 (sat 16 h.latMaxU)
  let d := d.putField P.cru_lat_stats 0 32 16 (sat 16 h.latMaxD)
  let d := d.putField P.cru_lat_stats 0 48 16 (max (bits (d.sn P.cru_lat_stats 0) 48 16) (sat 16 h.latMaxU))
  h.slowU.foldl (fun d (b, c) =>
    let d := if decide (1200 < c) then d.bump P.cru_lat_overrun_count 0 else d
    if decide (d.cn P.cru_lat_alert_cycles 0 < c) && d.cru.alertHeat.getD b none != some n.heat then
      ({ d with cru := { d.cru with alertHeat := modAt d.cru.alertHeat b (fun _ => some n.heat) } }).raise n 0x0608
        whole (leBytes 1 b ++ leBytes 1 0 ++ leBytes 2 c)
    else d) d

/-- A reader's frame fetched lines of two input frames from a depth-1 buffer: a tear (R156), counted, and 0x0607 at most
once per reader per heat. -/
def tear (d : Dev) (n : Now) (h : Holder) (handle : Nat) : Dev :=
  let (kind, inst) := match h with
    | .video i => (0, i) | .graphic i => (1, i) | .replay i => (2, i) | .ingot i => (1, i)
  let d := d.bump P.cru_tear_count 0
  if d.cru.tearHeat.any (fun p => p == (h, n.heat)) then d
  else
    ({ d with cru := { d.cru with tearHeat := (h, n.heat) :: d.cru.tearHeat.filter (fun p => p.1 != h) } }).raise n 0x0607
      whole (leBytes 2 handle ++ leBytes 1 kind ++ leBytes 1 inst)

/-- At Banked entry (R170): holds are released; slots not kept become Empty. -/
def crucibleBanked (d : Dev) : Dev :=
  let keep := d.cn P.cru_retention_en 0 == 1
  let bufs := d.cru.bufs.map (fun b => { b with slots := b.slots.map (fun s =>
    let s := { s with holders := [] }
    if b.retained && keep then s else { s with state := .empty, byUpload := false, seq := 0, upCrc := none }) })
  { d with cru := { d.cru with
      bufs := bufs
      dying := []
      clearing := d.cru.clearing ++ d.cru.dying.flatMap (fun x => x.slot.granules)
      uploads := [] } }

/-! ## Arbitration (R164) -/

/-- The class a request at a bank is served in: U 0, D 1, W 2, B 3; by its own class and the core cycles it has waited, as `cru.age_cycles` ages it. -/
def Dev.servedAs (d : Dev) (cls waited : Nat) : Nat :=
  let age := d.cn P.cru_age_cycles 0
  if cls == 2 && decide (age ≤ waited) then 1 else if cls == 3 && decide (4 * age ≤ waited) then 2 else cls

/-- The request (class, cycles waited) a bank serves next: the highest class first, within it the oldest. -/
def Dev.bankServes (d : Dev) (l : List (Nat × Nat)) : Option (Nat × Nat) :=
  l.foldl (fun best r =>
    match best with
    | none => some r
    | some b =>
      let x := d.servedAs r.1 r.2
      let y := d.servedAs b.1 b.2
      if x < y || (x == y && decide (b.2 < r.2)) then some r else some b) none

end Sys2Proof.Machine
end

