-- ==== Sys2Proof/Machine/Leases.lean ====
section
/-!
DEFINITION. Leases (R57 to R61): the resources, who may hold them, grant, renewal, release, lapse and expiry policy, and
the cancellation of commits that lose a lease (R92).
-/

namespace Sys2Proof.Machine

/-! ## Resources (Table 3.10) -/

/-- The kinds' codes: receive port. -/
abbrev kRx : Nat := 0x01
/-- Transmit port. -/
abbrev kTx : Nat := 0x02
/-- Stream. -/
abbrev kStream : Nat := 0x03
/-- Sprue. -/
abbrev kSprue : Nat := 0x04
/-- Mould. -/
abbrev kMould : Nat := 0x05
/-- Check windows of a mould. -/
abbrev kChk : Nat := 0x06

/-- Whether a kind and index name a resource of the variant (Table 3.10). -/
def leaseExists (v : Variant) (kind idx : Nat) : Bool :=
  let small := v == .ely1208
  match kind with
  | 0x01 => decide (idx < if small then 12 else 24)
  | 0x02 => decide (idx < if small then 8 else 16)
  | 0x03 => decide (idx < 128)
  | 0x04 => decide (idx < if small then 8 else 16)
  | 0x05 => decide (idx < if small then 6 else 12)
  | 0x06 => decide (idx < if small then 6 else 12)
  | 0x07 => decide (1 ≤ idx) && decide (idx ≤ 3)
  | 0x08 => decide ((if small then 8 else 16) ≤ idx) && decide (idx ≤ 19)
  | 0x09 => decide (idx < 12)
  | 0x0A => decide (idx < 4)
  | 0x0B => decide (idx < 16)
  | 0x0C => decide (idx < 8)
  | 0x0D => decide (idx < 8)
  | 0x0E => decide (idx < 6)
  | 0x0F => decide (idx < 8)
  | 0x10 => decide (idx < 32)
  | _ => false

/-- Whether a class may hold a lease of a kind (Table 3.10). -/
def classMayLease (kind cls : Nat) : Bool := if kind == kChk then decide (2 ≤ cls) else decide (1 ≤ cls)

/-- Who may write a parameter instance (Table 3.10, R58). -/
inductive Governs where
  /-- The lease of a kind and index. -/
  | lease (kind idx : Nat)
  /-- Maintainer sessions only. -/
  | maintainer
  /-- Safety and Maintainer sessions. -/
  | safety
  deriving DecidableEq, Repr, Inhabited

/-- The lease or class that governs a parameter instance (Table 3.10, R58). -/
def governs (v : Variant) (id inst : Nat) : Governs :=
  let base := ((groupOf id).map (·.base)).getD 0
  match base with
  | 0x0200 => .lease 0x01 inst
  | 0x0300 => .lease 0x02 inst
  | 0x0400 => .lease 0x03 inst
  | 0x0500 => .lease 0x04 inst
  | 0x0700 => .lease 0x05 inst
  | 0x0800 => .lease 0x05 (inst / 3)
  | 0x0900 => .lease 0x05 (inst / 5)
  | 0x0A00 => .lease 0x02 inst
  | 0x0B00 => .lease 0x06 (inst / 8)
  | 0x0C00 => if inst == 0 then .maintainer else .lease 0x07 inst
  | 0x0C40 => if leaseExists v 0x02 inst then .lease 0x02 inst else .lease 0x08 inst
  | 0x0D00 => .lease 0x09 inst
  | 0x0D40 => .lease 0x0A inst
  | 0x0D60 => .lease 0x0B inst
  | 0x0D80 => .lease 0x0C inst
  | 0x1100 => .lease 0x0D inst
  | 0x1120 => .lease 0x0E inst
  | 0x1140 => .lease 0x0F inst
  | 0x1160 => .lease 0x10 inst
  | 0x1200 => .safety
  | _ => .maintainer

/-- The resource whose lease covers a parameter instance, if one does. -/
def coveredBy (v : Variant) (id inst : Nat) : Option (Nat × Nat) :=
  match governs v id inst with
  | .lease k i => some (k, i)
  | _ => none

/-- The resources a transaction's values name as destinations or sinks (R86): a stream's outputs, an inserter's port (R318), and the generators a
mould is moved to and from. `before` gives a mould's output before the transaction. -/
def namedSinks (before : Nat → Nat) (e : Entry) : List (Nat × Nat) :=
  let v := e.val.toNat
  if e.id == P.stream_dest then
    (setBits 16 v).map (fun i => (0x02, i)) ++
    ((List.range 16).filter (fun i => bit v (16 + i))).map (fun i => (0x04, i)) ++
    ((List.range 8).filter (fun i => bit v (40 + i))).map (fun i => (0x0C, i))
  else if e.id == P.mould_output then
    let old := before e.inst
    (if v % 256 == 0xFF then [] else [(0x02, v % 256)]) ++
    (if old == 0xFF || old == v % 256 then [] else [(0x02, old)])
  else if e.id == P.eaud_ctrl && bits v 0 2 == 2 then [(0x02, bits v 20 4)]
  else []

/-! ## Holding (R59, R60) -/

/-- The lease records of a resource. -/
def Dev.leaseOn (d : Dev) (kind idx : Nat) : Option Lease :=
  d.ctl.leases.find? (fun l => l.kind == kind && l.idx == idx)

/-- Whether a lease is held at an instant: from its deadline on it is not (R60). -/
def Lease.live (l : Lease) (t : Nat) : Bool := decide (t < l.deadline)

/-- Whether a session's slot holds a resource at an instant. -/
def Dev.holds (d : Dev) (t slot kind idx : Nat) : Bool :=
  d.ctl.leases.any (fun l => l.kind == kind && l.idx == idx && l.slot == slot && l.live t)

/-- Whether any session holds a resource at an instant. -/
def Dev.heldByAny (d : Dev) (t kind idx : Nat) : Bool :=
  d.ctl.leases.any (fun l => l.kind == kind && l.idx == idx && l.live t)

/-- Renewal of a session's live leases at an authenticated message's arrival (R59). -/
def Dev.renewLeases (d : Dev) (slot arrival : Nat) : Dev :=
  { d with ctl := { d.ctl with leases := d.ctl.leases.map (fun l =>
      if l.slot == slot && l.live arrival then { l with deadline := arrival + l.timeout * msCycles } else l) } }

/-! ## Cancelling commits (R92, R93) -/

/-- The resources a commit touches: those whose leases cover its entries (R90). -/
def Commit.touches (v : Variant) (c : Commit) : List (Nat × Nat) := c.entries.filterMap (fun e => coveredBy v e.id e.inst)

/-- The leases a commit relies on: those it touches and those its values name as sinks (R86). -/
def Dev.reliesOn (d : Dev) (c : Commit) : List (Nat × Nat) :=
  c.touches d.variant ++ c.entries.flatMap (namedSinks (fun m => d.cn P.mould_output m))

/-- The DETAIL of 0x0212 and 0x0C09: session ID and transaction ID. -/
def Commit.detail (c : Commit) : Bytes := leBytes 2 c.session ++ leBytes 4 c.txn

/-- The message type of a commit's request. -/
def Commit.typ (c : Commit) : Nat := if c.learn.isSome then 0x0903 else if c.isSet then 0x0231 else 0x0234

/-- Cancel the Pending commits `p` selects (R92): each as a whole, with event `code` (0: none); where a session waits, its reply
carries 0x823A and no records (Table 4.5). Every later Pending commit is to be re-checked (R93). -/
def Dev.cancelCommits (d : Dev) (n : Now) (code : Nat) (p : Commit → Bool) (reply : Bool) : Dev :=
  let gone := d.txn.commits.filter (fun c => c.state == .pending && p c)
  let later (c : Commit) : Bool := gone.any (fun g => decide (g.eff < c.eff) || (g.eff == c.eff && decide (g.acc < c.acc)))
  let kept := (d.txn.commits.filter (fun c => !(c.state == .pending && p c))).map (fun c =>
    if c.state == .pending && later c then { c with recheck := true } else c)
  let d := { d with txn := { d.txn with commits := kept } }
  gone.foldl (fun d c =>
    let d := if code == 0 then d else d.raise n code whole c.detail
    let data := leBytes 4 c.txn ++ leBytes 8 0 ++ leBytes 4 c.cycles ++ leBytes 4 0
    if reply && decide (c.slot < 32) then d.hold ⟨c.slot, c.session, c.typ, c.reqSeq, c.route, 0x823A, data⟩ else d) d

/-! ## Expiry (R60, R61) -/

/-- The entry of `ctl.expiry_table` for a resource: policy and scene number. -/
def expiryEntry (table : Bytes) (kind idx : Nat) : Option (Nat × Nat) :=
  (List.range (table.length / 4)).findSome? (fun i =>
    if rd table (4 * i) 1 == kind && rd table (4 * i + 1) 1 == idx then
      some (rd table (4 * i + 2) 1, rd table (4 * i + 3) 1) else none)

/-- Whether policies 1 and 2 are valid for a kind (R61). -/
def expiryVisual (kind : Nat) : Bool := kind == kTx || kind == kMould

/-- The expiry policy and scene of a resource (R61): its table entry, else the default, which acts as revert where 1 or 2
is not valid. -/
def Dev.expiryOf (d : Dev) (kind idx : Nat) : Nat × Nat :=
  match expiryEntry (d.cb P.ctl_expiry_table 0) kind idx with
  | some p => p
  | none =>
    let p := d.cn P.ctl_expiry_default 0
    (if (p == 1 || p == 2) && !expiryVisual kind then 3 else p, 0xFF)

/-- The DETAIL of 0x0210 and 0x0211. -/
def Dev.leaseDetail (d : Dev) (l : Lease) : Bytes :=
  leBytes 1 l.kind ++ leBytes 1 l.idx ++ leBytes 2 l.session ++ leBytes 1 (d.expiryOf l.kind l.idx).1

/-- The expiry policy of a resource waits for the next heat boundary (R59, R60). -/
def Dev.scheduleExpiry (d : Dev) (n : Now) (kind idx : Nat) : Dev :=
  let (p, s) := d.expiryOf kind idx
  { d with ctl := { d.ctl with expiries := d.ctl.expiries ++ [⟨kind, idx, p, s, n.heat + 1⟩] } }

/-- The end of a session's lease is noted (Table 3.7 reason 1): from `at'` on the session does not hold it. -/
def Dev.leaseEnded (d : Dev) (slot at' : Nat) : Dev := d.onSlot slot (fun s => { s with leaseEnd := max s.leaseEnd at' })

/-- Remove a resource's lease record. -/
def Dev.dropLease (d : Dev) (kind idx : Nat) : Dev :=
  { d with ctl := { d.ctl with leases := d.ctl.leases.filter (fun l => !(l.kind == kind && l.idx == idx)) } }

/-- The mode the absence or presence of leases asks for (R58, Table 19.2 causes 8 and 9). -/
def Dev.askLeaseMode (d : Dev) : Dev :=
  if d.ctl.leases.isEmpty then (if d.pwr.mode == .run then d.askMode 9 else d)
  else if d.pwr.mode == .autonomous then d.askMode 8 else d

/-- Steps 1 and 2 of a lapse (R60): 0x0210, and every Pending commit that touches the resource, or is of the lease's session
and relies on it, is cancelled with 0x0212. The lease record goes. -/
def Dev.lapseSteps (d : Dev) (n : Now) (l : Lease) : Dev :=
  let d' := ((d.dropLease l.kind l.idx).leaseEnded l.slot l.deadline).raise n 0x0210 whole (d.leaseDetail l)
  d'.cancelCommits n 0x0212 (fun c => c.touches d.variant |>.any (· == (l.kind, l.idx)) |> (· ||
    (c.session == l.session && (d.reliesOn c).any (· == (l.kind, l.idx))))) true

/-- The PARTNER_ID of a mirrored lease (R368); 0 for none. -/
def Dev.leasePartner (d : Dev) (l : Lease) : Nat :=
  if l.slot < 32 then (d.slot l.slot).partner else ((d.pair.partners.find? (fun p => p.1 == (l.kind, l.idx))).map (·.2)).getD 0

/-- The PARTNER_ID of a buffer's owner; 0 for none. -/
def Dev.bufPartner (d : Dev) (b : Buf) : Nat :=
  if b.owner < 32 then (d.slot b.owner).partner
  else if b.owner == 0xFD then ((d.pair.bufOwners.find? (fun p => p.1 == b.handle)).map (·.2)).getD 0
  else 0

/-- Mirrored buffers whose owner holds no mirrored lease any more become orphans (R368). -/
def Dev.orphanUnattached (d : Dev) : Dev :=
  let held := (d.ctl.leases.filter (fun l => l.slot == 32)).map d.leasePartner
  { d with cru := { d.cru with bufs := d.cru.bufs.map (fun (b : Buf) =>
      if b.owner == 0xFD && !has held (d.bufPartner b) then { b with owner := 0xFE } else b) } }

/-- Mirrored leases and buffers attach to the open session of their partner (R368): 0x0C0D. `renew`: at a PROVE they are renewed (R55). -/
def Dev.attachLeases (d : Dev) (n : Now) (slot arrival : Nat) (renew : Bool) : Dev :=
  let s := d.slot slot
  let mine (l : Lease) : Bool := l.slot == 32 && d.leasePartner l == s.partner && l.live arrival
  let k := (d.ctl.leases.filter mine).length
  let leases := d.ctl.leases.map (fun (l : Lease) =>
    if mine l then
      let t := (Config.mirroredTimeout l.kind l.idx).toNat
      { l with slot := slot, session := s.id slot, timeout := t, deadline := if renew then arrival + t * msCycles else l.deadline }
    else l)
  let bufs := d.cru.bufs.map (fun (b : Buf) => if b.owner == 0xFD && d.bufPartner b == s.partner then { b with owner := slot } else b)
  if d.pair.role == .standby || s.state != .open then d
  else
    let d : Dev := { d with ctl := { d.ctl with leases := leases }, cru := { d.cru with bufs := bufs } }
    if k == 0 then d else d.raise n 0x0C0D whole (leBytes 2 k ++ leBytes 8 s.partner)

/-- A lease lapses (R60): steps 1 to 3. -/
def Dev.lapse (d : Dev) (n : Now) (l : Lease) : Dev :=
  let d := ((d.lapseSteps n l).scheduleExpiry n l.kind l.idx).askLeaseMode
  if l.slot == 32 then d.orphanUnattached else d

/-- The hard window's first task (R60): every lease whose deadline lies before this heat's boundary lapses. -/
def Dev.lapseDue (d : Dev) (n : Now) : Dev :=
  if d.pair.role == .standby then d
  else (d.ctl.leases.filter (fun l => decide (l.deadline < n.heat * heatCycles))).foldl (fun d l => d.lapse n l) d

/-- LEASE_LAPSE (R60): the lease of a resource whose deadline has passed lapses. It is work of the controllers (Table 2.4, R22). -/
def leaseLapse (d : Dev) (n : Now) (kind idx : Nat) : Dev :=
  match d.leaseOn kind idx with
  | some l => if d.fwRuns && decide (l.deadline < n.heat * heatCycles) && d.pair.role != .standby then d.lapse n l else d
  | none => d

/-! ## Messages (R59) -/

/-- The entries of a LEASE or RELEASE list. -/
def leaseList (p : Bytes) : List (Nat × Nat) :=
  (List.range (rd p 2 2)).map (fun i => (rd p (4 + 2 * i) 1, rd p (5 + 2 * i) 1))

/-- Whether a LEASE or RELEASE payload has the length its count gives (R491), with a count of 1 to 64. -/
def leaseListOk (p : Bytes) : Bool :=
  let k := rd p 2 2
  decide (4 ≤ p.length) && decide (1 ≤ k) && decide (k ≤ 64) && p.length == 4 + 2 * k

/-- Lapses that a LEASE brings forward (R60): the old lease of each named resource whose deadline has passed lapses by
steps 1 and 2. -/
def Dev.lapseNamed (d : Dev) (n : Now) (l : List (Nat × Nat)) : Dev × List (Nat × Nat) :=
  l.foldl (fun (d, gone) (k, i) =>
    match d.leaseOn k i with
    | some x => if x.live n.abs then (d, gone) else (d.lapseSteps n x, gone ++ [(k, i)])
    | none => (d, gone)) (d, [])

/-- The first entry of a LEASE that fails, with its code and the holder's class for 0x8210 (R59). -/
def Dev.leaseFailure (d : Dev) (t slot cls : Nat) (l : List (Nat × Nat)) : Option (Nat × Nat × Nat) :=
  (List.range l.length).findSome? (fun i =>
    let (k, x) := l.getD i (0, 0)
    if !leaseExists d.variant k x then some (i, 0x8213, 0)
    else if !classMayLease k cls then some (i, 0x8211, 0)
    else match d.leaseOn k x with
      | some h => if h.live t && h.slot != slot then some (i, 0x8210, (d.slot h.slot).cls) else none
      | none => none)

/-- Grant or renew one resource (R59): the deadline is the timeout after the request's arrival, whatever else of the session has arrived
since (DESIGN CHOICE, assumption 67). -/
def Dev.grant (d : Dev) (slot session timeout arrival kind idx : Nat) : Dev :=
  let d := d.dropLease kind idx
  { d with ctl := { d.ctl with leases := d.ctl.leases ++ [⟨kind, idx, slot, session, timeout, arrival + timeout * msCycles⟩] } }

/-- LEASE (R59, R60): all or none. Where a rejected one brought a lapse forward, step 3 follows at the boundary that ends the heat in which
it was handled (DESIGN CHOICE, assumption 67). -/
def handleLease (d : Dev) (n : Now) (m : Msg) : Dev :=
  let p := m.j.payload
  let slot := slotOf m.j.session
  let timeout := rd p 0 2
  if !leaseListOk p then d.reject m 0x8206
  else if timeout == 0 || decide (d.cn P.ctl_lease_max_ms 0 < timeout) then d.reject m 0x8212
  else
    let l := leaseList p
    let (d, gone) := d.lapseNamed n l
    match d.leaseFailure n.abs slot (d.slot slot).cls l with
    | some (i, code, cls) =>
      let d := (gone.foldl (fun d (k, x) => d.scheduleExpiry n k x) d).askLeaseMode
      d.reply m code (leBytes 2 i ++ (if code == 0x8210 then leBytes 1 cls else []))
    | none =>
      let d := l.foldl (fun d (k, x) => d.grant slot m.j.session timeout m.arrival k x) d
      d.askLeaseMode.reply m 0 []

/-- Release one lease (R59): 0x0211, the session's commits that rely on it are cancelled, the expiry policy waits for the
next boundary. -/
def Dev.releaseLease (d : Dev) (n : Now) (l : Lease) : Dev :=
  let d' := ((d.dropLease l.kind l.idx).leaseEnded l.slot n.abs).raise n 0x0211 whole (d.leaseDetail l)
  let d' := d'.cancelCommits n 0x0212 (fun c => c.session == l.session && (d.reliesOn c).any (· == (l.kind, l.idx))) true
  (d'.scheduleExpiry n l.kind l.idx).askLeaseMode

/-- The first entry of a RELEASE that fails (R59). -/
def Dev.releaseFailure (d : Dev) (t slot : Nat) (l : List (Nat × Nat)) : Option (Nat × Nat) :=
  (List.range l.length).findSome? (fun i =>
    let (k, x) := l.getD i (0, 0)
    if !leaseExists d.variant k x then some (i, 0x8213)
    else if !d.holds t slot k x then some (i, 0x8214) else none)

/-- RELEASE (R59): all or none. -/
def handleRelease (d : Dev) (n : Now) (m : Msg) : Dev :=
  let p := m.j.payload
  let slot := slotOf m.j.session
  if !leaseListOk p then d.reject m 0x8206
  else
    let l := leaseList p
    match d.releaseFailure n.abs slot l with
    | some (i, code) => d.reply m code (leBytes 2 i)
    | none =>
      let d := l.foldl (fun d (k, x) => match d.leaseOn k x with | some y => d.releaseLease n y | none => d) d
      d.reply m 0 []

/-- RENEW (R59): an empty message; the renewal itself was taken when its tag verified. -/
def handleRenew (d : Dev) (m : Msg) : Dev := if m.j.payload.isEmpty then d.reply m 0 [] else d.reject m 0x8206

/-- Every lease of a closing session is released (R56, R59); one whose deadline has passed is no longer held and lapses
(R60). -/
def Dev.releaseAll (d : Dev) (n : Now) (slot : Nat) : Dev :=
  (d.ctl.leases.filter (fun l => l.slot == slot)).foldl (fun d l =>
    if l.live n.abs then d.releaseLease n l else d.lapse n l) d

/-- The leases of a session pass to another (R55): with their timeouts, renewed at the PROVE's arrival; 0x0213 when at least
one passes. A lease whose deadline has passed is no longer held (R60) and does not pass. -/
def Dev.passLeases (d : Dev) (n : Now) (old oldId new newId arrival : Nat) : Dev :=
  let k := (d.ctl.leases.filter (fun l => l.slot == old && l.live arrival)).length
  if k == 0 then d
  else
    let leases := d.ctl.leases.map (fun (l : Lease) =>
      if l.slot == old && l.live arrival then
        { l with slot := new, session := newId, deadline := arrival + l.timeout * msCycles } else l)
    Dev.raise { d with ctl := { d.ctl with leases := leases } } n 0x0213 whole
      (leBytes 2 oldId ++ leBytes 2 newId ++ leBytes 2 k)

end Sys2Proof.Machine
end

