-- ==== Sys2Proof/Machine/Video.lean ====
section
/-!
DEFINITION. Video ports (chapter 5): receive bring-up, equalisation, loss-of-signal thresholds, sleep, and the transmit port's
states.
-/

namespace Sys2Proof.Machine

/-! ## Receive ports -/

/-- Receive port `i`. -/
def Dev.rxp (d : Dev) (i : Nat) : RxPort := d.rx.getD i {}

/-- Change receive port `i`. -/
def Dev.onRx (d : Dev) (i : Nat) (f : RxPort → RxPort) : Dev := { d with rx := modAt d.rx i f }

/-- The code of a receive port state (`rxp.status`). -/
def RxState.code : RxState → Nat
  | .off => 0 | .wait => 1 | .clock => 2 | .train => 3 | .map => 4 | .up => 5

/-- Whether a port is set to DSI-2 (R107). -/
def Dev.rxDsi (d : Dev) (i : Nat) : Bool := bits (d.cn P.rxp_protocol i) 0 2 == 1

/-- Enter a state at an instant. -/
def RxPort.enter (r : RxPort) (st : RxState) (t : Nat) : RxPort := { r with state := st, since := t }

/-- Enter Clock (Table 5.2). -/
def RxPort.toClock (r : RxPort) (t : Nat) : RxPort := { r with state := .clock, since := t, clockAt := t, mapFailed := false }

/-- Enter Wait (Table 5.2): what bring-up found is forgotten; with the clock lane already in HS the port leaves for Clock at
once, except after a map failure. -/
def RxPort.toWait (r : RxPort) (t : Nat) (failed : Bool) : RxPort :=
  let w : RxPort := { r with
    state := .wait, since := t, mapFailed := failed, rate := 0, noBurst := false, pins := 0, found := false, synced := 0, cut := false
    skip := false, part := none, ulps := 0, clockUlps := false }
  if r.clockHs && !failed then w.toClock t else w

/-- Whether an initial deskew burst is required at a measured rate (R100). -/
def deskewRequired (mode rate : Nat) : Bool :=
  match bits mode 0 2 with
  | 0 => decide (1500000 < rate)
  | 1 => true
  | _ => false

/-- RX_CLOCK_HS_ENTRY (R99): a port in Wait moves to Clock; an auto clock polarity is taken from the LP entry (R100). Where it is not
detected, an entry in the other polarity than `rxp.polarity` bit 4 is decoded as no HS entry (R98). -/
def rxClockHs (d : Dev) (n : Now) (i : Nat) (inverted : Bool) : Dev :=
  let cfg := d.cn P.rxp_polarity i
  if !bit cfg 9 && bit cfg 4 != inverted then d
  else
    d.onRx i (fun r =>
      let r := { r with clockHs := true }
      if r.state == .wait then { r.toClock n.abs with clockInv := inverted } else r)

/-- Whether a measured rate differs from the expected one by more than 2 % (R99). -/
def rateOff (measured expected : Nat) : Bool :=
  decide (2 * expected < 100 * (measured - expected)) || decide (2 * expected < 100 * (expected - measured))

/-- RX_RATE_MEASURED (R99): Clock to Train, with the CTLE start code and the settle time; 0x040C on mismatch. -/
def rxRate (d : Dev) (n : Now) (i kbps : Nat) : Dev :=
  if (d.rxp i).state != .clock then d
  else
    let d := d.onRx i (fun r => { r with
      state := .train, since := n.abs, rate := kbps, settle := d.cn P.rxp_t_settle i
      lanes := r.lanes.map (fun l => { l with ctle := bits (d.cn P.rxp_eq i) 4 4, phase := none }) })
    if rateOff kbps (d.cn P.rxp_rate_kbps i) then d.raise n 0x040C i (leBytes 4 kbps) else d

/-- RX_DESKEW_TIMEOUT (R100): a required burst has not come within 1 ms of the clock lane's HS entry, so the port trains on the next SoT;
0x0404. -/
def rxDeskewTimeout (d : Dev) (n : Now) (i : Nat) : Dev :=
  let r := d.rxp i
  if r.state == .train && !r.noBurst && deskewRequired (d.cn P.rxp_deskew i) r.rate && decide (r.clockAt + msCycles ≤ n.abs) then
    (d.onRx i (fun r => { r with noBurst := true })).raise n 0x0404 i (leBytes 1 3 ++ leBytes 1 1)
  else d

/-- The polarity in use: detected where the auto bits are set, configured elsewhere (R100). `inv`: inverted data pins. -/
def polarityInUse (cfg inv : Nat) (clockInv : Bool) : Nat :=
  (if bit cfg 8 then inv % 16 else cfg % 16) + (if bit cfg 9 then 16 * b2n clockInv else 16 * bits cfg 4 1)

/-- Enter Up (Table 5.2): 0x0401, and 0x0403 when an order or a polarity was detected. -/
def Dev.rxUp (d : Dev) (n : Now) (i order : Nat) : Dev :=
  let cfgMap := d.cn P.rxp_lane_map i
  let cfgPol := d.cn P.rxp_polarity i
  let auto := bit cfgMap 8 || bit cfgPol 8 || bit cfgPol 9
  let r := d.rxp i
  let d := d.onRx i (fun r => { r with state := .up, since := n.abs, order := order, found := auto, synced := 0
                                       bringUps := sat 16 (r.bringUps + 1) })
  let d := d.raise n 0x0401 i (leBytes 1 (d.cn P.rxp_lanes i) ++ leBytes 1 0 ++ leBytes 4 r.rate)
  if auto then
    let differs := order != cfgMap % 256 || r.pol != cfgPol % 32
    d.raise n 0x0403 i (leBytes 1 order ++ leBytes 1 r.pol ++ leBytes 1 (b2n differs))
  else d

/-- The pins whose HS request is decoded as one (R98): where the data polarity is not detected, those inverted as `rxp.polarity` says. -/
def pinsDecoded (cfg pins inv : Nat) : Nat :=
  if bit cfg 8 then pins % 16 else maskOf ((List.range 4).filter (fun k => bit pins k && bit inv k == bit cfg k))

/-- Whether every active data lane can have been trained (Table 5.2): with a fixed map, the pins of the lanes in use entered HS. -/
def activeSeen (map lanes pins : Nat) : Bool := bit map 8 || (List.range lanes).all (fun k => bit pins (bits map (2 * k) 2))

/-- A sampling phase within ±1.5 UI, in 1/32 UI (R100). -/
def phaseOf (p : Int) : Int := max (-48) (min 48 p)

/-- One lane after training (R100, R102): the phase found on the burst or the calibrated centre, and its CTLE code. -/
def RxLane.trained (l : RxLane) (eq code : Nat) (phase : Option Int) : RxLane :=
  { l with ctle := if bit eq 0 then bits eq 4 4 else code % 16, phase := phase.map phaseOf, atLimit := 0, told := false }

/-- RX_TRAINING_DONE (R100, R101): Train to Map with the phases, polarities and CTLE codes found, once every active lane is trained: on the
deskew burst, or on an SoT where no burst is required or it did not come in time. With a fixed lane map the order is known and the port
passes on to Up. `pins`: the data pins that requested HS; `inv`: those inverted. -/
def rxTrained (d : Dev) (n : Now) (i pins inv : Nat) (codes : List Nat) (burst : Option (List Int)) : Dev :=
  let cfgPol := d.cn P.rxp_polarity i
  let map := d.cn P.rxp_lane_map i
  let seen := pinsDecoded cfgPol pins inv
  let r := d.rxp i
  let early := burst.isNone && !r.noBurst && deskewRequired (d.cn P.rxp_deskew i) r.rate
  if r.state != .train || early || !activeSeen map (d.cn P.rxp_lanes i) seen then d
  else
    let d := d.onRx i (fun r => { r with
      state := .map, since := n.abs, pins := seen, pol := polarityInUse cfgPol inv r.clockInv
      lanes := (List.range 5).map (fun k =>
        (r.lanes.getD k {}).trained (d.cn P.rxp_eq i) (codes.getD k 0) (burst.bind (fun l => if k < 4 then l[k]? else none))) })
    if bit map 8 then d else d.rxUp n i (map % 256)

/-- RX_LANE_ORDER_FOUND (R101): eight consecutive headers pass ECC under one order; Map to Up. -/
def rxOrderFound (d : Dev) (n : Now) (i order : Nat) : Dev :=
  if (d.rxp i).state == .map && bit (d.cn P.rxp_lane_map i) 8 && popCount 4 (d.rxp i).pins == d.cn P.rxp_lanes i then
    d.rxUp n i (order % 256)
  else d

/-- RX_MAP_FAILURE (R101): the active pins differ in number from `rxp.lanes` (cause 2), or no order is adopted (cause 3);
back to Wait with 0x0404. -/
def rxMapFailure (d : Dev) (n : Now) (i : Nat) : Dev :=
  let r := d.rxp i
  if r.state == .map && bit (d.cn P.rxp_lane_map i) 8 then
    let cause := if popCount 4 r.pins != d.cn P.rxp_lanes i then 2 else 3
    (d.onRx i (fun r => r.toWait n.abs true)).raise n 0x0404 i (leBytes 1 4 ++ leBytes 1 cause)
  else d

/-- RX_MAP_RETRY_TIMEOUT (R101): on a continuous clock, 1 ms after a map failure the port leaves Wait for Clock. -/
def rxMapRetry (d : Dev) (n : Now) (i : Nat) : Dev :=
  d.onRx i (fun r =>
    if r.state == .wait && r.mapFailed && r.clockHs && decide (r.since + msCycles ≤ n.abs) then r.toClock n.abs else r)

/-- Whether every active lane of a port, data and clock, is in ULPS (R105). -/
def RxPort.allAsleep (r : RxPort) (lanes : Nat) : Bool :=
  r.clockUlps && (List.range lanes).all (fun k => bit r.ulps k)

/-- Put a lane (4: the clock lane) in or out of ULPS; a clock lane that sleeps, or wakes, is not in HS. -/
def RxPort.sleep (r : RxPort) (lane : Nat) (b : Bool) : RxPort :=
  if lane == 4 then { r with clockUlps := b, clockHs := false } else { r with ulps := setBit r.ulps lane b }

/-- Whether some active lane's HS circuits are off (R105). -/
def RxPort.dozes (r : RxPort) (lanes : Nat) : Bool := r.clockUlps || (List.range lanes).any (fun k => bit r.ulps k)

/-- Whether a lane of a port, data or clock (4), is in use and awake. -/
def RxPort.hears (r : RxPort) (lanes lane : Nat) : Bool := if lane == 4 then !r.clockUlps else decide (lane < lanes) && !bit r.ulps lane

/-- RX_LANE_ULPS_ENTRY (R105): a lane of a port in Up sleeps; 0x040A when it is the last active one. -/
def rxUlps (d : Dev) (n : Now) (i lane : Nat) : Dev :=
  if (d.rxp i).state != .up || decide (4 < lane) then d
  else
    let before := (d.rxp i).allAsleep (d.cn P.rxp_lanes i)
    let d := d.onRx i (fun r => r.sleep lane true)
    if !before && (d.rxp i).allAsleep (d.cn P.rxp_lanes i) then d.raise n 0x040A i (leBytes 1 1) else d

/-- RX_LANE_WAKE (R105): a sleeping lane sees Mark-1; 0x040A when it is the first to wake. -/
def rxWake (d : Dev) (n : Now) (i lane : Nat) : Dev :=
  if (d.rxp i).state != .up || decide (4 < lane) then d
  else
    let before := (d.rxp i).allAsleep (d.cn P.rxp_lanes i)
    let d := d.onRx i (fun r => r.sleep lane false)
    if before && !(d.rxp i).allAsleep (d.cn P.rxp_lanes i) then d.raise n 0x040A i (leBytes 1 0) else d

/-- A code moved by one step between 0 and the upper limit (R102); a code above a limit that was lowered steps down. -/
def ctleStep (limit code : Nat) (up : Bool) : Nat := if up && decide (code < limit) then code + 1 else if up && code == limit then code else code - 1

/-- CTLE_ADAPT (R102): at the end of a burst an adaptive lane, data or clock (4), moves its code by one step, at most once per heat. The loop
is of Table 2.4, so it needs a controller pair (R22), and a lane whose HS circuits are on (R105). -/
def ctleAdapt (d : Dev) (n : Now) (i lane : Nat) (up : Bool) : Dev :=
  let eq := d.cn P.rxp_eq i
  if (d.rxp i).state != .up || bit eq 0 || !d.fwRuns || !(d.rxp i).hears (d.cn P.rxp_lanes i) lane then d
  else
    d.onRx i (fun r => { r with lanes := modAt r.lanes lane (fun l =>
      if l.movedHeat == some n.heat then l
      else { l with ctle := ctleStep (bits eq 8 4) l.ctle up, movedHeat := some n.heat }) })

/-- One lane's count of heats at a limit of its code (R102). -/
def RxLane.limitTick (l : RxLane) (limit : Nat) : RxLane :=
  if l.ctle == 0 || decide (limit ≤ l.ctle) then { l with atLimit := l.atLimit + 1 } else { l with atLimit := 0, told := false }

/-- At each boundary the lanes in use of ports in Up, data and clock, count the heats at a limit; 0x040B once at 8,000 (R102). The clock lane
is lane 4 there (assumption 43). -/
def rxLimits (d : Dev) (n : Now) : Dev :=
  (List.range d.nRx).foldl (fun d i =>
    let eq := d.cn P.rxp_eq i
    if (d.rxp i).state != .up then d
    else
      let d := d.onRx i (fun r => { r with lanes := r.lanes.map (fun l => l.limitTick (bits eq 8 4)) })
      (List.range (d.cn P.rxp_lanes i) ++ [4]).foldl (fun d k =>
        let l := (d.rxp i).lanes.getD k {}
        if decide (8000 ≤ l.atLimit) && !l.told then
          (d.onRx i (fun r => { r with lanes := modAt r.lanes k (fun l => { l with told := true }) })).raise n 0x040B i
            (leBytes 1 k ++ leBytes 1 l.ctle)
        else d) d) d

/-- Move a threshold toward a goal by at most 2 mV (R103). -/
def losStep (cur goal : Nat) : Nat := if cur < goal then min goal (cur + 2) else max goal (cur - 2)

/-- The loss-of-signal threshold of a lane after a heat (R103): fixed, or the average of the last 64 noise samples plus the
margin, clamped to 15–60 mV and moved by at most 2 mV. -/
def losUpdate (cfg : Nat) (l : RxLane) (samples : List Nat) : RxLane :=
  let noise := (l.noise ++ samples).drop (l.noise.length + samples.length - 64)
  if bit cfg 15 then { l with noise := noise, los := bits cfg 8 6 }
  else if noise.isEmpty then { l with noise := noise }
  else
    let goal := max 15 (min 60 (roundDiv noise.sum noise.length + bits cfg 0 8))
    { l with noise := noise, los := losStep l.los goal }

/-- The loss-of-signal loop of the hard window (R31, R103). -/
def losLoop (d : Dev) (noise : List (Nat × Nat × Nat)) : Dev :=
  { d with rx := (List.range d.rx.length).map (fun i =>
      let r := d.rxp i
      { r with lanes := (List.range r.lanes.length).map (fun k =>
          losUpdate (d.cn P.rxp_los i) (r.lanes.getD k {})
            ((noise.filter (fun s => s.1 == i && s.2.1 == k)).map (fun s => s.2.2))) }) }

/-! ## Transmit ports -/

/-- Transmit port `i`. -/
def Dev.txp (d : Dev) (i : Nat) : TxPort := d.tx.getD i {}

/-- Change transmit port `i`. -/
def Dev.onTx (d : Dev) (i : Nat) (f : TxPort → TxPort) : Dev := { d with tx := modAt d.tx i f }

/-- The code of a transmit port state (`txp.status`). -/
def TxState.code : TxState → Nat
  | .off => 0 | .stop => 1 | .ulps => 2 | .wake => 3 | .deskew => 4 | .run => 5 | .hold => 6

/-- Timing generator `i`. -/
def Dev.tgen (d : Dev) (i : Nat) : Tg := d.tg.getD i {}

/-- Change timing generator `i`. -/
def Dev.onTg (d : Dev) (i : Nat) (f : Tg → Tg) : Dev := { d with tg := modAt d.tg i f }

/-- Whether a stream's frame is in progress at transmit port `i`. -/
def Dev.txBusy (d : Dev) (i : Nat) : Bool :=
  d.run.streams.any (fun s => s.inFrame && s.taking.getLsbD i && !s.droppedAt.getLsbD i)

/-- Whether a port has a source (R15, R61): its running generator, or the runner, which a quench takes away at the last frame end. -/
def Dev.txSource (d : Dev) (i : Nat) : Bool :=
  match d.ln P.txp_source i with
  | 1 => (d.tgen i).state == .running
  | 2 => !(d.txp i).quenched || d.txBusy i
  | _ => false

/-- The lane rate of a port in kb/s (R110): pixel clock × ratio ÷ 4 from the generator, `txp.lane_kbps` from the runner. -/
def Dev.laneKbps (d : Dev) (i : Nat) : Nat :=
  match d.ln P.txp_source i with
  | 1 => (if (d.ladle i).on then d.ladleHz i else d.ln P.tg_pclk_hz i) * d.ln P.txp_lane_ratio i / 4000
  | 2 => d.ln P.txp_lane_kbps i
  | _ => 0

/-- Whether a start of a port sends an initial deskew burst (Table 5.6). -/
def Dev.txDeskews (d : Dev) (i : Nat) : Bool := decide (1500000 < d.laneKbps i) || bit (d.ln P.txp_deskew i) 8

/-- The lanes of a port in ULPS (R106, Table 5.6): none of a port that is off, all of one in ULPS, else those beyond `txp.lanes`. -/
def Dev.txAsleep (d : Dev) (i : Nat) (st : TxState) : Nat :=
  match st with
  | .off => 0
  | .ulps => 31
  | _ => maskOf ((List.range 4).filter (fun k => decide (d.ln P.txp_lanes i ≤ k)))

/-- A port in a state at an instant: its sleeping lanes, whether its clock lane stays in HS, and at an HS entry its levels (R106, R116). -/
def Dev.txIn (d : Dev) (i : Nat) (st : TxState) (at_ : Nat) (t : TxPort) : TxPort :=
  let hs := st == .run || st == .deskew
  { t with
    state := st, since := at_, asleep := d.txAsleep i st, clockHs := st == .run && bit (d.ln P.txp_lp_ctrl i) 0
    deemph := if hs then d.cn P.txp_deemph i else t.deemph, swing := if hs then d.cn P.txp_swing_mv i else t.swing }

/-- What waited in a route FIFO is gone with its port (Table 5.6). -/
def Dev.dropFifo (d : Dev) (o : Nat) : Dev := { d with run := { d.run with outs := modAt d.run.outs o (fun r => { r with fifo := [] }) } }

/-- A burst starts on port i: the levels that `txp.deemph` and `txp.swing_mv` ask for are driven (R116). -/
def Dev.hsEntry (d : Dev) (i : Nat) : Dev :=
  d.onTx i (fun t => { t with deemph := d.cn P.txp_deemph i, swing := d.cn P.txp_swing_mv i })

/-- A port enters a state; leaving Run raises 0x0411, entering it 0x0410 (R114, Table 5.9). -/
def Dev.txEnter (d : Dev) (n : Now) (i : Nat) (st : TxState) : Dev :=
  let was := (d.txp i).state
  let d := d.onTx i (d.txIn i st n.abs)
  let d := if st == .off then d.dropFifo i else d
  if st == .run && was != .run then d.raise n 0x0410 i (leBytes 4 (d.laneKbps i))
  else if was == .run && st != .run then d.raise n 0x0411 i (leBytes 1 st.code)
  else d

/-- A port starts sending: through Deskew or straight to Run (Table 5.6). -/
def Dev.txStart (d : Dev) (n : Now) (i : Nat) : Dev := d.txEnter n i (if d.txDeskews i then .deskew else .run)

/-- TX_STOP_DONE (R114): a port with a source has held Stop for 100 µs and moves to Deskew or Run. -/
def txStopDone (d : Dev) (n : Now) (i : Nat) : Dev :=
  if (d.txp i).state == .stop && d.txSource i && decide ((d.txp i).since + 80000 ≤ n.abs) then d.txStart n i else d

/-- TX_DESKEW_DONE (R114): the initial burst is sent; Run. -/
def txDeskewDone (d : Dev) (n : Now) (i : Nat) : Dev := if (d.txp i).state == .deskew then d.txEnter n i .run else d

/-- TX_ULPS_TIMEOUT (R106): a port with no source has held stop state for `txp.lp_ctrl`[15:8] ms; 0 never enters ULPS. Quench holds a port
in stop state (R61). -/
def txUlpsTimeout (d : Dev) (n : Now) (i : Nat) : Dev :=
  let ms := bits (d.ln P.txp_lp_ctrl i) 8 8
  if (d.txp i).state == .stop && !d.txSource i && !(d.txp i).quenched && ms != 0 && decide ((d.txp i).since + ms * msCycles ≤ n.abs) then
    d.txEnter n i .ulps
  else d

/-- TX_WAKE_DONE (R106): Mark-1 has been driven for 1.0 ms; back to Stop. -/
def txWakeDone (d : Dev) (n : Now) (i : Nat) : Dev :=
  if (d.txp i).state == .wake && decide ((d.txp i).since + msCycles ≤ n.abs) then d.txEnter n i .stop else d

/-- A port follows its enable and its source (Table 5.6): Off on disable, Stop on enable, Stop when the source goes, Wake when
one comes to a port in ULPS, or a quench that holds it in stop state (R61). -/
def Dev.txFollow (d : Dev) (n : Now) (i : Nat) : Dev :=
  let st := (d.txp i).state
  let barred : Bool := bit d.flt.txDown i || d.flt.active.any (fun a => a.1 == 14) || (d.pwr.mode == .banked && d.pwr.bankBegun)
  if d.cn P.txp_enable i == 0 || barred then (if st == .off then d else d.txEnter n i .off)
  else match st with
    | .off => d.txEnter n i .stop
    | .ulps => if d.txSource i || (d.txp i).quenched then d.txEnter n i .wake else d
    | .run | .deskew => if d.txSource i then d else d.txEnter n i .stop
    | _ => d

/-- What a port drives on data pin 0 to 3, or on the clock pins (4), for a bit: `txp.polarity` inverts it (Table 5.8). -/
def Dev.txPin (d : Dev) (i pin : Nat) (b : Bool) : Bool := b != bit (d.ln P.txp_polarity i) pin

/-- Every port follows its enable and source. -/
def Dev.txFollowAll (d : Dev) (n : Now) : Dev := (List.range d.nTx).foldl (fun d i => d.txFollow n i) d

/-- The periodic deskew of a frame (R115): with N > 0 a burst goes in every Nth frame. -/
def Dev.txFrameDeskew (d : Dev) (i : Nat) : Dev :=
  let k := bits (d.ln P.txp_deskew i) 0 8
  if k == 0 then d
  else
    d.onTx i (fun t => if k ≤ t.sinceDeskew + 1 then { t with sinceDeskew := 0, deskews := t.deskews + 1 }
                       else { t with sinceDeskew := t.sinceDeskew + 1 })

end Sys2Proof.Machine
end

