-- ==== Sys2Proof/Machine/Link.lean ====
section
/-!
DEFINITION. Sending on the Morcel link (R338 to R342): control blocks, frames and channels, and the CSI-2 packets of the forwarding
outputs byte for byte.
-/

namespace Sys2Proof.Machine

/-! ## CSI-2 packets as bytes (R342) -/

/-- The bits of DI, word count and VCX that each parity bit of a header's ECC covers (PRESUMED, assumption 13). -/
abbrev eccRows : List (List Nat) :=
  [[0, 1, 2, 4, 5, 7, 10, 11, 13, 16, 20, 21, 22, 23, 24], [0, 1, 3, 4, 6, 8, 10, 12, 14, 17, 20, 21, 22, 23, 25],
   [0, 2, 3, 5, 6, 9, 11, 12, 15, 18, 20, 21, 22, 24, 25], [1, 2, 3, 7, 8, 9, 13, 14, 15, 19, 20, 21, 23, 24, 25],
   [4, 5, 6, 7, 8, 9, 16, 17, 18, 19, 20, 22, 23, 24, 25], [10, 11, 12, 13, 14, 15, 16, 17, 18, 19, 21, 22, 23, 24, 25]]

/-- The six parity bits of a 26-bit header. -/
def headerEcc (h : Nat) : Nat := (List.range 6).foldl (fun m i =>
  m + b2n ((((eccRows.getD i []).filter (bit h)).length) % 2 == 1) * 2 ^ i) 0

/-- One bit of the reflected CRC-16 of polynomial x¹⁶ + x¹² + x⁵ + 1. -/
def crc16Bit (c : Nat) : Nat := if c % 2 == 1 then (c / 2).xor 0x8408 else c / 2

/-- One byte into a CRC-16. -/
def crc16Byte (c : Nat) (b : Byte) : Nat :=
  crc16Bit (crc16Bit (crc16Bit (crc16Bit (crc16Bit (crc16Bit (crc16Bit (crc16Bit (c.xor b.toNat))))))))

/-- The packet CRC (PRESUMED, assumption 13). -/
def crc16 (b : Bytes) : Nat := b.foldl crc16Byte 0xFFFF

/-- A packet's bytes: data identifier, word count, ECC, payload, CRC; the CRC of a marked packet is inverted (R113, R342). -/
def csiBytes (p : Packet) : Bytes :=
  let di := p.vc % 4 * 64 + p.dt % 64
  let wc := if p.short then p.data else p.payload.length
  let vcx := p.vc / 4 % 4
  let ecc := headerEcc (di + wc % 65536 * 256 + vcx * 2 ^ 24) + vcx * 64
  let crc := crc16 p.payload
  leBytes 1 di ++ leBytes 2 wc ++ leBytes 1 ecc ++
    (if p.short then [] else p.payload ++ leBytes 2 (if p.marked then crc.xor 0xFFFF else crc))

/-- A packet from its bytes, with the mark restored; `none` when they are no whole packet. -/
def csiPacket (b : Bytes) (mark : Bool) : Option Packet :=
  let dt := rd b 0 1 % 64
  let vc := rd b 0 1 / 64 + rd b 3 1 / 64 * 4
  let wc := rd b 1 2
  if b.length < 4 then none
  else if dt < 0x10 then (if b.length == 4 then some ⟨vc, dt, true, wc, [], mark⟩ else none)
  else if b.length == 6 + wc then some ⟨vc, dt, false, 0, slice b 4 wc, mark⟩ else none

/-- A long packet in progress from its first bytes, with its word count. -/
def csiPart (b : Bytes) : Option (Packet × Nat) :=
  let dt := rd b 0 1 % 64
  let wc := rd b 1 2
  if b.length < 4 || decide (dt < 0x10) then none
  else some (⟨rd b 0 1 / 64 + rd b 3 1 / 64 * 4, dt, false, 0, slice b 4 (min wc (b.length - 4)), false⟩, wc)

/-! ## Sending -/

/-- Change the link. -/
def Dev.onMor (d : Dev) (f : Morcel → Morcel) : Dev := { d with mor := f d.mor }

/-- Bytes 1 to 7 of a frame's START (R339). -/
def startBytesOf (f : MorFrame) : Bytes :=
  leBytes 1 (f.ch % 16 + b2n f.sop * 16 + b2n f.eop * 32 + b2n f.mark * 64) ++ leBytes 2 ((f.data.length - 1) % 8192) ++ leBytes 4 f.seq

/-- The 64 bits of each block of a frame, after its sync header (R339): START, data blocks padded with zeros, END with the CRC-32 of START's
bytes 1 to 7 and the payload. -/
def frameBlocks (f : MorFrame) : List Bytes :=
  let start := startBytesOf f
  [leBytes 1 0x2D ++ start] ++
    (List.range (ceilDiv f.data.length 8)).map (fun k => fit 8 (f.data.drop (8 * k))) ++
    [leBytes 1 0x33 ++ leBytes 4 (crc32 (start ++ f.data)).toNat ++ leBytes 3 0]

/-- Slots of a frame: START, its data blocks, END (R339). -/
def frameSlots (f : MorFrame) : Nat := (frameBlocks f).length

/-- The limit of LEN on a channel (R339). -/
def morLimit (ch : Nat) : Nat := if ch < 3 then 4160 else 512

/-- A frame leaves in a running direction, or waits for a slumbering one to wake (R338). -/
def Dev.morSend (d : Dev) (f : MorFrame) : Dev :=
  let d := d.onMor (fun m => { m with fresh := true })
  if d.mor.tx == 2 then (d.say (.morFrame f)).onMor (fun m => { m with txSlots := m.txSlots + frameSlots f })
  else if d.mor.tx == 3 || d.mor.tx == 4 then d.onMor (fun m => { m with tx := 4, queue := m.queue ++ [f] })
  else d

/-- A control block leaves, or waits for a slumbering direction to wake (R338). A direction in training sends TRAIN blocks alone. -/
def Dev.morBlock (d : Dev) (typ : Nat) (fields : Bytes) : Dev :=
  let d := d.onMor (fun m => { m with fresh := true, tx := if m.tx == 3 then 4 else m.tx })
  if d.mor.tx == 0 || (d.mor.tx == 1 && typ != 0x55) then d
  else if d.mor.tx == 4 then d.onMor (fun m => { m with ctlq := m.ctlq ++ [(typ, fields)] })
  else (d.say (.morBlock typ (fit 7 fields))).onMor (fun m => { m with txSlots := m.txSlots + 1 })

/-- The rank of a frame in the order of R340. -/
def frameRank (f : MorFrame) : Nat := min f.ch 2

/-- The channel from 2 to 15 whose turn it is among those that wait, after channel `last` (R340). -/
def nextTurn (last : Nat) (l : List MorFrame) : Option Nat :=
  ((List.range 14).map (fun k => 2 + (last - 1 + k) % 14)).find? (fun c => l.any (fun f => f.ch == c))

/-- The waiting frames of channels 2 to 15 in their round-robin. -/
def turns : Nat → Nat → List MorFrame → List MorFrame
  | 0, _, l => l
  | fuel + 1, last, l =>
    match nextTurn last l with
    | none => l
    | some c =>
      (l.find? (fun f => f.ch == c)).toList ++ turns fuel c (l.eraseP (fun f => f.ch == c))

/-- What waited for a wake leaves in the order of R340: control blocks, channel 0, channel 1, then channels 2 to 15 round-robin. -/
def Dev.morFlush (d : Dev) : Dev :=
  let q := d.mor.queue
  let c := d.mor.ctlq
  let rest := turns q.length d.mor.turn (q.filter (fun f => frameRank f == 2))
  let d := d.onMor (fun m => { m with queue := [], ctlq := [], turn := (rest.getLast?.map (·.ch)).getD m.turn })
  let d := c.foldl (fun d b => d.morBlock b.1 b.2) d
  (q.filter (fun f => frameRank f == 0) ++ q.filter (fun f => frameRank f == 1) ++ rest).foldl Dev.morSend d

/-- The pieces of a forwarded packet: at most 512 bytes each, SOP on the first, EOP on the last (R342). -/
def morPieces (ch : Nat) (mark : Bool) : Nat → Bool → Nat → Bytes → List MorFrame
  | 0, _, _, _ => []
  | fuel + 1, first, seq, b =>
    if b.length ≤ 512 then [⟨ch, first, true, mark, seq, b⟩]
    else ⟨ch, first, false, mark, seq, b.take 512⟩ :: morPieces ch mark fuel false ((seq + 1) % 2 ^ 32) (b.drop 512)

/-- A packet of forwarding output k leaves on channel 3 + k (R342). -/
def Dev.morForward (d : Dev) (k : Nat) (p : Packet) : Dev :=
  let b := csiBytes p
  let l := morPieces (3 + k) p.marked (b.length / 512 + 1) true (d.mor.outCount.getD k 0) b
  let d := d.onMor (fun m => { m with outCount := modAt m.outCount k (fun c => (c + l.length) % 2 ^ 32) })
  l.foldl Dev.morSend d

/-! ## Channel 1 (R341) -/

/-- Whether a frame fits the window: 64 frames and 128 KiB. -/
def Morcel.fits (m : Morcel) (f : MorFrame) : Bool :=
  decide (m.window.length < 64) && decide ((m.window.map (·.data.length)).sum + f.data.length ≤ 131072)

/-- Waiting frames enter the window and leave, in order. -/
def Dev.morFill (d : Dev) (t : Nat) : Nat → Dev
  | 0 => d
  | fuel + 1 =>
    match d.mor.wait with
    | [] => d
    | f :: l =>
      if !d.mor.up || !d.mor.fits f then d
      else
        let f : MorFrame := { f with seq := d.mor.nextSeq }
        let d := d.onMor (fun m => { m with
          wait := l, window := m.window ++ [f], nextSeq := (m.nextSeq + 1) % 2 ^ 32, ackAt := if m.window.isEmpty then t else m.ackAt })
        (d.morSend f).morFill t fuel

/-- Payloads for channel 1, one frame each. The SEQ the last of them will have. -/
def Dev.morQueue1 (d : Dev) (t : Nat) (l : List Bytes) : Dev × Nat :=
  let last := (d.mor.nextSeq + d.mor.wait.length + l.length + 2 ^ 32 - 1) % 2 ^ 32
  let d := d.onMor (fun m => { m with wait := m.wait ++ l.map (fun b => (⟨1, true, true, false, 0, b⟩ : MorFrame)) })
  (d.morFill t d.mor.wait.length, last)

/-- A payload on channel 0 or 2, one frame. -/
def Dev.morMessage (d : Dev) (ch : Nat) (b : Bytes) : Dev := if d.mor.up then d.morSend ⟨ch, true, true, false, 0, b⟩ else d

/-- Resend everything unacknowledged (R341): 0x0C24. -/
def Dev.morResend (d : Dev) (n : Now) : Dev :=
  let w := d.mor.window
  let d := d.onMor (fun m => { m with resends := m.resends + 1, ackAt := n.abs })
  let d := d.bumpField P.pair_mor_stats 0 16 16 1
  let d := d.raise n 0x0C24 whole (leBytes 4 ((w.head?.map (·.seq)).getD 0) ++ leBytes 2 w.length)
  w.foldl Dev.morSend d

end Sys2Proof.Machine
end

