-- ==== Sys2Proof/Machine/Pixels.lean ====
section
/-!
DEFINITION. Pixels: unpacking received lines, the sprue's filters, colour matrices, chroma subsampling and packing (R176 to
R181), and reading stored pixels back (R148). Byte orders of the received formats are those of CSI-2 and DSI-2
(assumption 13).
-/

namespace Sys2Proof.Machine

/-! ## Component widths -/

/-- Widen an n-bit component to 10 bits by bit replication (R176). -/
def widen (n v : Nat) : Nat :=
  if n ≥ 10 then v % 1024
  else if n ≥ 5 then v * 2 ^ (10 - n) + v / 2 ^ (2 * n - 10)
  else v * 1023 / (2 ^ n - 1)

/-- Pack a 10-bit component to n bits (R181). -/
def narrow (n v : Nat) : Nat := if n ≥ 10 then v else min ((v + 2 ^ (9 - n)) / 2 ^ (10 - n)) (2 ^ n - 1)

/-! ## Unpacking (R175, R176) -/

/-- A 4:2:2 pixel pair from Cb, Y0, Cr, Y1. -/
def pair422 (n cb y0 cr y1 : Nat) : List Px :=
  [⟨widen n y0, widen n cb, widen n cr⟩, ⟨widen n y1, widen n cb, widen n cr⟩]

/-- Bytes and pixels of a packing group, and how a group unpacks: DT on CSI-2 (`dsi` false) or DSI-2. `luma`: a luma-only line
of a 4:2:0 format. -/
def groupSize (dsi : Bool) (dt : Nat) (luma : Bool) : Nat :=
  if dsi then
    (if dt == 0x0E then 2 else if dt == 0x1E then 9 else if dt == 0x2E || dt == 0x3E then 3
     else if dt == 0x0D then 15 else if dt == 0x2C then 4 else 0)
  else if dt == 0x18 then (if luma then 1 else 4)
  else if dt == 0x19 then 5
  else if dt == 0x1E then 4
  else if dt == 0x1F then 5
  else if dt == 0x22 then 2
  else if dt == 0x24 then 3
  else 0

/-- The pixels of one packing group. -/
def groupPixels (dsi : Bool) (dt : Nat) (luma : Bool) (g : Bytes) : List Px :=
  let v := leNat g
  let b (i : Nat) : Nat := bits v (8 * i) 8
  let lsb (i k : Nat) : Nat := bits (b i) (2 * k) 2
  if dsi then
    if dt == 0x0E then [⟨widen 5 (bits v 0 5), widen 6 (bits v 5 6), widen 5 (bits v 11 5)⟩]
    else if dt == 0x1E then
      (List.range 4).map (fun k => ⟨widen 6 (bits v (18 * k) 6), widen 6 (bits v (18 * k + 6) 6), widen 6 (bits v (18 * k + 12) 6)⟩)
    else if dt == 0x2E then [⟨widen 6 (b 0 / 4), widen 6 (b 1 / 4), widen 6 (b 2 / 4)⟩]
    else if dt == 0x3E then [⟨widen 8 (b 0), widen 8 (b 1), widen 8 (b 2)⟩]
    else if dt == 0x0D then (List.range 4).map (fun k => ⟨bits v (30 * k) 10, bits v (30 * k + 10) 10, bits v (30 * k + 20) 10⟩)
    else if dt == 0x2C then pair422 8 (b 0) (b 1) (b 2) (b 3)
    else []
  else if dt == 0x18 then (if luma then [⟨widen 8 (b 0), 512, 512⟩] else pair422 8 (b 0) (b 1) (b 2) (b 3))
  else if dt == 0x19 then
    (if luma then (List.range 4).map (fun k => ⟨b k * 4 + lsb 4 k, 512, 512⟩)
     else pair422 10 (b 0 * 4 + lsb 4 0) (b 1 * 4 + lsb 4 1) (b 2 * 4 + lsb 4 2) (b 3 * 4 + lsb 4 3))
  else if dt == 0x1E then pair422 8 (b 0) (b 1) (b 2) (b 3)
  else if dt == 0x1F then pair422 10 (b 0 * 4 + lsb 4 0) (b 1 * 4 + lsb 4 1) (b 2 * 4 + lsb 4 2) (b 3 * 4 + lsb 4 3)
  else if dt == 0x22 then [⟨widen 5 (bits v 11 5), widen 6 (bits v 5 6), widen 5 (bits v 0 5)⟩]
  else if dt == 0x24 then [⟨widen 8 (b 2), widen 8 (b 1), widen 8 (b 0)⟩]
  else []

/-- The pixels of a line: as many whole packing groups as its bytes hold (R176). -/
def unpackLine (dsi : Bool) (dt : Nat) (luma : Bool) (p : Bytes) : List Px :=
  let k := groupSize dsi dt luma
  if k == 0 then [] else (List.range (p.length / k)).flatMap (fun i => groupPixels dsi dt luma (slice p (k * i) k))

/-- Whether a DT is a 4:2:0 input (Table 8.1). -/
def is420 (dsi : Bool) (dt : Nat) : Bool := !dsi && (dt == 0x18 || dt == 0x19)

/-- Whether a DT is RAW (Table 8.1). -/
def isRawDt (dsi : Bool) (dt : Nat) : Bool := !dsi && has [0x2A, 0x2B, 0x2C, 0x2E] dt

/-- The RAW buffer format of a RAW DT (R181). -/
def rawFmtOf (dt : Nat) : Nat := if dt == 0x2A then 0x10 else if dt == 0x2B then 0x11 else if dt == 0x2C then 0x12 else 0x13

/-- Whether a DT is a sprue input for a protocol (Table 8.1). -/
def sprueInput (dsi : Bool) (dt : Nat) : Bool :=
  if dsi then has [0x0E, 0x1E, 0x2E, 0x3E, 0x0D, 0x2C] dt
  else has [0x18, 0x19, 0x1E, 0x1F, 0x22, 0x24, 0x2A, 0x2B, 0x2C, 0x2E] dt

/-- Whether an input is in the YUV domain (Table 8.1). -/
def isYuvDt (dsi : Bool) (dt : Nat) : Bool := if dsi then dt == 0x2C else has [0x18, 0x19, 0x1E, 0x1F] dt

/-- Whether an input is 4:2:2 or 4:2:0 (R177). -/
def isSubsampledDt (dsi : Bool) (dt : Nat) : Bool := isYuvDt dsi dt

/-! ## Pre-average and polyphase (R178, R179) -/

/-- Apply a function to each component of a list of pixels. -/
def pxMap (f : List Nat → Nat) (l : List Px) : Px := ⟨f (l.map (·.a)), f (l.map (·.b)), f (l.map (·.c))⟩

/-- A group's mean, rounded half up. -/
def meanUp (l : List Nat) : Nat := roundDiv l.sum l.length

/-- The pre-average factor d for a ratio crop ÷ out (R178). -/
def preAvg (crop out : Nat) : Nat := if crop < 2 * out then 1 else if crop < 4 * out then 2 else 4

/-- Element of a list, an index outside taking the nearest edge (R179). -/
def edgeAt {α : Type} [Inhabited α] (l : List α) (i : Int) : α := l.getD (clamp 0 (l.length - 1) i) default

/-- Average groups of d samples; a last group past the edge repeats the edge sample (R178). -/
def averagePx (d : Nat) (l : List Px) : List Px :=
  if d == 1 then l
  else (List.range (ceilDiv l.length d)).map (fun k => pxMap meanUp ((List.range d).map (fun i => edgeAt l (d * k + i : Nat))))

/-- Rounding of n ÷ 512 to the nearest integer, halves away from zero. -/
def round512 (n : Int) : Int := if n < 0 then -((2 * -n + 512) / 1024) else (2 * n + 512) / 1024

/-- The four Catmull-Rom coefficients of a phase, in 1/128 (R179). -/
def catmull (p : Nat) : Int × Int × Int × Int :=
  let q : Int := p
  let c0 := round512 (-(q * q * q) + 64 * q * q - 1024 * q)
  let c1 := round512 (3 * q * q * q - 160 * q * q + 65536)
  let c2 := round512 (-3 * q * q * q + 128 * q * q + 1024 * q)
  let c3 := round512 (q * q * q - 32 * q * q)
  let rest := 128 - (c0 + c1 + c2 + c3)
  if p < 16 then (c0, c1 + rest, c2, c3) else (c0, c1, c2 + rest, c3)

/-- The position of output sample j: input index and phase (R179). -/
def tapAt (n out j : Nat) : Int × Nat :=
  let step := roundDiv (65536 * n) out
  let x : Int := ((j * 2 + 1) * step / 2 : Nat) - 32768
  (x / 65536, (x / 2048 % 32).toNat)

/-- One filtered sample from four taps. -/
def polySample (p : Nat) (t : List Nat) : Nat :=
  let (c0, c1, c2, c3) := catmull p
  let v (i : Nat) : Int := (t.getD i 0 : Nat)
  clamp 0 1023 ((c0 * v 0 + c1 * v 1 + c2 * v 2 + c3 * v 3 + 64) / 128)

/-- Filter a line of pixels to `out` samples (R179). -/
def polyLine (out : Nat) (l : List Px) : List Px :=
  (List.range out).map (fun j =>
    let (i, p) := tapAt l.length out j
    pxMap (polySample p) [edgeAt l (i - 1), edgeAt l i, edgeAt l (i + 1), edgeAt l (i + 2)])

/-! ## Colour matrices (R180) -/

/-- Round n ÷ d to the nearest integer, halves away from zero, for d > 0. -/
def roundNear (n : Int) (d : Nat) : Int := if n < 0 then -((2 * -n + d) / (2 * d)) else (2 * n + d) / (2 * d)

/-- A 3 × 3 matrix in 1/8,192 with three offsets in 10-bit code units. -/
structure Csc where
  m : List Int
  o : List Int
  deriving DecidableEq, Repr, Inhabited

/-- Kr and Kb of BT.601, BT.709 and BT.2020 in 1/10,000 (1, 2, 3; assumption 14). -/
def lumaK (std : Nat) : Nat × Nat := if std == 1 then (2990, 1140) else if std == 2 then (2126, 722) else (2627, 593)

/-- Limited-range YUV to full-range RGB (R180 presets 1 to 3): 10-bit ranges 64–940 and 64–960 to 0–1023, with the input
offsets folded into o_k. -/
def yuvToRgb (std : Nat) : Csc :=
  let (kr, kb) := lumaK std
  let kg := 10000 - kr - kb
  let cy := roundNear (8192 * 1023) 876
  let rv := roundNear (8192 * 1023 * 2 * (10000 - kr)) (896 * 10000)
  let bu := roundNear (8192 * 1023 * 2 * (10000 - kb)) (896 * 10000)
  let gu := roundNear (-(8192 * 1023 * 2 * (10000 - kb) * kb : Nat)) (896 * 10000 * kg)
  let gv := roundNear (-(8192 * 1023 * 2 * (10000 - kr) * kr : Nat)) (896 * 10000 * kg)
  let off (a b : Int) : Int := roundNear (-(cy * 64 + (a + b) * 512)) 8192
  ⟨[cy, 0, rv, cy, gu, gv, cy, bu, 0], [off 0 rv, off gu gv, off bu 0]⟩

/-- Full-range RGB to limited-range YUV (R180 presets 4 to 6). -/
def rgbToYuv (std : Nat) : Csc :=
  let (kr, kb) := lumaK std
  let kg := 10000 - kr - kb
  let y (k : Nat) : Int := roundNear (8192 * 876 * k : Nat) (1023 * 10000)
  let cb (k : Int) : Int := roundNear (8192 * 896 * k) (1023 * 2 * (10000 - kb))
  let cr (k : Int) : Int := roundNear (8192 * 896 * k) (1023 * 2 * (10000 - kr))
  ⟨[y kr, y kg, y kb, cb (-(kr : Int)), cb (-(kg : Int)), cb (10000 - kb : Nat), cr (10000 - kr : Nat), cr (-(kg : Int)), cr (-(kb : Int))],
   [64, 512, 512]⟩

/-- A custom matrix from a 24-byte blob (R180). -/
def customCsc (b : Bytes) : Csc :=
  ⟨(List.range 9).map (fun i => signed 16 (rd b (2 * i) 2)), (List.range 3).map (fun i => signed 16 (rd b (18 + 2 * i) 2))⟩

/-- One output component (R180). -/
def Csc.comp (c : Csc) (k : Nat) (p : Px) : Nat :=
  let t (j : Nat) : Int := c.m.getD (3 * k + j) 0
  clamp 0 1023 ((t 0 * (p.a : Nat) + t 1 * (p.b : Nat) + t 2 * (p.c : Nat) + 4096) / 8192 + c.o.getD k 0)

/-- Convert a pixel. -/
def Csc.apply (c : Csc) (p : Px) : Px := ⟨c.comp 0 p, c.comp 1 p, c.comp 2 p⟩

/-- The conversion that `sprue.csc` selects (R180). -/
def sprueCsc (code : Nat) (coef : Bytes) : Option Csc :=
  match bits code 0 3 with
  | 0 => none
  | 1 => some (yuvToRgb 1) | 2 => some (yuvToRgb 2) | 3 => some (yuvToRgb 3)
  | 4 => some (rgbToYuv 1) | 5 => some (rgbToYuv 2) | 6 => some (rgbToYuv 3)
  | _ => some (customCsc coef)

/-! ## Packing to buffer formats (R181, Table 7.1, Table 8.2) -/

/-- Whether a format keeps an input's components and chroma grid as received, so that an identity leaves every sample as it was (R174). -/
def sameGrid (dsi : Bool) (dt fmt : Nat) : Bool :=
  if dsi then (dt == 0x0E && fmt == 0x08) || (dt == 0x3E && has [0x09, 0x0A] fmt) || (dt == 0x2C && fmt == 0x04)
  else (dt == 0x18 && fmt == 0x03) || (dt == 0x1E && fmt == 0x04) || (dt == 0x22 && fmt == 0x08) || (dt == 0x24 && has [0x09, 0x0A] fmt)

/-- A 10-bit component as n bits: what was received, where the pipeline was an identity (R174), else the packing of R181, which would change
it (assumption 71). -/
def packTo (exact : Bool) (n v : Nat) : Nat := if exact then v / 2 ^ (10 - n) else narrow n v

/-- The plane-0 bytes of an output row. -/
def packRow0 (exact : Bool) (fmt : Nat) (row : List Px) : Bytes :=
  let to8 (v : Nat) : Bytes := leBytes 1 (packTo exact 8 v)
  row.flatMap (fun p =>
    if fmt == 0x01 || fmt == 0x03 || fmt == 0x04 || fmt == 0x05 then to8 p.a
    else if fmt == 0x02 || fmt == 0x06 then leBytes 2 p.a
    else if fmt == 0x08 then leBytes 2 (packTo exact 5 p.a * 2048 + packTo exact 6 p.b * 32 + packTo exact 5 p.c)
    else if fmt == 0x09 then to8 p.c ++ to8 p.b ++ to8 p.a
    else if fmt == 0x0A then to8 p.c ++ to8 p.b ++ to8 p.a ++ leBytes 1 255
    else if fmt == 0x0B then leBytes 4 (3 * 2 ^ 30 + p.a * 2 ^ 20 + p.b * 2 ^ 10 + p.c)
    else [])

/-- Pixel pairs of a row. -/
def pairsOf : List Px → List (Px × Px)
  | p :: q :: l => (p, q) :: pairsOf l
  | _ => []

/-- The CbCr bytes of an NV16 row: the mean of each horizontal pair, rounded half up. -/
def chroma422 (exact : Bool) (row : List Px) : Bytes :=
  (pairsOf row).flatMap (fun (p, q) =>
    leBytes 1 (packTo exact 8 (meanUp [p.b, q.b])) ++ leBytes 1 (packTo exact 8 (meanUp [p.c, q.c])))

/-- The CbCr bytes of an NV12 row pair: the mean of each 2 × 2 block, rounded half up. -/
def chroma420 (exact : Bool) (r0 r1 : List Px) : Bytes :=
  ((pairsOf r0).zip (pairsOf r1)).flatMap (fun ((p, q), (s, t)) =>
    leBytes 1 (packTo exact 8 (meanUp [p.b, q.b, s.b, t.b])) ++ leBytes 1 (packTo exact 8 (meanUp [p.c, q.c, s.c, t.c])))

/-- The bytes of a further plane at full resolution. -/
def packPlane (fmt : Nat) (f : Px → Nat) (row : List Px) : Bytes :=
  row.flatMap (fun p => if fmt == 0x06 then leBytes 2 (f p) else leBytes 1 (narrow 8 (f p)))

/-- What output row j of a picture writes, as offsets in the slot and their bytes: its luma or colour, and its chroma when complete. `half`:
the row before it, for NV12. -/
def rowSpans (exact : Bool) (v : SlotView) (j : Nat) (half : Option (List Px)) (row : List Px) : List (Nat × Bytes) :=
  let at' (p k : Nat) : Nat := planeStart v.fmt v.height v.stride p + v.stride * k
  (at' 0 j, packRow0 exact v.fmt row) ::
    (if v.fmt == 0x04 then [(at' 1 j, chroma422 exact row)]
     else if v.fmt == 0x03 then
       match half with
       | some r0 => if j % 2 == 1 then [(at' 1 (j / 2), chroma420 exact r0 row)] else []
       | none => []
     else if v.fmt == 0x05 || v.fmt == 0x06 then [(at' 1 j, packPlane v.fmt (·.b) row), (at' 2 j, packPlane v.fmt (·.c) row)]
     else [])

/-- Spans written into a slot. -/
def writeSpans (m : Mem) (s : SlotRec) (l : List (Nat × Bytes)) : Mem := l.foldl (fun m p => slotWrites m s p.1 p.2) m

/-- The banks that spans written into a slot reach. -/
def spanBanks (s : SlotRec) (l : List (Nat × Bytes)) : List Nat := l.flatMap (fun p => s.banks p.1 p.2.length)

/-! ## Reading stored pixels (R148) -/

/-- A stored pixel with its own alpha, 10-bit components (R148, R176 widening). -/
structure PxA where
  px    : Px
  alpha : Nat
  deriving DecidableEq, Repr, Inhabited

/-- Read pixel (x, y) of a slot's picture; colour components in 10 bits, alpha in 8 bits (255 where the format has none). A
CLUT8 index and an A8 alpha are returned in component `a` and in `alpha`. -/
def readPixel (m : Mem) (v : SlotView) (x y : Nat) : PxA :=
  let at' (p k : Nat) : Nat := planeStart v.fmt v.height v.stride p + v.stride * k
  let r (a n : Nat) : Nat := leNat (slotReads m v.slot a n)
  let base := at' 0 y
  if v.fmt == 0x01 then ⟨⟨widen 8 (r (base + x) 1), 512, 512⟩, 255⟩
  else if v.fmt == 0x02 then ⟨⟨r (base + 2 * x) 2 % 1024, 512, 512⟩, 255⟩
  else if v.fmt == 0x03 || v.fmt == 0x04 then
    let c := at' 1 (if v.fmt == 0x03 then y / 2 else y) + x / 2 * 2
    ⟨⟨widen 8 (r (base + x) 1), widen 8 (r c 1), widen 8 (r (c + 1) 1)⟩, 255⟩
  else if v.fmt == 0x05 then
    ⟨⟨widen 8 (r (base + x) 1), widen 8 (r (at' 1 y + x) 1), widen 8 (r (at' 2 y + x) 1)⟩, 255⟩
  else if v.fmt == 0x06 then
    ⟨⟨r (base + 2 * x) 2 % 1024, r (at' 1 y + 2 * x) 2 % 1024, r (at' 2 y + 2 * x) 2 % 1024⟩, 255⟩
  else if v.fmt == 0x08 then
    let w := r (base + 2 * x) 2
    ⟨⟨widen 5 (bits w 11 5), widen 6 (bits w 5 6), widen 5 (bits w 0 5)⟩, 255⟩
  else if v.fmt == 0x09 then
    let w := r (base + 3 * x) 3
    ⟨⟨widen 8 (bits w 16 8), widen 8 (bits w 8 8), widen 8 (bits w 0 8)⟩, 255⟩
  else if v.fmt == 0x0A then
    let w := r (base + 4 * x) 4
    ⟨⟨widen 8 (bits w 16 8), widen 8 (bits w 8 8), widen 8 (bits w 0 8)⟩, bits w 24 8⟩
  else if v.fmt == 0x0B then
    let w := r (base + 4 * x) 4
    ⟨⟨bits w 20 10, bits w 10 10, bits w 0 10⟩, bits w 30 2 * 85⟩
  else ⟨⟨r (base + x) 1, 0, 0⟩, r (base + x) 1⟩

end Sys2Proof.Machine
end

