-- ==== Sys2Proof/Machine/Sprues.lean ====
section
/-!
DEFINITION. Sprues (chapter 8): a frame from its start to the completed slot, line by line; irregular frames; rate checks.
-/

namespace Sys2Proof.Machine

/-- Sprue `i`. -/
def Dev.sprue (d : Dev) (i : Nat) : Sprue := d.spr.getD i {}

/-- Change sprue `i`. -/
def Dev.onSprue (d : Dev) (i : Nat) (f : Sprue → Sprue) : Dev := { d with spr := modAt d.spr i f }

/-- The committed settings of a sprue, for the input its stream carries (R185). -/
def Dev.sprueSettings (d : Dev) (i dt : Nat) (dsi : Bool) : SprueSet :=
  let pos := d.cn P.sprue_crop_pos i
  let size := d.cn P.sprue_crop_size i
  let out := d.cn P.sprue_out_size i
  { target := d.cn P.sprue_target i
    cropX := bits pos 0 13, cropY := bits pos 16 13, cropW := bits size 0 14, cropH := bits size 16 14
    outW := bits out 0 14, outH := bits out 16 14
    csc := d.cn P.sprue_csc i, coef := d.cb P.sprue_csc_coef i
    policy := d.cn P.sprue_policy i, fill := d.cn P.sprue_fill i, dt := dt, dsi := dsi }

/-- The fill pixel (R186). -/
def SprueSet.fillPx (s : SprueSet) : Px := ⟨bits s.fill 0 10, bits s.fill 10 10, bits s.fill 20 10⟩

/-- Whether the input is RAW. -/
def SprueSet.raw (s : SprueSet) : Bool := isRawDt s.dsi s.dt

/-- Whether line `k` of the input is luma-only: the even lines of a 4:2:0 input (R176). -/
def SprueSet.lumaLine (s : SprueSet) (k : Nat) : Bool := is420 s.dsi s.dt && k % 2 == 0

/-- Bytes and pixels of a RAW packing group (R176). -/
def rawGroup (dt : Nat) : Nat × Nat :=
  if dt == 0x2B then (5, 4) else if dt == 0x2C then (3, 2) else if dt == 0x2E then (2, 1) else (1, 1)

/-- Pixels a received line delivers (R176). -/
def SprueSet.width (s : SprueSet) (k : Nat) (p : Bytes) : Nat :=
  if s.raw then
    let (b, n) := rawGroup s.dt
    p.length / b * n
  else (unpackLine s.dsi s.dt (s.lumaLine k) p).length

/-- Whether a line lies in the crop rows (R184). -/
def SprueSet.inCrop (s : SprueSet) (k : Nat) : Bool := decide (s.cropY ≤ k) && decide (k < s.cropY + s.cropH)

/-- The slot a sprue writes. -/
def Dev.sprueSlot (d : Dev) (s : Sprue) : Option SlotView := d.slotView s.acted.target s.slot

/-! ## Emission (R184) -/

/-- Row k of the vertically pre-averaged picture; rows past the lines received so far take the last line (R178). -/
def avgRow (s : Sprue) (dy k : Nat) : List Px :=
  let group := (List.range dy).map (fun i => edgeAt s.rows (dy * k + i : Nat))
  if dy == 1 then edgeAt s.rows (k : Nat)
  else (List.range (edgeAt s.rows (dy * k : Nat)).length).map (fun x => pxMap meanUp (group.map (fun r => r.getD x default)))

/-- Output row j: horizontal then vertical filtering and colour conversion of the lines its taps need (R179, R180). -/
def sprueRow (s : Sprue) (j : Nat) : List Px :=
  let a := s.acted
  let dy := preAvg a.cropH a.outH
  let n := ceilDiv a.cropH dy
  let (i, p) := tapAt n a.outH j
  let row (k : Int) : List Px := polyLine a.outW (avgRow s dy (clamp 0 (n - 1) k))
  let t := [row (i - 1), row i, row (i + 1), row (i + 2)]
  let out := (List.range a.outW).map (fun x => pxMap (polySample p) (t.map (fun r => r.getD x default)))
  match sprueCsc a.csc a.coef with
  | none => out
  | some c => out.map c.apply

/-- Whether output row j's last tap has arrived (R184). -/
def sprueReady (s : Sprue) (j : Nat) : Bool :=
  let a := s.acted
  let dy := preAvg a.cropH a.outH
  let n := ceilDiv a.cropH dy
  let (i, _) := tapAt n a.outH j
  let last := clamp 0 (n - 1) (i + 2)
  decide (a.cropH ≤ s.rows.length) || decide (last < s.rows.length / dy)

/-- Whether the settings and the lines so far leave every sample as received (R174): no crop, ratio 1, no conversion, and a format of the
input's grid (assumption 71). -/
def Sprue.exact (s : Sprue) (fmt : Nat) : Bool :=
  let a := s.acted
  a.cropX == 0 && a.cropY == 0 && s.whole && a.cropW == a.outW && a.cropH == a.outH && a.csc % 8 == 0 && sameGrid a.dsi a.dt fmt

/-- A line of a slot takes the number of the input frame that wrote it, in a buffer of depth 1 (R156). -/
def SlotRec.stamp (s : SlotRec) (j frame : Nat) : SlotRec :=
  { s with frames := (s.frames ++ List.replicate (j + 1 - s.frames.length) 0).set j frame }

/-- Write output row j into the slot if it is next and ready. -/
def sprueEmit (i : Nat) (x : DM) (j : Nat) : DM :=
  let s := x.dev.sprue i
  if s.rowsOut == j && sprueReady s j then
    match x.dev.sprueSlot s with
    | none => x
    | some v =>
      let row := sprueRow s j
      let spans := rowSpans (s.exact v.fmt) v j s.half row
      let mem := writeSpans x.mem v.slot spans
      let d := x.dev.takeInject (spanBanks v.slot spans)
      let inPlace := (d.buf s.acted.target).any (fun (b : Buf) => b.depth == 1)
      let d := d.onBufSlot s.acted.target s.slot (fun r =>
        let r : SlotRec := { r with writes := r.writes + 1 }
        if inPlace then r.stamp j s.frame else r)
      ⟨d.onSprue i (fun s => { s with rowsOut := j + 1, half := some row }), mem⟩
  else x

/-- Write every output row that has become ready. -/
def sprueEmitAll (x : DM) (i : Nat) : DM := (List.range (x.dev.sprue i).acted.outH).foldl (sprueEmit i) x

/-- A full-resolution cropped line enters the filters. -/
def spruePush (x : DM) (i : Nat) (line : List Px) : DM :=
  let s := x.dev.sprue i
  let a := s.acted
  let row := averagePx (preAvg a.cropW a.outW) ((line.drop a.cropX).take a.cropW)
  sprueEmitAll ⟨x.dev.onSprue i (fun s => { s with rows := s.rows ++ [row] }), x.mem⟩ i

/-- The chroma of an odd line laid over the luma line before it (R176); where the odd line is shorter, fill. -/
def overChroma (fill : Px) (luma chroma : List Px) : List Px :=
  (List.range luma.length).map (fun x =>
    let c := chroma.getD x fill
    ⟨(luma.getD x fill).a, c.b, c.c⟩)

/-- Lengthen a line to n pixels with fill (R186). -/
def padLine (n : Nat) (fill : Px) (l : List Px) : List Px := l ++ List.replicate (n - l.length) fill

/-- Line k of the frame enters the pipeline as pixels: luma-only lines wait for their partner (R176). -/
def sprueFeed (x : DM) (i k : Nat) (line : List Px) : DM :=
  let s := x.dev.sprue i
  let a := s.acted
  let full := padLine (a.cropX + a.cropW) a.fillPx line
  if a.lumaLine k then ⟨x.dev.onSprue i (fun s => { s with luma := some full, prevLine := some full }), x.mem⟩
  else
    let x := match s.luma with
      | some l => if a.inCrop (k - 1) && is420 a.dsi a.dt then spruePush x i (overChroma a.fillPx l full) else x
      | none => x
    let x := if a.inCrop k then spruePush x i full else x
    ⟨x.dev.onSprue i (fun s => { s with luma := none, prevLine := some full }), x.mem⟩

/-- A RAW line's bytes for the pixels up to X + W, the missing ones taken from `Config.rawFill` (assumption 12). -/
def rawLine (a : SprueSet) (p : Bytes) : Bytes :=
  let (b, n) := rawGroup a.dt
  let need := (a.cropX + a.cropW) / n * b
  let whole := p.take (p.length / b * b)
  (List.range need).map (fun k => whole.getD k (Config.rawFill a.fill a.dt k))

/-- Line k of a RAW frame is written unchanged (R174). -/
def sprueRaw (x : DM) (i k : Nat) (p : Bytes) : DM :=
  let s := x.dev.sprue i
  let a := s.acted
  let line := rawLine a p
  let (b, n) := rawGroup a.dt
  let d := x.dev.onSprue i (fun s => { s with prevRaw := some line, rowsOut := if a.inCrop k then s.rowsOut + 1 else s.rowsOut })
  if a.inCrop k then
    match x.dev.sprueSlot s with
    | none => ⟨d, x.mem⟩
    | some v =>
      let data := (line.drop (a.cropX / n * b)).take (a.cropW / n * b)
      ⟨d.takeInject (v.slot.banks (v.stride * (k - a.cropY)) data.length), slotWrites x.mem v.slot (v.stride * (k - a.cropY)) data⟩
  else ⟨d, x.mem⟩

/-! ## Ending a frame -/

/-- A frame is abandoned (R183, R186): the slot returns to Empty, except that a depth-1 slot that was Complete stays so
(R156); counted in `sprue.stats`. -/
def sprueAbandon (d : Dev) (i : Nat) : Dev :=
  let s := d.sprue i
  if !s.writing then d
  else
    let keep : Bool := match d.buf s.acted.target with
      | some b => b.depth == 1 && s.before.state == .complete
      | none => true
    let d := if keep then d else d.emptySlot s.acted.target s.slot
    (d.onSprue i (fun s => { s with writing := false, luma := none })).bumpField P.sprue_stats i 48 16 1

/-- The last chunk is written: the slot becomes Complete with the next sequence (R184). -/
def sprueComplete (d : Dev) (n : Now) (i : Nat) : Dev :=
  let s := d.sprue i
  if !s.draining then d
  else
    ((d.completeSlot n.abs s.acted.target s.slot).onSprue i (fun s => { s with draining := false })).bumpField P.sprue_stats i 0 32 1

/-- SPRUE_DRAIN_COMPLETE (R184). -/
def sprueDrain (d : Dev) (n : Now) (i : Nat) : Dev := if i < d.nSprue then sprueComplete d n i else d

/-- The write queue fills (R183): abandoned with 0x0514. -/
def sprueOverflow (d : Dev) (n : Now) (i : Nat) : Dev :=
  let s := d.sprue i
  if !s.writing then d
  else (sprueAbandon d i).raise n 0x0514 i (leBytes 2 s.acted.target ++ leBytes 2 (s.lines - 1))

/-- The frame ends incomplete (R141, Table 8.3): cause 6 is a frame start while Writing, with 0x0515. -/
def sprueIncomplete (d : Dev) (n : Now) (i cause : Nat) : Dev :=
  let s := d.sprue i
  if !s.writing then d
  else
    let d := sprueAbandon d i
    if cause == 6 then d.raise n 0x0515 i (leBytes 2 s.acted.target ++ leBytes 2 s.rowsOut) else d

/-! ## Frame start (R155, R184, R185) -/

/-- Measured rate and the over-rate event (`sprue.rate_tol_pct`). -/
def sprueRate (d : Dev) (n : Now) (i : Nat) : Dev :=
  let s := d.sprue i
  match s.lastFs with
  | none => d.onSprue i (fun s => { s with lastFs := some n.abs })
  | some t =>
    let dt := n.abs - t
    let rate := if dt == 0 then 65535 else sat 16 (80000000000 / dt)
    let beyond := decide (d.cn P.sprue_fps i * (100 + d.cn P.sprue_rate_tol_pct i) < rate * 1000)
    let run := if beyond then s.overRun + 1 else 0
    let tell := decide (8 ≤ run) && !s.overTold
    let d := d.onSprue i (fun s => { s with lastFs := some n.abs, rate := rate, overRun := run, overTold := beyond && (s.overTold || tell) })
    if tell then d.raise n 0x0513 i (leBytes 2 rate) else d

/-- The slot a frame is written to: the only slot of a depth-1 buffer (R156), else by R155. -/
def Buf.frameSlot (b : Buf) : Option Nat := if b.depth == 1 then some 0 else b.choose

/-- A frame starts at a sprue. `dt`, `dsi`: its stream's data type and protocol. -/
def sprueFs (d : Dev) (n : Now) (i dt : Nat) (dsi : Bool) : Dev :=
  let d := sprueComplete d n i
  let d := sprueRate d n i
  let a := d.sprueSettings i dt dsi
  let d := d.onSprue i (fun s => { s with
    acted := a, writing := false, lines := 0, luma := none, prevLine := none, prevRaw := none, rows := [], rowsOut := 0
    half := none, frame := s.frame + 1, whole := true })
  match d.buf a.target with
  | none => d
  | some b =>
    match b.frameSlot with
    | none =>
      let d := d.bump P.cru_slot_drop_count 0
      if b.dropHeat == some n.heat then d
      else (d.onBuf b.handle (fun b => { b with dropHeat := some n.heat })).raise n 0x0604 whole
        (leBytes 2 b.handle ++ leBytes 1 i)
    | some k =>
      let s := b.slot k
      let map := d.mapAtWrite b.depth s
      let d := d.onBufSlot b.handle k (fun s =>
        { s with state := if b.depth == 1 && s.state == .complete then .complete else .writing
                 byUpload := false, map := map, damaged := false, upCrc := none })
      d.onSprue i (fun s' => { s' with writing := true, slot := k, before := s })

/-! ## Lines (R186) -/

/-- The pixels of a received line that stands for line k under the sprue's policy: as received, or the previous input line,
or fill for line 0. -/
def sprueSubst (s : Sprue) (bad : Bool) (px : List Px) : List Px :=
  if bad && bits s.acted.policy 0 2 == 1 then (s.prevLine.getD []) else px

/-- A RAW line under the sprue's policy. -/
def sprueSubstRaw (s : Sprue) (bad : Bool) (p : Bytes) : Bytes :=
  if bad && bits s.acted.policy 0 2 == 1 then (s.prevRaw.getD []) else p

/-- The first line of a frame makes the rewriting of a picture no reader held count (R188). -/
def sprueSuperseded (d : Dev) (i : Nat) : Dev :=
  let s := d.sprue i
  if s.lines == 0 && s.before.state == .complete && s.before.unread then d.bumpField P.sprue_stats i 32 16 1 else d

/-- A CRC failure on a line in the crop rows, for this heat's 0x0510. -/
def sprueCrcEvent (d : Dev) (n : Now) (i : Nat) : Dev :=
  d.onSprue i (fun s => { s with crcTally := s.crcTally.note n (leBytes 1 (bits s.acted.policy 0 2)) })

/-- A narrow line in the crop rows, for this heat's 0x0512: the shortest width is kept. -/
def sprueNarrowEvent (d : Dev) (n : Now) (i width : Nat) : Dev :=
  let least (t : HeatTally) : Nat := if t.count == 0 then width else min width (rd t.last 0 2)
  d.onSprue i (fun s => { s with narrow := s.narrow.note n (leBytes 2 (least s.narrow)) })

/-- The line events of a sprue for the heat that ends (R186). -/
def Dev.tellSprue (d : Dev) (i : Nat) : Dev :=
  let s := d.sprue i
  let d := d.onSprue i (fun s => { s with crcTally := {}, narrow := {} })
  (d.tell s.crcTally 0x0510 i (s.crcTally.bytes ++ s.crcTally.last)).tell s.narrow 0x0512 i (s.narrow.bytes ++ s.narrow.last)

/-- A long packet of the stream's DT arrives at a sprue. -/
def sprueLine (x : DM) (n : Now) (i : Nat) (payload : Bytes) (marked : Bool) : DM :=
  let s := x.dev.sprue i
  if !s.writing then x
  else
    let a := s.acted
    let k := s.lines
    let d := (sprueSuperseded x.dev i).onSprue i (fun s => { s with lines := k + 1 })
    let judged := a.inCrop k
    let bad := marked && judged
    let d := if bad then sprueCrcEvent d n i else d
    if bad && bits a.policy 0 2 == 2 then ⟨sprueAbandon d i, x.mem⟩
    else
      let width := a.width k payload
      let replaced := bad && bits a.policy 0 2 == 1
      let d := if judged && !replaced && decide (width < a.cropX + a.cropW) then sprueNarrowEvent d n i width else d
      let d := d.onSprue i (fun s => { s with whole := s.whole && width == a.cropW })
      if a.raw then sprueRaw ⟨d, x.mem⟩ i k (sprueSubstRaw s bad payload)
      else sprueFeed ⟨d, x.mem⟩ i k (sprueSubst s bad (unpackLine a.dsi a.dt (a.lumaLine k) payload))

/-- The missing lines of a short frame take fill (R186). -/
def spruePad (x : DM) (i : Nat) : Nat → DM
  | 0 => x
  | k + 1 =>
    let s := x.dev.sprue i
    let x := if s.acted.raw then sprueRaw x i s.lines [] else sprueFeed x i s.lines []
    spruePad ⟨x.dev.onSprue i (fun s => { s with lines := s.lines + 1 }), x.mem⟩ i k

/-- A frame's FE at a sprue (R184, R186). -/
def sprueFe (x : DM) (n : Now) (i : Nat) : DM :=
  let s := x.dev.sprue i
  let a := s.acted
  if !s.writing then x
  else if s.lines == 0 then
    ⟨(x.dev.onBufSlot a.target s.slot (fun now => { s.before with holders := now.holders, unread := now.unread })).onSprue i
      (fun s => { s with writing := false }), x.mem⟩
  else if a.cropY + a.cropH ≤ s.lines then
    ⟨x.dev.onSprue i (fun s => { s with writing := false, draining := true }), x.mem⟩
  else
    let pad := bit a.policy 2
    let x := if pad then spruePad x i (a.cropY + a.cropH - s.lines) else x
    let d := if pad then x.dev.onSprue i (fun s => { s with writing := false, draining := true }) else sprueAbandon x.dev i
    ⟨d.raise n 0x0511 i (leBytes 2 s.lines ++ leBytes 1 (b2n pad)), x.mem⟩

/-- `sprue.status` (Table 8.5). A sprue whose target a commit has taken away is on until its first frame start (R185). -/
def Dev.sprueStatus (d : Dev) (i : Nat) : Nat :=
  let s := d.sprue i
  let st := if d.cn P.sprue_target i == 0 && s.acted.target == 0 then 0 else if s.writing || s.draining then 2 else 1
  st + s.slot % 4 * 4 + s.rate * 65536

end Sys2Proof.Machine
end

