-- ==== Sys2Proof/Machine/Streams.lean ====
section
/-!
DEFINITION. Streams and the runner (chapter 6), and what a receive port does with its packets and with its loss (R99, R104, R107 to
R109, R118).
-/

namespace Sys2Proof.Machine

/-! ## Fields of stream.entry (Table 6.1) -/

/-- DT matched. -/
def seDt (e : Nat) : Nat := bits e 0 6
/-- ANY. -/
def seAny (e : Nat) : Bool := bit e 6
/-- VC matched. -/
def seVc (e : Nat) : Nat := bits e 8 4
/-- Source index. -/
def seSrc (e : Nat) : Nat := bits e 12 5
/-- Source kind. -/
def seKind (e : Nat) : Nat := bits e 17 2
/-- The match fields and ENABLE: the key of an entry (R133). -/
def seKey (e : Nat) : Nat × Nat := (bits e 0 20, b2n (bit e 63))
/-- FILL. -/
def seFill (e : Nat) : Nat := bits e 32 16
/-- FREEZE_N. -/
def seFreeze (e : Nat) : Nat := bits e 48 8
/-- SAMPLE. -/
def seSample (e : Nat) : Nat := bits e 56 4
/-- FN_CHECK. -/
def seFn (e : Nat) : Bool := bit e 60
/-- ENABLE. -/
def seOn (e : Nat) : Bool := bit e 63
/-- The VC an entry's packets leave with (R127). -/
def seOutVc (e : Nat) : Nat := if bit e 31 then bits e 26 4 else seVc e
/-- A source with its VC. -/
def seSource (e : Nat) : Nat := bits e 8 11
/-- A packet as the entry forwards it (R127): a framing packet keeps its type. -/
def seRewrite (e : Nat) (framing : Bool) (p : Packet) : Packet :=
  { p with vc := seOutVc e, dt := if bit e 30 && !framing then bits e 20 6 else p.dt }

/-! ## Packets -/

/-- Framing packets (R122). -/
def isFraming (dsi : Bool) (p : Packet) : Bool :=
  if dsi then has [0x01, 0x11, 0x21, 0x31] p.dt else decide (p.dt < 4)

/-- A frame start: FS, or V sync start. -/
def isFs (dsi : Bool) (p : Packet) : Bool := if dsi then p.dt == 0x01 else p.dt == 0x00

/-- A frame end: FE, or V sync end. -/
def isFe (dsi : Bool) (p : Packet) : Bool := if dsi then p.dt == 0x11 else p.dt == 0x01

/-- DSI-2 types consumed by the port (Table 5.5). -/
def dsiConsumed (dt : Nat) : Bool := has [0x08, 0x09, 0x19] dt

/-- DSI-2 types that go to classification besides framing: marked "Yes" or "Forwarded only" (Table 5.5). -/
def dsiReceived (dt : Nat) : Bool := has [0x02, 0x12, 0x22, 0x32, 0x0E, 0x1E, 0x2E, 0x3E, 0x0D, 0x2C, 0x0B, 0x0A] dt

/-- Whether a packet type is short by its type: CSI-2 below 0x10; DSI-2 sync, mode and end-of-transmission packets. -/
def packetBytes (p : Packet) : Nat := if p.short then 4 else p.payload.length + 6

/-! ## Access -/

/-- Stream entry `e` at the runner. -/
def Dev.stream (d : Dev) (e : Nat) : StreamRun := d.run.streams.getD e {}
/-- Change stream entry `e`. -/
def Dev.onStream (d : Dev) (e : Nat) (f : StreamRun → StreamRun) : Dev :=
  { d with run := { d.run with streams := modAt d.run.streams e f } }
/-- Runner output `o` as a forwarding output. -/
def Dev.routeOut (d : Dev) (o : Nat) : RouteOut := d.run.outs.getD o {}
/-- Change forwarding output `o`. -/
def Dev.onOut (d : Dev) (o : Nat) (f : RouteOut → RouteOut) : Dev := { d with run := { d.run with outs := modAt d.run.outs o f } }
/-- The settings the runner acts on. -/
def StreamRun.e (s : StreamRun) : Nat := s.entry.toNat
/-- Whether output `o` is among the destinations acted on. -/
def StreamRun.goes (s : StreamRun) (o : Nat) : Bool := s.dest.getLsbD o
/-- Whether the frame in progress, or the packets between frames, go to output `o`. -/
def StreamRun.takes (s : StreamRun) (o : Nat) : Bool := s.taking.getLsbD o && !s.droppedAt.getLsbD o
/-- Output numbers set in a mask. -/
def outsOf (m : BitVec 64) : List Nat := (List.range 48).filter (fun o => m.getLsbD o)
/-- A mask of outputs. -/
def outMask (l : List Nat) : BitVec 64 := BitVec.ofNat 64 (maskOf l)

/-- Whether the protocol of an entry's packets is DSI-2: that of its receive port, or of the transmit port it is sent to; a
replayed or pair-link stream is framed as its destination. -/
def Dev.streamDsi (d : Dev) (e : Nat) : Bool :=
  if seKind e == 0 then d.rxDsi (seSrc e) else false

/-! ## The entry a packet belongs to (R121) -/

/-- Whether entry `e` has this source and VC. -/
def Dev.entryOn (d : Dev) (kind src vc e : Nat) : Bool :=
  let s := (d.stream e).e
  seOn s && seKind s == kind && seSrc s == src && seVc s == vc

/-- The entry a packet belongs to (R121): an exact match, else any-DT. -/
def Dev.classify (d : Dev) (kind src : Nat) (p : Packet) : Option Nat :=
  let l := (List.range 128).filter (d.entryOn kind src p.vc)
  match l.find? (fun e => !seAny (d.stream e).e && seDt (d.stream e).e == p.dt) with
  | some e => some e
  | none => l.find? (fun e => seAny (d.stream e).e)

/-! ## Routes (R130, R131) -/

/-- The streams whose acted destinations include transmit port `o`. -/
def Dev.routedTo (d : Dev) (o : Nat) : List StreamRun := d.run.streams.filter (fun s => seOn s.e && s.goes o)

/-- Whether transmit port `o` is burst-follow from receive port `rx` (R130). -/
def Dev.burstFollow (d : Dev) (o rx : Nat) : Bool :=
  let l := d.routedTo o
  let kb := d.ln P.txp_lane_kbps o
  let r := (d.rxp rx).rate
  !l.isEmpty && l.all (fun s => seKind s.e == 0 && seSrc s.e == rx) && d.rxDsi rx == (bits (d.ln P.txp_protocol o) 0 2 == 1) &&
    d.cn P.rxp_lanes rx == d.ln P.txp_lanes o && decide (r * 1000 ≤ kb * 1005) && decide (kb * 995 ≤ r * 1000)

/-- R_out of an output in kb/s: a transmit port's lanes × rate; the Morcel link's payload rate, that of its blocks (R131, R343;
assumption 42). -/
def Dev.rOut (d : Dev) (o : Nat) : Nat := if o < 16 then d.ln P.txp_lanes o * d.ln P.txp_lane_kbps o else 80000000

/-- R_in of a source in kb/s: a receive port's lanes × measured rate (R131). -/
def Dev.rIn (d : Dev) (e : Nat) : Nat :=
  if seKind e == 0 then d.cn P.rxp_lanes (seSrc e) * (d.rxp (seSrc e)).rate else 0

/-- The start threshold of a packet of `len` bytes on a converted route (R131). -/
def startBytes (rIn rOut len : Nat) : Nat :=
  if rOut ≤ rIn || rIn == 0 then 0 else ceilDiv (len * (rOut - rIn)) rOut + 64

/-- The core cycles that so many bytes take at a rate in kb/s. -/
def wireCycles (len kbps : Nat) : Nat := if kbps == 0 then 0 else len * 6400000 / kbps

/-- Whether output `o` carries forwarded traffic now: a transmit port from the runner in Run, or pair-link forwarding on a link
that is up. -/
def Dev.outOpen (d : Dev) (o : Nat) : Bool :=
  if o < 16 then (d.txp o).state == .run && d.ln P.txp_source o == 2
  else if o < 32 then true
  else if o < 40 then d.mor.up
  else true

/-- Whether output `o` forwards packets: a transmit port or a pair-link forwarding channel. -/
def forwards (o : Nat) : Bool := decide (o < 16) || (decide (32 ≤ o) && decide (o < 40))

/-! ## The route FIFO (R131, R132) -/

/-- A packet is sent after those before it, once it may be started. -/
def Queued.after (q : Queued) (free dur : Nat) : Queued := { q with start := max free q.ready, stop := max free q.ready + dur }

/-- When the last packet of a FIFO has left. -/
def freeAt (l : List Queued) : Nat := (l.getLast?.map (·.stop)).getD 0

/-- The packets not yet being sent at an instant move up. -/
def moveUp (t : Nat) (l : List Queued) : List Queued :=
  l.foldl (fun acc q => acc ++ [if q.start ≤ t then q else q.after (max t (freeAt acc)) (q.stop - q.start)]) []

/-- Packets whose last byte has left an output's FIFO are on its pins. -/
def Dev.drainOut (d : Dev) (t o : Nat) : Dev :=
  let l := (d.routeOut o).fifo
  let gone := l.filter (fun q => decide (q.stop ≤ t))
  if gone.isEmpty then d
  else gone.foldl (fun d q => (d.hsEntry o).say (.packet o q.pkt)) (d.onOut o (fun r => { r with fifo := l.filter (fun q => decide (t < q.stop)) }))

/-- FILL bytes, FILL[7:0] and FILL[15:8] alternating (R141). -/
def fillBytes (fill k : Nat) : Bytes := (List.range k).map (fun i => BitVec.ofNat 8 (if i % 2 == 0 then fill else fill / 256))

/-- A long packet of `wc` bytes completed with FILL after the bytes it has, its CRC inverted (R132, R138, R141). -/
def fillPacket (p : Packet) (fill wc : Nat) : Packet :=
  if p.short then p else { p with payload := p.payload.take wc ++ fillBytes fill (wc - p.payload.length), marked := true }

/-- Put a packet of entry `e` on a forwarding output at an instant: into a transmit port's route FIFO, from which it leaves whole in its
turn, or on a channel of the pair link (R131, R342). `head`: when its header arrived, where that is not its length before. -/
def Dev.forward (d : Dev) (t e o : Nat) (p : Packet) (head : Option Nat) : Dev :=
  if !d.outOpen o then d
  else if 16 ≤ o then d.morForward (o - 32) p
  else
    let s := (d.stream e).e
    let len := packetBytes p
    let rIn := d.rIn s
    let th := if d.burstFollow o (seSrc s) then 0 else min len (startBytes rIn (d.rOut o) len)
    let ready := head.getD (t - wireCycles len rIn) + wireCycles th rIn
    let d := d.drainOut t o
    (d.onOut o (fun r => { r with fifo := r.fifo ++ [(⟨e, p, ready, 0, 0⟩ : Queued).after (freeAt r.fifo) (wireCycles len (d.rOut o))] })).drainOut t o

/-- Entry `e`'s frame leaves an output's FIFO (R132 step 1): the packet being sent is completed with FILL, the others go. -/
def Dev.dropQueued (d : Dev) (t e o : Nat) : Dev :=
  let fill := seFill (d.stream e).e
  let sent (q : Queued) : Nat := (t - q.start) * d.rOut o / 6400000 - 4
  let cut (q : Queued) : Option Queued :=
    if q.entry != e then some q
    else if q.start ≤ t then
      some (if q.pkt.short then q else { q with pkt := fillPacket { q.pkt with payload := q.pkt.payload.take (sent q) } fill q.pkt.payload.length })
    else none
  d.onOut o (fun r => { r with fifo := moveUp t (r.fifo.filterMap cut) })

/-- Count the bytes offered to a converted transmit port (R132), and the moment they go over its capacity for the heat. -/
def Dev.offer (d : Dev) (n : Now) (e o len : Nat) : Dev :=
  if decide (16 ≤ o) || d.burstFollow o (seSrc (d.stream e).e) then d
  else
    let cap := d.rOut o
    d.onOut o (fun r =>
      let t := r.offered.noteBy n len []
      { r with offered := t, warned := if r.warned.isNone && decide (cap < t.count * 64) then some (n, e) else r.warned })

/-- 0x0507 for the heat that ends: an output was offered more than it can carry (R132). -/
def Dev.tellOut (d : Dev) (o : Nat) : Dev :=
  let r := d.routeOut o
  let d := d.onOut o (fun r => { r with offered := {}, warned := none })
  match r.warned with
  | some (t, e) => d.raise t 0x0507 e (leBytes 1 o ++ leBytes 4 (r.offered.count % 2 ^ 32))
  | none => d

/-! ## Senders and switches (R134) -/

/-- The match fields of an entry that a sender is known by. -/
def seMatch (e : Nat) : Nat := bits e 0 20

/-- Whether entry `e` may start a frame at output `o` (R134): no other source's frame on its outgoing VC is in progress there. -/
def Dev.vcFree (d : Dev) (e o : Nat) : Bool :=
  let s := d.stream e
  !((List.range 128).any (fun k =>
    let r := d.stream k
    k != e && r.inFrame && r.takes o && seOutVc r.e == seOutVc s.e && seSource r.e != seSource s.e))

/-- The destinations an entry has in force: those committed, less the runner's ports that quench holds (R61). -/
def Dev.destNow (d : Dev) (e : Nat) : BitVec 64 :=
  BitVec.ofNat 64 (d.cn P.stream_dest e) &&& ~~~ outMask ((List.range 16).filter (fun o => (d.txp o).quenched && d.ln P.txp_source o == 2))

/-- Whether a stream that sent at output `o` still goes there by the configuration in force. -/
def Dev.stillSends (d : Dev) (o : Nat) (x : VcSender) : Bool :=
  let was := d.cn P.stream_entry x.entry
  seOn was && seMatch was == x.key && (d.destNow x.entry).getLsbD o

/-- A frame of entry `e` starts at output `o` (R134): 0x0502 when the stream is new there and replaces one of its outgoing VC that no longer
goes there. -/
def Dev.switchTo (d : Dev) (n : Now) (e o : Nat) : Dev :=
  let s := d.stream e
  let vc := seOutVc s.e
  let mine (x : VcSender) : Bool := x.entry == e && x.key == seMatch s.e
  let l := (d.routeOut o).senders
  let known := l.any (fun x => x.vc == vc && mine x)
  let old := l.find? (fun x => x.vc == vc && !mine x && !d.stillSends o x)
  let rest := l.filter (fun x => !(x.vc == vc && mine x) && some x != old)
  let at_ := ((l.find? (fun x => x.vc == vc && mine x)).map (·.feAt)).getD n.abs
  let d := d.onOut o (fun r => { r with senders := ⟨vc, e, seMatch s.e, at_⟩ :: (if known then l.filter (fun x => !(x.vc == vc && mine x)) else rest) })
  match old with
  | some x => if known then d else d.raise n 0x0502 e (leBytes 1 o ++ leBytes 1 x.entry ++ leBytes 4 (n.abs - x.feAt))
  | none => d

/-- A frame end on an outgoing VC has been given to output `o` for the streams of entries `es`: periodic deskew counts it (R115). -/
def Dev.feSent (d : Dev) (n : Now) (es : List Nat) (o vc : Nat) : Dev :=
  let d := d.onOut o (fun r => { r with
    senders := r.senders.map (fun x => if x.vc == vc && es.any (fun e => e == x.entry) then { x with feAt := n.abs } else x), fes := r.fes + 1 })
  if o < 16 then d.txFrameDeskew o else d

/-- The device sends a frame end of its own at output `o` (R132, R141). -/
def Dev.emitFe (d : Dev) (n : Now) (e o : Nat) : Dev :=
  let s := d.stream e
  let dsi := if o < 16 then bits (d.ln P.txp_protocol o) 0 2 == 1 else d.streamDsi s.e
  let p : Packet := ⟨seVc s.e, if dsi then 0x11 else 0x01, true, if dsi then 0 else s.frameNo, [], false⟩
  (d.forward n.abs e o (seRewrite s.e true p) (some n.abs)).feSent n [e] o (seOutVc s.e)

/-- The long packet in progress of entry `e`, with the bytes received, and its word count. -/
def Dev.partOf (d : Dev) (e : Nat) : Option (Packet × Nat) :=
  let s := (d.stream e).e
  let got : Option (Packet × Nat) :=
    if seKind s == 0 then (d.rxp (seSrc s)).part
    else if seKind s == 2 then (d.mor.fwdPart.getD (seSrc s) none).bind csiPart
    else none
  got.filter (fun q => d.classify (seKind s) (seSrc s) q.1 == some e)

/-- A frame of entry `e` is closed at output `o` (R141): a long packet in progress is completed with FILL under an inverted CRC, and FE is
sent. -/
def Dev.closeAt (d : Dev) (n : Now) (e o : Nat) : Dev :=
  let s := (d.stream e).e
  let d := match d.partOf e with
    | some (p, wc) => d.forward n.abs e o (fillPacket (seRewrite s false p) (seFill s) wc) none
    | none => d
  d.emitFe n e o

/-! ## Settings and freezes (R133, R140) -/

/-- Whether a stream is frozen. -/
def StreamRun.frozen (s : StreamRun) : Bool := s.crcHolds || s.fnHolds

/-- 0x0902 when a stream's frozen state changed from `was` (R140). -/
def Dev.tellFreeze (d : Dev) (n : Now) (e : Nat) (was : StreamRun) : Dev :=
  let s := d.stream e
  let det (r : StreamRun) (st : Nat) : Bytes :=
    leBytes 1 st ++ leBytes 1 (if r.crcHolds then 1 else 2) ++ leBytes 2 (sat 16 (if r.crcHolds then r.crcRun else r.fnRun)) ++
      leBytes 4 r.lastCrc.toNat
  if s.frozen && !was.frozen then d.raise n 0x0902 e (det s 1)
  else if was.frozen && !s.frozen then d.raise n 0x0902 e (det was 0)
  else d

/-- Ports that a quench holds stop once no frame is in progress there (R61). -/
def Dev.quenchFollow (d : Dev) (n : Now) (outs : BitVec 64) : Dev :=
  (outsOf outs).foldl (fun (d : Dev) o => if o < 16 && (d.txp o).quenched then d.txFollow n o else d) d

/-- Whether a frame is in progress on a source's VC. -/
def Dev.vcOpen (d : Dev) (source : Nat) : Bool := d.run.streams.any (fun s => s.inFrame && seSource s.e == source)

/-- Entry `e` takes its committed settings whole (R133). A new key begins afresh; a new SAMPLE or FREEZE_N begins new runs and ends no
freeze (R140): after a new SAMPLE, the first frame has no earlier CRC to be compared with. -/
def Dev.takeEntry (d : Dev) (n : Now) (e : Nat) : Dev :=
  let s := d.stream e
  let ne := BitVec.ofNat 64 (d.cn P.stream_entry e)
  let nd := d.destNow e
  if seKey s.e != seKey ne.toNat then
    let d := d.onStream e (fun _ => { entry := ne, dest := nd })
    d.tellFreeze n e s
  else
    let fresh := seFreeze s.e != seFreeze ne.toNat || seSample s.e != seSample ne.toNat
    d.onStream e (fun s => { s with
      entry := ne, dest := nd, owed := false, taking := s.taking &&& nd
      crcRun := if fresh && (!s.crcHolds || seSample s.e != seSample ne.toNat) then 0 else s.crcRun
      fnRun := if fresh && !s.fnHolds then 0 else s.fnRun })

/-- Whether the settings an entry acts on are the ones in force. -/
def Dev.entryCurrent (d : Dev) (e : Nat) : Bool :=
  let s := d.stream e
  s.entry == BitVec.ofNat 64 (d.cn P.stream_entry e) && s.dest == d.destNow e

/-- Whether entry `e` must wait with a change (R133): a frame is in progress on the VC it leaves or joins. -/
def Dev.entryWaits (d : Dev) (e : Nat) : Bool :=
  let s := (d.stream e).e
  let c := d.cn P.stream_entry e
  (d.stream e).inFrame || (seOn s && d.vcOpen (seSource s)) || (seOn c && d.vcOpen (seSource c))

/-- Entry `e` at a heat boundary (R133): with no frame in progress on its VC it takes a change, else the change waits. -/
def Dev.streamFollow (d : Dev) (n : Now) (e : Nat) : Dev :=
  if d.entryCurrent e || (d.stream e).owed then d
  else if d.entryWaits e then d.onStream e (fun s => { s with owed := true })
  else d.takeEntry n e

/-- Every entry at a heat boundary (R133). -/
def Dev.streamsFollow (d : Dev) (n : Now) : Dev := (List.range 128).foldl (fun d e => d.streamFollow n e) d

/-- Entry `e` at the end of a frame on its VC (R133): new match fields and a removed destination act, the rest waits for a frame start. -/
def Dev.entryFe (d : Dev) (n : Now) (e : Nat) : Dev :=
  if d.entryCurrent e || d.entryWaits e then d
  else if seKey (d.stream e).e != seKey (d.cn P.stream_entry e) then d.takeEntry n e
  else
    let nd := d.destNow e
    d.onStream e (fun s => { s with dest := s.dest &&& nd, taking := s.taking &&& nd })

/-- Entry `e` before a frame start on its VC (R133): every change acts. -/
def Dev.entryFs (d : Dev) (n : Now) (e : Nat) : Dev := if d.entryCurrent e || d.entryWaits e then d else d.takeEntry n e

/-- Whether entry `e` is on a source's VC, or is about to be. -/
def Dev.onVc (d : Dev) (source e : Nat) : Bool :=
  seSource (d.stream e).e == source || seSource (d.cn P.stream_entry e) == source

/-- The entries of a VC follow once its frame has ended (R133), and quenched ports stop (R61). -/
def Dev.vcEnded (d : Dev) (n : Now) (source : Nat) (outs : BitVec 64) : Dev :=
  (((List.range 128).filter (d.onVc source)).foldl (fun d e => d.entryFe n e) d).quenchFollow n outs

/-- A freeze that the settings acted on can no longer hold ends at a frame start (R140). -/
def Dev.freezeSettings (d : Dev) (n : Now) (e : Nat) : Dev :=
  let s := d.stream e
  let off := seFreeze s.e == 0
  let d := d.onStream e (fun s => { s with crcHolds := s.crcHolds && !off, fnHolds := s.fnHolds && !off && seFn s.e })
  d.tellFreeze n e s

/-- The runs of a stream at the FE of a frame (R139, R140). -/
def StreamRun.judge (s : StreamRun) : StreamRun :=
  let k := seFreeze s.e
  if k == 0 then s
  else
    let dropped := s.dest != 0 && (s.dest &&& ~~~s.droppedAt) == 0
    let s :=
      if s.marked || dropped then s
      else
        let c := s.crc ^^^ 0xFFFFFFFF#32
        let same := c == s.lastCrc && 0 < s.crcRun
        let run := if same then s.crcRun + 1 else 1
        { s with lastCrc := c, crcRun := run, crcHolds := if s.crcHolds then same || s.crcRun == 0 else decide (k ≤ run) }
    if seFn s.e then
      let on := (s.fnHolds && s.lastFn == s.fnHeld) || decide (k ≤ s.fnRun)
      { s with fnHolds := on, fnHeld := if on then s.lastFn else s.fnHeld }
    else s

/-! ## Frames that end without FE (R141) -/

/-- Entry `e`'s frame ends incomplete: sprues discard it, forwarding outputs complete the line and send FE; counted; 0x0505. -/
def Dev.streamCut (d : Dev) (n : Now) (e cause : Nat) : Dev :=
  let s := d.stream e
  if !s.inFrame then d
  else
    let d := (outsOf s.taking).foldl (fun d o =>
      if !s.takes o then d
      else if forwards o then d.closeAt n e o
      else if o < 32 then sprueIncomplete d n (o - 16) cause
      else d) d
    let d := d.onStream e (fun s => { s with inFrame := false, taking := 0, droppedAt := 0 })
    let d := d.bumpField P.stream_stats e 48 16 1
    d.raise n 0x0505 e (leBytes 1 cause ++ leBytes 2 (sat 16 s.lines))

/-- The entries with a frame in progress from a source. -/
def Dev.openFrom (d : Dev) (kind src : Nat) : List Nat :=
  (List.range 128).filter (fun e => let s := d.stream e; s.inFrame && seKind s.e == kind && seSrc s.e == src)

/-- Every frame in progress of a source ends incomplete. -/
def Dev.sourceCut (d : Dev) (n : Now) (kind src cause : Nat) : Dev :=
  let l := d.openFrom kind src
  let ends := l.map (fun e => (seSource (d.stream e).e, (d.stream e).taking))
  let d := l.foldl (fun d e => d.streamCut n e cause) d
  ends.foldl (fun d x => d.vcEnded n x.1 x.2) d

/-- A frame of entry `e` is dropped at output `o` (R132): what is queued goes, FE, counted, 0x0501; a parity error is fault 3. -/
def Dev.routeDrop (d : Dev) (n : Now) (e o cause : Nat) : Dev :=
  let s := d.stream e
  let d := (d.dropQueued n.abs e o).emitFe n e o
  let d := (d.onStream e (fun s => { s with droppedAt := s.droppedAt ||| outMask [o] })).quenchFollow n (outMask [o])
  let d := d.bumpField P.stream_stats e 32 16 1
  let d := d.raise n 0x0501 e (leBytes 1 o ++ leBytes 1 cause ++ leBytes 2 s.frameNo)
  if cause == 3 then (d.bumpField P.flt_parity_counts 0 0 32 1).fault n 3 o [] false else d

/-! ## Delivery (R121, R122, R126) -/

/-- What comes with a packet: the outputs whose FIFO or write queue is full or shows a parity error, and when a replay reader releases it. -/
structure Feed where
  full   : BitVec 48 := 0
  parity : BitVec 48 := 0
  at_    : Option Nat := none

/-- Why a packet's words cannot enter an output (R132): 1 full, 3 a parity error, 0 they can. -/
def Feed.cause (f : Feed) (o : Nat) : Nat := if f.full.getLsbD o then 1 else if f.parity.getLsbD o then 3 else 0

/-- Entry `e` sees a frame start (R122, R134, R140). -/
def streamFs (x : DM) (n : Now) (dsi : Bool) (p : Packet) (e : Nat) : DM :=
  let d := x.dev.freezeSettings n e
  let fn := if dsi then 0 else p.data
  let outs := (outsOf (d.stream e).dest).filter (fun o => d.outOpen o && (!forwards o || d.vcFree e o))
  let d := d.onStream e (fun s => { s with
    inFrame := true, taking := outMask outs, droppedAt := 0, frameNo := fn, lines := 0, crc := 0xFFFFFFFF#32, marked := false
    period := if s.starts == 0 then none else some (n.abs - s.fsAt), fsAt := n.abs, starts := s.starts + 1
    fnRun := if fn == 0 then 0 else if fn == s.lastFn then s.fnRun + 1 else 1, lastFn := fn })
  let d := outs.foldl (fun d o =>
    if forwards o then d.switchTo n e o
    else if o < 32 then sprueFs d n (o - 16) (seDt (d.stream e).e) dsi
    else d) d
  ⟨d, x.mem⟩

/-- Entry `e` sees the FE of its frame: sprues complete it; counted; the freeze runs are judged (R139, R140). -/
def streamFe (x : DM) (n : Now) (e : Nat) : DM :=
  let s := x.dev.stream e
  if !s.inFrame then x
  else
    let x := (outsOf s.taking).foldl (fun (x : DM) o => if 16 ≤ o && o < 32 then sprueFe x n (o - 16) else x) x
    let d := (x.dev.onStream e (fun s => { s.judge with inFrame := false, droppedAt := 0 })).tellFreeze n e s
    ⟨d.bumpField P.stream_stats e 0 32 1, x.mem⟩

/-- A framing packet at one forwarding output, for the entries `es` whose streams take it there (R122, R132): offered, sent unless its words
do not enter; a frame end is counted. -/
def Dev.framingOut (d : Dev) (n : Now) (es : List Nat) (fe : Bool) (f : Feed) (o : Nat) (q : Packet) : Dev :=
  match es with
  | [] => d
  | e :: _ =>
    let d := d.offer n e o (packetBytes q)
    let cause := f.cause o
    if cause == 0 then
      let d := d.forward n.abs e o q f.at_
      if fe then d.feSent n es o q.vc else d
    else es.foldl (fun d e => if (d.stream e).inFrame && (d.stream e).takes o then d.routeDrop n e o cause else d) d

/-- The outputs that forward a framing packet of entries `l`, each once with the packet as it leaves and its entries (R122). -/
def Dev.framingSends (d : Dev) (l : List Nat) (p : Packet) : List (Nat × Packet × List Nat) :=
  let all := l.flatMap (fun e =>
    let s := d.stream e
    ((outsOf s.taking).filter (fun o => forwards o && s.takes o)).map (fun o => ((o, seRewrite s.e true p), e)))
  ((all.map (·.1)).eraseDups).map (fun q => (q.1, q.2, (all.filter (fun a => a.1 == q)).map (·.2)))

/-- A packet no entry claims (R123): counted per receive port for this heat's 0x0503. -/
def Dev.unmatched (d : Dev) (n : Now) (kind src : Nat) (p : Packet) : Dev :=
  if kind != 0 then d
  else d.onRx src (fun r => { r with unmatched := r.unmatched.note n (leBytes 1 p.vc ++ leBytes 1 p.dt) })

/-- What comes before a frame start on a VC: a frame still in progress there ends incomplete, then changes of its entries act (R133, R141). -/
def Dev.beforeFs (d : Dev) (n : Now) (kind src vc : Nat) : Dev :=
  let l := (List.range 128).filter (d.entryOn kind src vc)
  let d := l.foldl (fun d e => d.streamCut n e 6) d
  let source := vc + 16 * src + 512 * kind
  ((List.range 128).filter (d.onVc source)).foldl (fun d e => d.entryFs n e) d

/-- A framing packet (R122): each destination of the entries on its source and VC receives it once. -/
def framing (x : DM) (n : Now) (kind src : Nat) (dsi : Bool) (p : Packet) (f : Feed) : DM :=
  let d := if isFs dsi p then x.dev.beforeFs n kind src p.vc else x.dev
  let l := (List.range 128).filter (d.entryOn kind src p.vc)
  if l.isEmpty then ⟨d.unmatched n kind src p, x.mem⟩
  else
    let x : DM := if isFs dsi p then l.foldl (fun x e => streamFs x n dsi p e) ⟨d, x.mem⟩ else ⟨d, x.mem⟩
    let d := (x.dev.framingSends l p).foldl (fun d q => d.framingOut n q.2.2 (isFe dsi p) f q.1 q.2.1) x.dev
    let x : DM := ⟨d, x.mem⟩
    if isFe dsi p then
      let outs := l.foldl (fun m e => m ||| (x.dev.stream e).taking) 0
      let x := l.foldl (fun x e => streamFe x n e) x
      ⟨x.dev.vcEnded n (p.vc + 16 * src + 512 * kind) outs, x.mem⟩
    else x

/-- One forwarding output takes a packet of entry `e` (R126, R131, R132). -/
def Dev.packetOut (d : Dev) (n : Now) (e o : Nat) (p : Packet) (f : Feed) : Dev :=
  let s := d.stream e
  let q := seRewrite s.e false p
  let d := d.offer n e o (packetBytes p)
  let th := if d.burstFollow o (seSrc s.e) then 0 else startBytes (d.rIn s.e) (d.rOut o) (packetBytes p)
  let cause := if f.cause o != 0 then f.cause o else if 15360 < th then 2 else 0
  if cause == 0 then
    if o < 16 && bits (d.ln P.txp_protocol o) 0 2 == 1 && !dsiReceived q.dt then d else d.forward n.abs e o q f.at_
  else if s.inFrame then (if cause == 2 then d else d.forward n.abs e o q f.at_).routeDrop n e o cause
  else if cause == 3 then (d.bumpField P.flt_parity_counts 0 0 32 1).fault n 3 o [] false
  else d

/-- One destination takes a packet of entry `e` (R126, R132, R183). -/
def toOutput (x : DM) (n : Now) (e : Nat) (p : Packet) (f : Feed) (o : Nat) : DM :=
  let s := x.dev.stream e
  if !s.takes o then x
  else if forwards o then ⟨x.dev.packetOut n e o p f, x.mem⟩
  else if o < 32 then
    if f.cause o == 1 then ⟨sprueOverflow x.dev n (o - 16), x.mem⟩
    else if f.cause o == 3 then
      ⟨(((sprueAbandon x.dev (o - 16))).bumpField P.flt_parity_counts 0 32 32 1).fault n 3 (o - 16) [] false, x.mem⟩
    else if p.short then x
    else sprueLine x n (o - 16) p.payload p.marked
  else if p.short then x
  else ⟨audioExtract x.dev n (o - 40) p.payload p.marked, x.mem⟩

/-- A long or generic short packet of entry `e` (R121, R126, R139). -/
def toStream (x : DM) (n : Now) (e : Nat) (p : Packet) (f : Feed) : DM :=
  let s := x.dev.stream e
  let x := (outsOf s.taking).foldl (fun x o => toOutput x n e p f o) x
  if p.short || !s.inFrame then x
  else
    let counts := seFreeze s.e != 0 && s.lines % 2 ^ seSample s.e == 0
    ⟨x.dev.onStream e (fun s => { s with
      lines := s.lines + 1, marked := s.marked || p.marked, crc := if counts then crcFeed s.crc p.payload else s.crc }), x.mem⟩

/-- On burst-follow ports of a receive port, a long packet that is not forwarded is replaced by a null or blanking packet of its
length (R130). -/
def Dev.followFill (d : Dev) (n : Now) (src : Nat) (dsi : Bool) (p : Packet) (took : BitVec 64) : Dev :=
  if p.short then d
  else (List.range 16).foldl (fun d o =>
    if took.getLsbD o || !d.burstFollow o src then d
    else
      let e := ((List.range 128).find? (fun e => seOn (d.stream e).e && (d.stream e).goes o)).getD 0
      let dt := if dsi then 0x19 else 0x10
      d.forward n.abs e o ⟨p.vc, dt, false, 0, (List.range p.payload.length).map (fun k => Config.rawFill 0 dt k), false⟩ none) d

/-- A packet from a source goes to classification (R121 to R123). -/
def deliver (x : DM) (n : Now) (kind src : Nat) (dsi : Bool) (p : Packet) (f : Feed) : DM :=
  if isFraming dsi p then framing x n kind src dsi p f
  else
    let fill (d : Dev) (took : BitVec 64) : Dev := if kind == 0 then d.followFill n src dsi p took else d
    match x.dev.classify kind src p with
    | some e =>
      let x := toStream x n e p f
      ⟨fill x.dev ((x.dev.stream e).taking &&& ~~~(x.dev.stream e).droppedAt), x.mem⟩
    | none => ⟨fill (x.dev.unmatched n kind src p) 0, x.mem⟩

/-! ## Receive ports (R99, R107, R109) -/

/-- Count in `rxp.err_counts` and in one of the port's tallies. -/
def Dev.rxError (d : Dev) (i lo : Nat) (f : RxPort → RxPort) : Dev := (d.onRx i f).bumpField P.rxp_err_counts i lo 16 1

/-- The events of a receive port for the heat that ends (R109, R123): header ECC, payload CRC, SoT sync and unmatched packets. -/
def Dev.tellRx (d : Dev) (i : Nat) : Dev :=
  let r := d.rxp i
  let d := d.onRx i (fun r => { r with eccErr := {}, crcErr := {}, sotErr := {}, unmatched := {} })
  let d := d.tell r.eccErr 0x0405 i r.eccErr.bytes
  let d := d.tell r.crcErr 0x0406 i (r.crcErr.bytes ++ r.crcErr.last)
  let d := d.tell r.sotErr 0x0407 i (r.sotErr.bytes ++ r.sotErr.last)
  d.tell r.unmatched 0x0503 i (r.unmatched.bytes ++ r.unmatched.last)

/-- The VC a port reads from a header (R107). -/
def Dev.rxVc (d : Dev) (i : Nat) (p : Packet) : Nat := if !d.rxDsi i && bit (d.cn P.rxp_protocol i) 2 then p.vc % 16 else p.vc % 4

/-- A line discarded for its CRC counts as marked for the freeze check of the stream it belongs to (R109, R139). -/
def Dev.markStream (d : Dev) (i : Nat) (p : Packet) : Dev :=
  match d.classify 0 i p with
  | some e => if bit (d.rxp i).synced p.vc && (d.stream e).inFrame then d.onStream e (fun s => { s with marked := true }) else d
  | none => d

/-- A packet whose header is valid or corrected (R107, R109). What is not delivered is replaced on burst-follow ports (R130). -/
def rxPacket (x : DM) (n : Now) (i : Nat) (crcOk truncated : Bool) (p : Packet) (f : Feed) : DM :=
  let d := x.dev
  let dsi := d.rxDsi i
  let vc := d.rxVc i p
  let bad := !p.short && (!crcOk || truncated || (d.rxp i).cut)
  let d := if p.short then d else d.onRx i (fun r => { r with cut := false, part := none })
  let d := if bad then d.rxError i 32 (fun r => { r with crcErr := r.crcErr.note n (leBytes 1 vc ++ leBytes 1 p.dt) }) else d
  let p : Packet := { p with vc := vc, marked := bad }
  let lost (d : Dev) : DM := ⟨d.followFill n i dsi p 0, x.mem⟩
  if bad && d.cn P.rxp_err_policy i == 1 then lost (d.markStream i p)
  else if dsi && dsiConsumed p.dt then lost d
  else if dsi && !isFraming dsi p && !dsiReceived p.dt then lost (d.raise n 0x040D i (leBytes 1 1 ++ leBytes 1 p.dt))
  else if isFs dsi p then
    deliver ⟨d.onRx i (fun r => { r with synced := setBit r.synced vc true }), x.mem⟩ n 0 i dsi p f
  else if bit (d.rxp i).synced vc then deliver ⟨d, x.mem⟩ n 0 i dsi p f
  else lost d

/-- A packet on the lanes of a port whose HS circuits are on (R105, R109): after a header beyond correction, what follows is discarded up to
the next SoT. -/
def rxHeader (x : DM) (n : Now) (i : Nat) (ecc : HeaderEcc) (crcOk truncated : Bool) (p : Packet) (f : Feed) : DM :=
  let r := x.dev.rxp i
  if r.skip || r.dozes (x.dev.cn P.rxp_lanes i) then x
  else match ecc with
    | .bad => ⟨x.dev.rxError i 16 (fun r => { r with eccErr := r.eccErr.note n [], skip := true, part := none }), x.mem⟩
    | .corrected => rxPacket ⟨x.dev.bumpField P.rxp_err_counts i 0 16 1, x.mem⟩ n i crcOk truncated p f
    | .good => rxPacket x n i crcOk truncated p f

/-- An SoT (R109): with at most one bit wrong it is accepted; with more, the burst is ignored. -/
def rxSot (d : Dev) (n : Now) (i lane k : Nat) : Dev :=
  if (d.rxp i).dozes (d.cn P.rxp_lanes i) then d
  else
    let d := d.onRx i (fun r => { r with skip := decide (1 < k) })
    if k == 0 then d
    else d.rxError i 48 (fun r => if k == 1 then r else { r with sotErr := r.sotErr.note n (leBytes 1 lane) })

/-- The long packet in progress at a port, for a loss that comes before its end (R104, R141). -/
def rxPart (d : Dev) (i : Nat) (p : Packet) (wc : Nat) : Dev :=
  let r := d.rxp i
  let q : Packet := { p with vc := d.rxVc i p, marked := false }
  if p.short || r.skip || r.dozes (d.cn P.rxp_lanes i) || !bit r.synced q.vc || (d.rxDsi i && !dsiReceived q.dt) then d
  else d.onRx i (fun r => { r with part := some (q, wc) })

/-- A periodic deskew burst (Table 5.1): used when `rxp.deskew` bit 2 is set. -/
def rxDeskewBurst (d : Dev) (i : Nat) (phases : List Int) : Dev :=
  if bit (d.cn P.rxp_deskew i) 2 && !(d.rxp i).dozes (d.cn P.rxp_lanes i) then
    d.onRx i (fun r => { r with lanes := (List.range r.lanes.length).map (fun k =>
      let l := r.lanes.getD k {}
      if k < 4 then { l with phase := (phases[k]?.map phaseOf).or l.phase } else l) })
  else d

/-- PACKET_RECEIVE (R107 to R109): what a port takes from its lanes. Only Up takes packets; the clock lane's state is followed in every
state. -/
def packetReceive (x : DM) (n : Now) (i : Nat) (u : RxUnit) : DM :=
  match u with
  | .clockStop => ⟨x.dev.onRx i (fun r => { r with clockHs := false }), x.mem⟩
  | .packet ecc crcOk truncated p full parity => if (x.dev.rxp i).state == .up then rxHeader x n i ecc crcOk truncated p ⟨full, parity, none⟩ else x
  | .sot lane k => if (x.dev.rxp i).state == .up then ⟨rxSot x.dev n i lane k, x.mem⟩ else x
  | .lowPower dt => if (x.dev.rxp i).state == .up then ⟨x.dev.raise n 0x040D i (leBytes 1 0 ++ leBytes 1 dt), x.mem⟩ else x
  | .part p wc => if (x.dev.rxp i).state == .up then ⟨rxPart x.dev i p wc, x.mem⟩ else x
  | .deskew l => if (x.dev.rxp i).state == .up then ⟨rxDeskewBurst x.dev i l, x.mem⟩ else x

/-! ## Loss and reconfiguration of a receive port (R104, R118) -/

/-- A port leaves Up: 0x0402 with its cause, and its frames in progress end incomplete. -/
def Dev.rxDown (d : Dev) (n : Now) (i down cut : Nat) : Dev :=
  if (d.rxp i).state == .up then (d.raise n 0x0402 i (leBytes 1 down)).sourceCut n 0 i cut else d

/-- RX_CLOCK_LANE_LOSS (R104): 0x0408; back to Wait; frames in progress end incomplete with cause 1. -/
def rxClockLoss (d : Dev) (n : Now) (i lineState : Nat) : Dev :=
  let st := (d.rxp i).state
  if st == .off || st == .wait then d
  else
    let d := d.raise n 0x0408 i (leBytes 1 (lineState % 2))
    (d.rxDown n i 1 1).onRx i (fun r => { r with clockHs := false }.toWait n.abs false)

/-- RX_DATA_LANE_DROPOUT (R104): the packet in progress is truncated and marked; 0x0409. -/
def rxDropout (d : Dev) (n : Now) (i lane : Nat) : Dev :=
  if (d.rxp i).state != .up then d
  else (d.onRx i (fun r => { r with cut := true })).raise n 0x0409 i (leBytes 1 lane ++ leBytes 1 0)

/-- RX_DATA_LANE_PERSISTENT_LOSS (R104): 0x0409 and 0x0402; back to Wait; frames end with cause 5. -/
def rxPersistent (d : Dev) (n : Now) (i lane : Nat) : Dev :=
  if (d.rxp i).state != .up then d
  else
    let d := d.raise n 0x0409 i (leBytes 1 lane ++ leBytes 1 1)
    (d.rxDown n i 2 5).onRx i (fun r => r.toWait n.abs false)

/-- The parameters whose change returns an Up port to Wait (R118). -/
def rxReconfigures (id : Nat) : Bool := has [P.rxp_protocol, P.rxp_lanes, P.rxp_lane_map, P.rxp_polarity] id

/-- A receive port follows a commit at its boundary (Table 5.2, R118); the lanes of a port set to fixed mode take the fixed code (R102):
`changed` lists the definitions of the port that changed. -/
def Dev.rxFollow (d : Dev) (n : Now) (i : Nat) (changed : List Nat) : Dev :=
  let st := (d.rxp i).state
  if d.cn P.rxp_enable i == 0 || d.pwr.bankBegun then
    if st == .off then d
    else (d.rxDown n i 0 2).onRx i (fun r => { r with state := .off, since := n.abs, synced := 0, cut := false, skip := false, part := none })
  else if st == .off then d.onRx i (fun r => r.toWait n.abs false)
  else if changed.any rxReconfigures && st != .wait then (d.rxDown n i 3 4).onRx i (fun r => r.toWait n.abs false)
  else if has changed P.rxp_eq && bit (d.cn P.rxp_eq i) 0 && st != .wait && st != .clock then
    d.onRx i (fun r => { r with lanes := r.lanes.map (fun l => { l with ctle := bits (d.cn P.rxp_eq i) 4 4 }) })
  else d

/-! ## FE timeout at a switch (R135) -/

/-- Whether the configuration in force has taken the stream of entry `e` away from output `o` (R133, R135). -/
def Dev.removedAt (d : Dev) (e o : Nat) : Bool :=
  let c := d.cn P.stream_entry e
  !(seOn c && seMatch c == seMatch (d.stream e).e && bit (d.cn P.stream_dest e) o)

/-- Whether entry `e`'s frame at an output has gone on for two of its frame periods: 800 heats where none was measured (R135). -/
def StreamRun.overdue (s : StreamRun) (t : Nat) : Bool := decide (s.fsAt + 2 * s.period.getD (800 * heatCycles) ≤ t)

/-- FE_TIMEOUT (R135): a stream that a commit removed from output `o` has not ended its frame within two frame periods, so the port
closes the frame as incomplete and 0x0506 is raised. A stream whose match fields changed is gone everywhere, and its new key takes its place. -/
def feTimeout (d : Dev) (n : Now) (o vc : Nat) : Dev :=
  let late (e : Nat) : Bool :=
    let s := d.stream e
    s.inFrame && s.takes o && seOutVc s.e == vc && d.removedAt e o && s.overdue n.abs
  if !forwards o then d
  else match (List.range 128).find? late with
  | none => d
  | some e =>
    let s := d.stream e
    if seKey s.e != seKey (d.cn P.stream_entry e) then
      ((d.streamCut n e 3).raise n 0x0506 e (leBytes 1 o)).vcEnded n (seSource s.e) s.taking
    else
      let d := d.closeAt n e o
      let d := d.onStream e (fun s => { s with taking := s.taking &&& ~~~outMask [o] })
      let d := d.bumpField P.stream_stats e 48 16 1
      (d.raise n 0x0505 e (leBytes 1 3 ++ leBytes 2 (sat 16 s.lines))).raise n 0x0506 e (leBytes 1 o)

/-! ## Replay (R136 to R138, R171) -/

/-- Entry `r` of `cru.replay`. -/
def Dev.replayCfg (d : Dev) (r : Nat) : Bytes := slice (d.cb P.cru_replay 0) (8 * r) 8

/-- The bytes a stored line is sent as (Table 6.5). -/
def replayLine (m : Mem) (v : SlotView) (dsi : Bool) (k : Nat) : Bytes :=
  let at' (p j : Nat) : Nat := planeStart v.fmt v.height v.stride p + v.stride * j
  let row := slotReads m v.slot (at' 0 k) (lineBytes v.fmt v.width)
  let uyvy (c : Bytes) : Bytes := (List.range (v.width / 2)).flatMap (fun j =>
    slice c (2 * j) 1 ++ slice row (2 * j) 1 ++ slice c (2 * j + 1) 1 ++ slice row (2 * j + 1) 1)
  if v.fmt == 0x04 then uyvy (slotReads m v.slot (at' 1 k) v.width)
  else if v.fmt == 0x03 then (if k % 2 == 0 then row else uyvy (slotReads m v.slot (at' 1 (k / 2)) v.width))
  else if dsi && v.fmt == 0x08 then (List.range v.width).flatMap (fun j =>
    let w := rd row (2 * j) 2
    leBytes 2 (bits w 11 5 + bits w 5 6 * 32 + bits w 0 5 * 2048))
  else if dsi && v.fmt == 0x09 then (List.range v.width).flatMap (fun j => (slice row (3 * j) 3).reverse)
  else row

/-- Whether a DT is one replay sends on DSI-2 (Table 6.5). -/
def replayDsi (dt : Nat) : Bool := has [0x0E, 0x3E] dt

/-- The frame start of a reader's pacing source at an instant (R136, R171): the pour of its running timing generator, or every PERIOD heats,
counted from heat 0 (assumption 42). -/
def Dev.paceAt (d : Dev) (r : Nat) (n : Now) : Option Nat :=
  let c := d.replayCfg r
  let tg := d.tgen (rd c 3 1)
  match rd c 2 1 with
  | 1 => if tg.state == .running && tg.pourAt == n.abs then some n.abs else none
  | 2 => if rd c 4 2 != 0 && n.heat % rd c 4 2 == 0 then some (n.heat * heatCycles) else none
  | _ => none

/-- When line j of a replayed frame is released (R136): at the start of the generator's active line j, or as the FIFO accepts it. -/
def Dev.releaseAt (d : Dev) (r : Nat) (n : Now) (j : Nat) : Nat :=
  let c := d.replayCfg r
  let g := rd c 3 1
  let total := d.ln P.tg_h_sync g + d.ln P.tg_h_bp g + d.ln P.tg_h_active g + d.ln P.tg_h_fp g
  if rd c 2 1 == 1 then n.abs + (d.ln P.tg_v_sync g + d.ln P.tg_v_bp g + j) * total * 800000000 / max 1 (d.ln P.tg_pclk_hz g) else n.abs

/-- One line of a replayed frame for entry `e` (R136, R138): `got`, where its fetch was late, the bytes there in time; 0x0508 at most once
per heat. -/
def replaySend (x : DM) (n : Now) (r j e : Nat) (dsi : Bool) (line : Bytes) (got : Option Nat) (f : Feed) : DM :=
  let s := (x.dev.stream e).e
  let p : Packet := ⟨seVc s, seDt s, false, 0, line, false⟩
  let p := match got with
    | some k => fillPacket { p with payload := line.take k } (seFill s) line.length
    | none => p
  let tell := got.isSome && (x.dev.run.replay.getD r {}).lateHeat != some n.heat
  let d := if tell then
      ({ x.dev with run := { x.dev.run with replay := modAt x.dev.run.replay r (fun p => { p with lateHeat := some n.heat }) } } : Dev).raise n
        0x0508 e (leBytes 1 r ++ leBytes 2 j)
    else x.dev
  deliver ⟨d, x.mem⟩ n 1 r dsi p f

/-- A frame of reader `r` for its entries on one VC (R136): FS, its lines, FE. -/
def replayVc (x : DM) (n : Now) (r no : Nat) (v : SlotView) (late : List (Nat × Nat)) (drops : List (Nat × BitVec 48 × BitVec 48)) (vc : Nat) : DM :=
  let mine (d : Dev) : List Nat := (List.range 128).filter (d.entryOn 1 r vc)
  let framed (d : Dev) (e : Nat) : Bool :=
    replayDsi (seDt (d.stream e).e) || (outsOf (d.destNow e)).any (fun o => o < 16 && bits (d.ln P.txp_protocol o) 0 2 == 1)
  let dsi := (mine x.dev).any (framed x.dev)
  let sync (a b : Nat) : Packet := ⟨vc, if dsi then a else b, true, if dsi then 0 else no, [], false⟩
  let x := deliver x n 1 r dsi (sync 0x01 0x00) { at_ := some n.abs }
  let x := (List.range v.height).foldl (fun x j =>
    let line := replayLine x.mem v dsi j
    let f : Feed := match drops.find? (fun q => q.1 == j) with
      | some q => ⟨q.2.1, q.2.2, some (x.dev.releaseAt r n j)⟩
      | none => { at_ := some (x.dev.releaseAt r n j) }
    (mine x.dev).foldl (fun x e => replaySend x n r j e dsi line ((late.find? (fun q => q.1 == j)).map (·.2)) f) x) x
  deliver x n 1 r dsi (sync 0x11 0x01) { at_ := some (x.dev.releaseAt r n v.height) }

/-- When the last packet of a reader's streams leaves. -/
def Dev.replayEnd (d : Dev) (r t : Nat) : Nat :=
  let mine (q : Queued) : Bool := seKind (d.stream q.entry).e == 1 && seSrc (d.stream q.entry).e == r
  (d.run.outs.flatMap (fun o => (o.fifo.filter mine).map (·.stop))).foldl max t

/-- A reader lets go of its slot once its frame's FE is sent (R136). -/
def Dev.replayRelease (d : Dev) (t r : Nat) : Dev :=
  if (d.run.replay.getD r {}).until_ ≤ t then d.releaseHolds (.replay r) none else d

/-- REPLAY_FRAME_START (R136): at a frame start of its pacing source, taken once, the reader takes the newest complete frame and gives it to
the runner for every entry that names it. -/
def replayFrame (x : DM) (n : Now) (r : Nat) (late : List (Nat × Nat)) (drops : List (Nat × BitVec 48 × BitVec 48)) : DM :=
  let d := x.dev
  let c := d.replayCfg r
  let handle := rd c 0 2
  let stat (d : Dev) (off w : Nat) : Dev :=
    let b := fit 128 ((d.par.stat.bytes P.cru_replay_status 0))
    d.setS P.cru_replay_status 0 (.blob (b.take (8 * r + off) ++ leBytes w (sat (8 * w) (rd b (8 * r + off) w + 1)) ++ b.drop (8 * r + off + w)))
  match (if r < 16 then d.paceAt r n else none), d.buf handle with
  | some start, some b =>
    let rp := d.run.replay.getD r {}
    if rp.startAt == some start then x
    else match b.newestUpTo (d.selLimit handle) with
    | none => x
    | some k =>
      let seq := (b.slot k).seq
      let again := rp.lastSeq == some seq
      let skipped := rp.lastSeq.any (fun s => newer seq s && decide (1 < (seq + 2 ^ 32 - s) % 2 ^ 32))
      let no := if rp.frameNo ≥ 65535 then 1 else rp.frameNo + 1
      let d := d.holdSlot (.replay r) handle k
      let d := stat d 0 4
      let d := if again then stat d 4 2 else d
      let d := if skipped then stat d 6 2 else d
      let d : Dev := { d with run := { d.run with replay := modAt d.run.replay r (fun p =>
        { p with slot := some (handle, k), frameNo := no, lastSeq := some seq, startAt := some start }) } }
      let vcs := (((List.range 128).filter (fun e => let s := (d.stream e).e; seOn s && seKind s == 1 && seSrc s == r)).map
        (fun e => seVc (d.stream e).e)).eraseDups
      let x : DM := match d.slotView handle k with
        | some v => vcs.foldl (fun x vc => replayVc x n r no v late drops vc) ⟨d, x.mem⟩
        | none => ⟨d, x.mem⟩
      let end_ := x.dev.replayEnd r n.abs
      let d : Dev := { x.dev with run := { x.dev.run with replay := modAt x.dev.run.replay r (fun p => { p with until_ := end_ }) } }
      ⟨d.replayRelease n.abs r, x.mem⟩
  | _, _ => x

/-- The runner at a heat boundary: what has left the route FIFOs is on the pins, and readers whose frame is sent let go of it. -/
def Dev.runnerHeat (d : Dev) (n : Now) : Dev :=
  let d := (List.range 16).foldl (fun d o => d.drainOut n.abs o) d
  (List.range 16).foldl (fun d r => if (d.run.replay.getD r {}).slot.isSome then d.replayRelease n.abs r else d) d

end Sys2Proof.Machine
end

