-- ==== Sys2Proof/Machine/Layers.lean ====
section
/-!
DEFINITION. Layers of moulds by their settings (chapters 9 and 10): geometry, what is on, taps, flask and riser needs, scene values.
The rules take a `View`, so that the consistency check asks them of a projected configuration and the hardware of the live one.
-/

namespace Sys2Proof.Machine

/-- A configuration: the number and the blob of each parameter instance. -/
structure View where
  num   : Nat → Nat → Nat
  bytes : Nat → Nat → Bytes

/-- The values the data path uses (R21). -/
def Dev.liveView (d : Dev) : View := ⟨d.ln, d.lb⟩

/-- A configuration with some values replaced (R267). -/
def View.withValues (v : View) (s : Store) : View :=
  ⟨fun id i => match s.look (pkey id i) with | some x => x.toNat | none => v.num id i,
   fun id i => match s.look (pkey id i) with | some x => x.bytes | none => v.bytes id i⟩

/-- Mould `m`. -/
def Dev.mould (d : Dev) (m : Nat) : Mould := d.moulds.getD m {}

/-- Change mould `m`. -/
def Dev.onMould (d : Dev) (m : Nat) (f : Mould → Mould) : Dev := { d with moulds := modAt d.moulds m f }

/-- Layer `k` of mould `m`, by its `mould.zorder` code. -/
def Dev.layer (d : Dev) (m k : Nat) : Layer := (d.mould m).layers.getD k {}

/-- Change layer `k` of mould `m`. -/
def Dev.onLayer (d : Dev) (m k : Nat) (f : Layer → Layer) : Dev :=
  d.onMould m (fun x => { x with layers := modAt x.layers k f })

/-- A scene of the running pattern by its number. -/
def Dev.scene (d : Dev) (no : Nat) : Option Scene := d.integ.scenes.find? (fun s => s.no == no)

/-- The configuration a mould shows: its scene's values over the live ones (R267, R269). -/
def Dev.mouldView (d : Dev) (m : Nat) : View :=
  match ((d.mould m).scene).bind d.scene with
  | some s => d.liveView.withValues s.values
  | none => d.liveView

/-- The layer codes of `mould.zorder` (R209). -/
abbrev layerCodes : List Nat := [0, 1, 2, 3, 4, 5, 6, 7]

/-- Whether a code is a video layer. -/
def isVideo (k : Nat) : Bool := decide (k < 3)

/-- The instance of a layer (R7). -/
def layerInst (m k : Nat) : Nat := if k < 3 then 3 * m + k else 5 * m + k - 3

/-- A rectangle field (R210). -/
def rectOf (v : Nat) : Rect := ⟨bits v 0 13, bits v 16 13, bits v 32 13, bits v 48 13⟩

/-- Two rectangles have a pixel in common. -/
def Rect.meets (a b : Rect) : Bool :=
  decide (a.x < b.x + b.w) && decide (b.x < a.x + a.w) && decide (a.y < b.y + b.h) && decide (b.y < a.y + a.h)

/-- Whether a pixel lies in a rectangle. -/
def Rect.holds (a : Rect) (x y : Nat) : Bool :=
  decide (a.x ≤ x) && decide (x < a.x + a.w) && decide (a.y ≤ y) && decide (y < a.y + a.h)

/-- Handle, selection, source and destination of a layer. -/
structure LayerCfg where
  handle : Nat
  sel    : Nat
  src    : Rect
  dst    : Rect
  deriving DecidableEq, Repr, Inhabited

/-- A layer's frame address and destination (R195, R214). -/
def View.layer (v : View) (m k : Nat) : LayerCfg :=
  let i := layerInst m k
  if k < 3 then ⟨v.num P.vl_source i % 65536, v.num P.vl_select i, rectOf (v.num P.vl_src_rect i), rectOf (v.num P.vl_dst_rect i)⟩
  else
    let s := v.num P.gl_source i
    let r := rectOf (v.num P.gl_src_rect i)
    let p := v.num P.gl_dst_pos i
    ⟨s % 65536, bits s 16 2, r, ⟨bits p 0 13, bits p 16 13, r.w, r.h⟩⟩

/-- Whether a layer is on (R193). -/
def View.layerOn (v : View) (m k : Nat) : Bool :=
  let c := v.layer m k
  v.num P.mould_output m != 0xFF && c.handle != 0 && c.src.w != 0 && c.src.h != 0 && c.dst.w != 0 && c.dst.h != 0

/-- The layer at each depth, lowest first (R209). -/
def View.order (v : View) (m : Nat) : List Nat :=
  (List.range 8).map (fun k => bits (v.num P.mould_zorder m) (3 * k) 3)

/-- The mould that drives timing generator `g` (R192). -/
def View.mouldOf (v : View) (g : Nat) : Option Nat := (List.range 12).find? (fun m => v.num P.mould_output m == g)

/-! ## Flask (R200, R201) -/

/-- NEED(T): flask bytes for T taps of a source W wide. -/
def flaskNeed (taps w : Nat) : Nat := taps * ceilDiv w 8 * 8 * 4

/-- The fallback buffer of a video layer that shows one (R206). -/
def View.fallbackBuf (v : View) (d : Dev) (i : Nat) : Option Buf :=
  let f := v.num P.vl_fallback i
  if bits f 16 2 == 1 then d.buf (f % 65536) else none

/-- The width the flask is sized for: the larger of the rectangle's and the fallback buffer's. -/
def View.flaskWidth (v : View) (d : Dev) (m k : Nat) : Nat :=
  max (v.layer m k).src.w (((v.fallbackBuf d (layerInst m k)).map (·.width)).getD 0)

/-- The taps in use (R201); `none` when the layer does not fit its flask. -/
def View.taps (v : View) (d : Dev) (m k : Nat) : Option Nat :=
  let i := layerInst m k
  let want := v.num P.vl_taps i
  let room := v.num P.vl_flask_kib i * 1024
  let fits (t : Nat) : Bool := decide (flaskNeed t (v.flaskWidth d m k) ≤ room)
  if v.num P.vl_tap_policy i == 0 then (if fits want then some want else none)
  else [6, 4, 2].find? (fun t => decide (t ≤ want) && fits t)

/-! ## Fetch rate and riser (R202, R203) -/

/-- Twice the bytes per pixel of a format (Tables 9.2 and 10.1). -/
def bytes2 (f : Nat) : Nat :=
  if f == 0x03 then 3 else if has [0x02, 0x04, 0x08] f then 4 else if has [0x05, 0x09] f then 6
  else if f == 0x06 then 12 else if has [0x0A, 0x0B] f then 8 else 2

/-- A rate as a fraction: numerator and denominator. -/
structure Rate where
  num : Nat
  den : Nat
  deriving DecidableEq, Repr, Inhabited

/-- F of a scaled layer for pixel clock `p` (R202). -/
def fetchRate (p : Nat) (sw sh dw dh : Nat) : Rate := ⟨p * max sw dw * max sh dh, max 1 (dw * dh)⟩

/-- The larger of two rates. -/
def Rate.max (a b : Rate) : Rate := if a.num * b.den < b.num * a.den then b else a

/-- F of a layer (R202): P for a graphic layer. -/
def View.fetch (v : View) (m k p : Nat) : Rate :=
  let c := v.layer m k
  if k < 3 then fetchRate p c.src.w c.src.h c.dst.w c.dst.h else ⟨p, 1⟩

/-- Twice the bytes per pixel a layer's buffer has. -/
def View.pixel2 (v : View) (d : Dev) (m k : Nat) : Nat := bytes2 (((d.buf (v.layer m k).handle).map (·.fmt)).getD 0)

/-- F and 2 B that a layer's riser is sized for (R203): with a fallback buffer the larger of both; with flattening on a graphic layer
has B = 4. -/
def View.riserLoad (v : View) (d : Dev) (m k p : Nat) : Rate × Nat :=
  let f := v.fetch m k p
  let b := v.pixel2 d m k
  if k < 3 then
    match v.fallbackBuf d (layerInst m k) with
    | some x =>
      let c := v.layer m k
      (f.max (fetchRate p x.width x.height c.dst.w c.dst.h), max b (bytes2 x.fmt))
    | none => (f, b)
  else (f, if v.num P.mould_ingot_kib m != 0 then 8 else b)

/-- The riser a layer requires in KiB (R203): 1.5 µs × 1.25 of its load. -/
def riserKib (f : Rate) (b2 : Nat) : Nat := max 4 (2 * ceilDiv (f.num * b2 * 1875) (f.den * 2000000000 * 2048))

/-- The riser allocated to a layer in KiB. -/
def View.riser (v : View) (m k : Nat) : Nat :=
  let i := layerInst m k
  if k < 3 then v.num P.vl_riser_kib i else v.num P.gl_riser_kib i

/-- The layers of a mould that are on. -/
def View.layersOn (v : View) (m : Nat) : List Nat := layerCodes.filter (v.layerOn m)

/-- The flask KiB allocated to the layers that are on. -/
def View.flaskSum (v : View) (m : Nat) : Nat :=
  (((v.layersOn m).filter isVideo).map (fun k => v.num P.vl_flask_kib (layerInst m k))).sum

/-- The riser KiB allocated to the layers that are on. -/
def View.riserSum (v : View) (m : Nat) : Nat := ((v.layersOn m).map (v.riser m)).sum

/-- F × B of a layer in bytes per second, rounded up. -/
def View.layerDemand (v : View) (d : Dev) (m p k : Nat) : Nat :=
  let f := v.fetch m k p
  ceilDiv (f.num * v.pixel2 d m k) (f.den * 2)

/-- The sum of F × B over a mould's layers that are on (R202). -/
def View.mouldDemand (v : View) (d : Dev) (m p : Nat) : Nat := ((v.layersOn m).map (v.layerDemand d m p)).sum

/-! ## Raster (R232, R249) -/

/-- H_total of a generator. -/
def View.hTotal (v : View) (g : Nat) : Nat :=
  v.num P.tg_h_sync g + v.num P.tg_h_bp g + v.num P.tg_h_active g + v.num P.tg_h_fp g

/-- V_total of a generator. -/
def View.vTotal (v : View) (g : Nat) : Nat :=
  v.num P.tg_v_sync g + v.num P.tg_v_bp g + v.num P.tg_v_active g + v.num P.tg_v_fp g

/-- The latch line of a generator (R232). -/
def View.latchLine (v : View) (g : Nat) : Nat := v.num P.tg_v_sync g + v.num P.tg_v_bp g + v.num P.tg_v_active g

/-- N_idle (R249). -/
def View.nIdle (v : View) (g : Nat) : Nat :=
  v.num P.tg_pclk_hz g * 1000 / max 1 (v.hTotal g * v.num P.tg_idle_rate_mhz g)

end Sys2Proof.Machine
end

