-- ==== Sys2Proof/Machine/Raster.lean ====
section
/-!
DEFINITION. Where a generator's raster stands (R29, R232, R237): lines and periods are counted from a mark, which moves on at every pour,
latch line and heat boundary, so that each stretch is counted along the clock's ramp and each line at the width that were in force in it. Within a line
the unit is 1/800,000,000 of a period, so that a core cycle counts as many units as the pixel clock has Hz.
-/

namespace Sys2Proof.Machine

/-- The units of one period. -/
abbrev periodUnits : Nat := 800000000

/-- The pixel clock of output g now. -/
def Dev.outHz (d : Dev) (g : Nat) : Nat := if (d.ladle g).on then d.ladleHz g else d.ln P.tg_pclk_hz g

/-- A pixel clock along a heat: its frequency at the heat boundary, the frequency it moves toward, and by how much per heat (R288). -/
structure Ramp where
  hz   : Nat
  goal : Nat
  step : Nat
  deriving DecidableEq, Repr, Inhabited

/-- A ramp reached its goal and stays there. -/
def Ramp.steady (r : Ramp) : Bool := r.hz == r.goal

/-- The units a ramp gives in the first `c` cycles of its heat: the frequency moves linearly, and stays at the goal once there. -/
def Ramp.units (r : Ramp) (c : Nat) : Nat :=
  let far := (r.goal - r.hz) + (r.hz - r.goal)
  let c' := min c (far * heatCycles / max 1 r.step)
  let bend := r.step * c' * c' / (2 * heatCycles)
  (if r.hz ≤ r.goal then r.hz * c' + bend else r.hz * c' - bend) + r.goal * (c - c')

/-- The ramp in the heat that follows. -/
def Ramp.next (r : Ramp) : Ramp := { r with hz := if r.hz ≤ r.goal then min r.goal (r.hz + r.step) else max r.goal (r.hz - r.step) }

/-- The step in Hz per heat of a glide of output g that starts at `hz` (R288). -/
def Dev.slewHz (d : Dev) (g hz : Nat) : Nat := max 1 (hz * d.cn P.ladle_slew_ppm_per_heat g / 1000000)

/-- The pixel clock of output g in the present heat. -/
def Dev.ramp (d : Dev) (g : Nat) : Ramp :=
  match (d.ladle g).gliding with
  | some f0 => ⟨d.outHz g, (d.ladle g).target, d.slewHz g f0⟩
  | none => ⟨d.outHz g, d.outHz g, 1⟩

/-- The units between two instants of one heat. -/
def Dev.unitsTo (d : Dev) (g t0 t : Nat) : Nat :=
  let hb := t0 / heatCycles * heatCycles
  (d.ramp g).units (t - hb) - (d.ramp g).units (t0 - hb)

/-- The line of generator g at instant `t`, and how far into it the raster is, with so many units added. The marked line has the width it
began with; those after it the width in force (R237). -/
def Dev.rasterAt (d : Dev) (g t add : Nat) : Nat × Nat :=
  let x := d.tgen g
  let p := x.markPos + d.unitsTo g x.markAt t + add
  let w := x.width * periodUnits
  if p < w then (x.markLine, p)
  else
    let h := max 1 (d.liveView.hTotal g) * periodUnits
    (x.markLine + 1 + (p - w) / h, (p - w) % h)

/-- The line a generator is at (`tg.status` bits 47:32). -/
def Dev.lineOf (d : Dev) (g t : Nat) : Nat := if (d.tgen g).state == .running then (d.rasterAt g t 0).1 % 65536 else 0

/-- Whether generator g has come to the start of a line at instant `t`. A line starts at the core cycle that samples its first clock edge (R29);
the clock is known to the nearest Hz, so a period is allowed for (assumption 73). -/
def Dev.atLine (d : Dev) (g t line : Nat) : Bool := decide (line ≤ (d.rasterAt g t periodUnits).1)

/-- Whether a line of generator g has started within so many core cycles before `t`. -/
def Dev.lineStarted (d : Dev) (g t line cycles : Nat) : Bool :=
  let r := d.rasterAt g t periodUnits
  (d.tgen g).state == .running && r.1 == line && decide (r.2 ≤ cycles * d.outHz g + periodUnits)

/-- The mark moves to instant `t`. -/
def Dev.markRaster (d : Dev) (g t : Nat) : Dev :=
  let r := d.rasterAt g t 0
  let w := if r.1 == (d.tgen g).markLine then (d.tgen g).width else d.liveView.hTotal g
  d.onTg g (fun x => { x with markAt := t, markLine := r.1, markPos := r.2, width := w })

/-- How far a raster that has come to a line is into it. -/
def Dev.linePos (d : Dev) (g t line : Nat) : Nat :=
  let r := d.rasterAt g t 0
  if r.1 == line then r.2 else 0

/-- The mark stands in a line at instant `t`: `width` is the line's, `pos` how far the raster is into it. -/
def Tg.markStart (x : Tg) (t line pos width : Nat) : Tg := { x with markAt := t, markLine := line, markPos := pos, width := width }

/-- The rasters at a heat boundary, at which clocks change their frequency: each running generator's mark moves there. -/
def Dev.rastersHeat (d : Dev) (n : Now) : Dev :=
  (List.range d.nTx).foldl (fun d g => if (d.tgen g).state == .running then d.markRaster g n.abs else d) d

/-- GLIDE_END (R244, R288): when the ramp has reached its goal, ROT_base takes the exact target; 0x0806 for a pixel clock. The raster's mark moves
to the instant. -/
def glideEnd (d : Dev) (n : Now) (i : Nat) : Dev :=
  let l := d.ladle i
  match l.gliding with
  | none => d
  | some f0 =>
    let goal := d.targetRot i
    if d.glideStep i f0 * n.cycle < (goal - l.base).natAbs * heatCycles then d
    else
      let d := if d.portLadle i && (d.tgen i).state == .running then d.markRaster i n.abs else d
      let d := d.onLadle i (fun l => { l with base := goal, gliding := none })
      if d.portLadle i then d.raise n 0x0806 i (leBytes 4 l.target) else d

/-- The latch line of the frame in progress (R232). -/
def Dev.frameLatch (d : Dev) (g : Nat) : Nat := (d.tgen g).head + d.ln P.tg_v_active g

/-- Whether the last line of the frame in progress is over (R234, R246). -/
def Dev.frameOver (d : Dev) (g t : Nat) : Bool := (d.tgen g).latched && d.atLine g t (d.tgen g).total

/-- The levels of a generator's H and V sync at instant `t`, as it delivers them (R235): `tg.polarity` bits 0 and 1 say which level is active. -/
def Dev.hSync (d : Dev) (g t : Nat) : Bool :=
  let r := d.rasterAt g t 0
  let on := (d.tgen g).state == .running && decide (r.2 < d.ln P.tg_h_sync g * periodUnits)
  on == bit (d.ln P.tg_polarity g) 0

/-- The level of V sync. -/
def Dev.vSync (d : Dev) (g t : Nat) : Bool :=
  let on := (d.tgen g).state == .running && decide ((d.rasterAt g t 0).1 < d.ln P.tg_v_sync g)
  on == bit (d.ln P.tg_polarity g) 1

end Sys2Proof.Machine
end

