-- ==== Sys2Proof/Machine/Compose.lean ====
section
/-!
DEFINITION. What a mould shows at a pixel (R196 to R198, R206, R212 to R222): fetch and clamp, the two filters of video layers, layer
matrices, blending, the output path up to step 5 of Table 10.4, and the CRC of a check window (R255).
-/

namespace Sys2Proof.Machine

/-! ## Filter coefficients (R198), with sines to 2⁻⁴⁸ (assumption 16) -/

/-- One in the fixed point of the coefficient computation. -/
abbrev fxOne : Int := 281474976710656

/-- π in that fixed point. -/
abbrev fxPi : Int := 884279719003555

/-- The Taylor series of sine: the sum of `k` terms from `term` on. -/
def sinTerms (sq : Int) : Nat → Nat → Int → Int
  | 0, _, _ => 0
  | k + 1, i, term => term + sinTerms sq k (i + 1) (-(term * sq / fxOne) / ((2 * i) * (2 * i + 1) : Nat))

/-- sin(π a ÷ b) for 0 ≤ a ≤ b. -/
def sinHalf (a b : Nat) : Int :=
  let r := if b < 2 * a then b - a else a
  let t : Int := fxPi * r / (b : Int)
  sinTerms (t * t / fxOne) 14 1 t

/-- sinc(a ÷ b) = sin(π u) ÷ (π u), with sinc(0) = 1. -/
def sincFx (a : Int) (b : Nat) : Int :=
  let n := a.natAbs
  if n == 0 then fxOne
  else
    let r := n % (2 * b)
    let s := if b < r then -(sinHalf (r - b) b) else sinHalf r b
    s * fxOne * b / (fxPi * n)

/-- The T coefficients of phase p for a ratio dst ÷ src (R198): they sum to 256. -/
def filterCoefs (t p src dst : Nat) : List Int :=
  let raw : List Int :=
    if t == 2 then [256 - 4 * (p : Int), 4 * (p : Int)]
    else
      let w : List Int := (List.range t).map (fun (k : Nat) =>
        let dd : Int := 64 * ((k : Int) - (t / 2 - 1 : Nat)) - p
        let s1 := if dst < src then sincFx (dd * dst) (64 * src) else sincFx dd 64
        s1 * sincFx dd (64 * (t / 2)) / fxOne)
      w.map (fun x => roundNear (256 * x) w.sum.natAbs)
  let rest := 256 - raw.sum
  raw.modify (if p < 32 then t / 2 - 1 else t / 2) (· + rest)

/-- Where output sample j of an axis lies in the source: index and phase (R197). -/
def scanAt (src dst j : Nat) : Int × Nat :=
  let step := roundDiv (65536 * src) (max dst 1)
  let x : Int := ((j * 2 + 1) * step / 2 : Nat) - 32768
  (x / 65536, (x / 1024 % 64).toNat)

/-- A filtered component. -/
def firTap (c : List Int) (s : List Nat) : Nat :=
  clamp 0 1023 (((c.zip s).foldl (fun acc (p : Int × Nat) => acc + p.1 * (p.2 : Int)) 0 + 128) / 256)

/-! ## Video layers -/

/-- What a video layer fetches: the picture, the rectangle and the value of a missing sample (R199). -/
structure VideoSrc where
  pic    : SlotView
  rect   : Rect
  border : Px
  taps   : Nat

/-- A sample of the rectangle: an index outside takes the nearest edge sample (R197), one outside the frame the border (R199). -/
def VideoSrc.sample (m : Mem) (s : VideoSrc) (i j : Int) : Px :=
  let x := s.rect.x + clamp 0 (s.rect.w - 1) i
  let y := s.rect.y + clamp 0 (s.rect.h - 1) j
  if x < s.pic.width && y < s.pic.height then (readPixel m s.pic x y).px else s.border

/-- One pixel of a scaled layer: the vertical pass, then the horizontal pass (R197). -/
def VideoSrc.pixel (m : Mem) (s : VideoSrc) (dst : Rect) (ox oy : Nat) : Px :=
  let (iy, py) := scanAt s.rect.h dst.h oy
  let (ix, px) := scanAt s.rect.w dst.w ox
  let cv := filterCoefs s.taps py s.rect.h dst.h
  let ch := filterCoefs 8 px s.rect.w dst.w
  let column (k : Nat) : Px :=
    pxMap (firTap cv) ((List.range s.taps).map (fun (j : Nat) =>
      s.sample m (ix - 3 + (k : Int)) (iy - (s.taps / 2 : Nat) + 1 + (j : Int))))
  pxMap (firTap ch) ((List.range 8).map column)

/-! ## Matrices (R219, R220) -/

/-- The conversion a matrix blob selects: PRESET, or a custom matrix; empty is `none`. -/
def blobCsc (b : Bytes) : Option Csc :=
  if b.isEmpty then none
  else if rd b 0 1 == 0 then some (customCsc (b.drop 4))
  else sprueCsc (rd b 0 1) []

/-- Apply a conversion, or leave the pixel. -/
def cscApply (c : Option Csc) (p : Px) : Px := match c with | some c => c.apply p | none => p

/-- The matrix of a video layer for a picture's format: empty is preset 2 for YUV, identity for RGB (Table 10.3). -/
def videoCsc (b : Bytes) (fmt : Nat) : Option Csc := if b.isEmpty && yuvFormat fmt then some (yuvToRgb 2) else blobCsc b

/-! ## Alpha (R212, R218) -/

/-- An n-bit alpha on the scale 0 to 1,024. -/
def expandAlpha (n a : Nat) : Nat := let w := widen n a; w + w / 512

/-- A colour value with R or Y in the top ten bits (`mould.background`, `gl.colour`). -/
def colourOf (v : Nat) : Px := ⟨bits v 20 10, bits v 10 10, bits v 0 10⟩

/-- A border value: Y or R in the low ten bits (R210). -/
def borderOf (v : Nat) : Px := ⟨bits v 0 10, bits v 10 10, bits v 20 10⟩

/-- A layer's contribution at a pixel: its components after its matrix, its effective alpha, and the global alpha of a premultiplied
source. -/
structure Cover where
  px  : Px
  a   : Nat
  pre : Option Nat
  deriving DecidableEq, Repr

/-- Blend one component (R218). -/
def blendOne (s a : Nat) (pre : Option Nat) (c : Nat) : Nat :=
  match pre with
  | some g => min ((s * g + c * (1024 - a) + 512) / 1024) 1023
  | none => (s * a + c * (1024 - a) + 512) / 1024

/-- Blend a layer over a colour. -/
def Cover.onto (l : Cover) (c : Px) : Px :=
  ⟨blendOne l.px.a l.a l.pre c.a, blendOne l.px.b l.a l.pre c.b, blendOne l.px.c l.a l.pre c.c⟩

/-! ## Layers at a pixel -/

/-- Whether a layer that ran dry is transparent at a pixel (R205). -/
def Layer.dryAt (l : Layer) (x y : Nat) : Bool :=
  match l.under with
  | some (line, px) => decide (line < y) || (line == y && decide (px ≤ x))
  | none => false

/-- The picture a layer fetches: the slot it holds. -/
def Dev.layerPic (d : Dev) (m k : Nat) : Option SlotView := (d.layer m k).hold.bind (fun h => d.slotView h.1 h.2)

/-- The fallback picture a video layer fetches. -/
def Dev.fallbackPic (d : Dev) (m k : Nat) : Option SlotView := (d.layer m k).fb.bind (fun h => d.slotView h.1 h.2)

/-- A video layer at a pixel of the active area (R196 to R199, R206, R207). -/
def videoCover (x : DM) (v : View) (m k ax ay : Nat) : Option Cover :=
  let d := x.dev
  let l := d.layer m k
  let i := layerInst m k
  let c := v.layer m k
  let border := borderOf (v.num P.vl_border i)
  let blob := v.bytes P.vl_csc i
  let taps := (v.taps d m k).getD 2
  let a := expandAlpha 8 l.alpha
  let from_ (s : Option SlotView) (rect : SlotView → Rect) : Option Cover :=
    s.map (fun p => ⟨cscApply (videoCsc blob p.fmt)
      ((⟨p, rect p, border, taps⟩ : VideoSrc).pixel x.mem c.dst (ax - c.dst.x) (ay - c.dst.y)), a, none⟩)
  match l.shows with
  | .source => from_ (d.layerPic m k) (fun _ => c.src)
  | .fallback =>
    match bits (v.num P.vl_fallback i) 16 2 with
    | 0 =>
      let fmt := ((d.buf c.handle).map (·.fmt)).getD 0
      some ⟨cscApply (videoCsc blob fmt) border, a, none⟩
    | 1 => from_ (d.fallbackPic m k) (fun p => ⟨0, 0, p.width, p.height⟩)
    | _ => none
  | _ => none

/-- The colour and pixel alpha of a graphic source pixel (Table 10.1, R213). -/
def graphicPixel (m : Mem) (v : View) (i : Nat) (p : SlotView) (sx sy : Nat) : Px × Nat :=
  let r := readPixel m p sx sy
  if p.fmt == 0x0D then
    let e := rd (v.bytes P.gl_clut i) (4 * r.px.a) 4
    (⟨widen 8 (bits e 16 8), widen 8 (bits e 8 8), widen 8 (bits e 0 8)⟩, expandAlpha 8 (bits e 24 8))
  else if p.fmt == 0x0C then (colourOf (v.num P.gl_colour i), expandAlpha 8 r.alpha)
  else (r.px, expandAlpha 8 r.alpha)

/-- A graphic layer at a pixel of the active area (R212 to R216, R218). -/
def graphicCover (x : DM) (v : View) (m k ax ay : Nat) : Option Cover :=
  let d := x.dev
  let l := d.layer m k
  let i := layerInst m k
  let c := v.layer m k
  let ga := v.num P.gl_alpha i
  let g := expandAlpha 8 (ga % 256)
  let put (px : Px) (ap : Nat) : Cover :=
    ⟨cscApply (blobCsc (v.bytes P.gl_csc i)) px, ((if bit ga 9 then 1024 else ap) * g + 512) / 1024, if bit ga 8 then some g else none⟩
  match l.shows with
  | .source | .ingot =>
    match d.layerPic m k with
    | none => none
    | some p =>
      let sx := c.src.x + (ax - c.dst.x)
      let sy := c.src.y + (ay - c.dst.y)
      if sx < p.width && sy < p.height then
        let (px, ap) := graphicPixel x.mem v i p sx sy
        some (put px ap)
      else none
  | .fallback =>
    let px := cscApply (blobCsc (v.bytes P.gl_csc i)) (colourOf (v.num P.gl_colour i))
    some ⟨px, g, if bit ga 8 then some g else none⟩
  | _ => none

/-- What layer `k` adds at a pixel; `none` where it is off, outside its destination, or has run dry (R217). -/
def layerCover (x : DM) (v : View) (m k ax ay : Nat) : Option Cover :=
  if !v.layerOn m k || !(v.layer m k).dst.holds ax ay || (x.dev.layer m k).dryAt ax ay then none
  else if k < 3 then videoCover x v m k ax ay
  else graphicCover x v m k ax ay

/-- Blend layers over a colour, in order. -/
def blendAll (x : DM) (v : View) (m ax ay : Nat) (c : Px) : List Nat → Px
  | [] => c
  | k :: l => blendAll x v m ax ay (match layerCover x v m k ax ay with | some s => s.onto c | none => c) l

/-! ## Ingots (R225) -/

/-- The stride of an ingot: 4 bytes a pixel, in 32-byte steps (R224). -/
def ingotStride (w : Nat) : Nat := roundUp 32 (w * 4)

/-- The ARGB2101010 word of a blended colour, alpha 3. -/
def ingotWord (c : Px) : Nat := 3 * 2 ^ 30 + c.a * 2 ^ 20 + c.b * 2 ^ 10 + c.c

/-- The colour an ingot holds at a pixel of the active area; a cache that a change of its size replaces serves until invalidation (R227,
R228). -/
def ingotAt (m : Mem) (g : Ingot) (ax ay : Nat) : Px :=
  let w := leNat (slotReads m (g.old.getD g.cache) ((ay - g.box.y) * ingotStride g.box.w + 4 * (ax - g.box.x)) 4)
  ⟨bits w 20 10, bits w 10 10, bits w 0 10⟩

/-- The blended colour of a pixel (R217, R218): an ingot in use replaces the background and its constituents inside its box. -/
def blendPixel (x : DM) (v : View) (m ax ay : Nat) : Px :=
  let g := (x.dev.mould m).ingot
  let bg := colourOf (v.num P.mould_background m)
  let order := v.order m
  if g.state == .inUse && g.box.holds ax ay then
    let low := g.set.foldl min 7
    let start := if g.dry && (x.dev.layer m low).dryAt ax ay then bg else ingotAt x.mem g ax ay
    blendAll x v m ax ay start (order.filter (fun k => !has g.set k))
  else if g.dry && g.box.holds ax ay then
    let low := g.set.foldl min 7
    if (x.dev.layer m low).dryAt ax ay then blendAll x v m ax ay bg (order.filter (fun k => !has g.set k))
    else blendAll x v m ax ay (ingotAt x.mem g ax ay) (order.filter (fun k => !has g.set k))
  else blendAll x v m ax ay bg order

/-! ## The output path (R221, R222) -/

/-- The conversion of `mould.out_csc` (Table 10.3). -/
def outCsc (v : View) (m : Nat) : Option Csc :=
  let b := v.bytes P.mould_out_csc m
  if b.isEmpty then (if v.num P.mould_out_format m == 4 then some (rgbToYuv 2) else none) else blobCsc b

/-- A LUT entry for a component; an empty table is identity. -/
def lutOf (b : Bytes) (c : Nat) : Nat := if b.isEmpty then c else rd b (2 * c) 2 % 1024

/-- Steps 1 and 2 of Table 10.4. -/
def toneMap (v : View) (m : Nat) (p : Px) : Px :=
  let p := cscApply (outCsc v m) p
  if v.num P.mould_lut_en m == 1 then
    ⟨lutOf (v.bytes P.mould_lut_r m) p.a, lutOf (v.bytes P.mould_lut_g m) p.b, lutOf (v.bytes P.mould_lut_b m) p.c⟩
  else p

/-- The ordered-dither matrix M (R222), by row. -/
def ditherM (x y : Nat) : Nat :=
  ([0, 8, 2, 10, 12, 4, 14, 6, 3, 11, 1, 9, 15, 7, 13, 5] : List Nat).getD (4 * (y % 4) + x % 4) 0

/-- Reduction of a component to n bits (R222). -/
def reduce (dither n x y c : Nat) : Nat :=
  if n ≥ 10 then c
  else
    let t := if dither == 0 then 0 else if dither == 1 then 2 ^ (9 - n) else ditherM x y * 2 ^ (10 - n) / 16
    min ((c + t) / 2 ^ (10 - n)) (2 ^ n - 1)

/-- Bits per component of an output format (R221 step 4). -/
def outBits (fmt : Nat) : Nat × Nat × Nat :=
  if fmt == 1 then (5, 6, 5) else if fmt == 2 then (6, 6, 6) else if fmt == 3 then (10, 10, 10) else (8, 8, 8)

/-- Step 3: the Cb and Cr of a pixel pair are replaced by their mean, rounded half up. -/
def pairChroma (x : DM) (v : View) (m ax ay : Nat) : Px :=
  let p := toneMap v m (blendPixel x v m ax ay)
  if v.num P.mould_out_format m == 4 then
    let q := toneMap v m (blendPixel x v m (if ax % 2 == 0 then ax + 1 else ax - 1) ay)
    ⟨p.a, meanUp [p.b, q.b], meanUp [p.c, q.c]⟩
  else p

/-- The composed pixel at step 5 of Table 10.4, where check windows sample. -/
def outPixel (x : DM) (m ax ay : Nat) : Px :=
  let v := x.dev.mouldView m
  let p := pairChroma x v m ax ay
  let (na, nb, nc) := outBits (v.num P.mould_out_format m)
  let dth := v.num P.mould_dither m
  ⟨reduce dth na ax ay p.a, reduce dth nb ax ay p.b, reduce dth nc ax ay p.c⟩

/-- The pixels of a rectangle in raster order. -/
def rectPixels (x : DM) (m : Nat) (r : Rect) : List Px :=
  (List.range r.h).flatMap (fun j => (List.range r.w).map (fun i => outPixel x m (r.x + i) (r.y + j)))

/-- The bytes a pixel contributes to a check CRC (R255). -/
def checkBytes (p : Px) : Bytes := leBytes 2 p.a ++ leBytes 2 p.b ++ leBytes 2 p.c

/-- The CRC-32 of a check window (R255). -/
def windowCrc (x : DM) (m : Nat) (r : Rect) : BitVec 32 :=
  ((rectPixels x m r).foldl (fun c p => crcFeed c (checkBytes p)) 0xFFFFFFFF#32) ^^^ 0xFFFFFFFF#32

end Sys2Proof.Machine
end

