-- ==== Sys2Proof/Machine/Moulds.lean ====
section
/-!
DEFINITION. Moulds at run time (chapters 9 and 10): the selection at a latch line, underruns, fallback, clamps, fades, ingots, and the
riser watermarks of chapter 11.
-/

namespace Sys2Proof.Machine

/-! ## What feeds a layer (R142, R266) -/

/-- Whether stream entry `e` is routed to the sprue whose target is buffer `handle`. -/
def Dev.feeds (d : Dev) (handle e : Nat) : Bool :=
  let s := d.stream e
  handle != 0 && seOn s.e && (List.range 16).any (fun i => s.goes (16 + i) && d.cn P.sprue_target i % 65536 == handle)

/-- The stream entry that feeds a buffer. -/
def Dev.feeding (d : Dev) (handle : Nat) : Option Nat := (List.range 128).find? (d.feeds handle)

/-- Whether the stream feeding a buffer is frozen (R266). -/
def Dev.frozenBuf (d : Dev) (handle : Nat) : Bool := (List.range 128).any (fun e => (d.stream e).frozen && d.feeds handle e)

/-- The sequence of a buffer's newest complete slot, as a line that starts at instant `t` sees it (R187). -/
def Dev.newestSeq (d : Dev) (t handle : Nat) : Option Nat :=
  (d.buf handle).bind (fun b => (b.seenAt t).newest.map (fun i => (b.slot i).seq))

/-- The stream loss of a video layer at a latch line (R142): 0x0504 as it begins and ends. `lastNew` keeps handle × 2³² + sequence. -/
def Dev.lossStep (d : Dev) (n : Now) (m k handle : Nat) : Dev :=
  let l := d.layer m k
  let i := layerInst m k
  let seq := (d.newestSeq n.abs handle).getD 0
  let mark := handle * 2 ^ 32 + seq
  match d.feeding handle with
  | none => d.onLayer m k (fun l => { l with miss := 0, lost := false, lastNew := mark })
  | some e =>
    let before := l.lastNew % 2 ^ 32
    let fresh := seq != 0 && (l.lastNew / 2 ^ 32 != handle || before == 0 || newer seq before)
    if fresh then
      let d := d.onLayer m k (fun l => { l with miss := 0, lost := false, lastNew := mark })
      if l.lost then d.raise n 0x0504 e (leBytes 1 0 ++ leBytes 1 i) else d
    else
      let miss := sat 16 (l.miss + 1)
      let lost := l.lost || decide (d.cn P.stream_loss_pours e ≤ miss)
      let d := d.onLayer m k (fun l => { l with miss := miss, lost := lost, lastNew := mark })
      if lost && !l.lost then d.raise n 0x0504 e (leBytes 1 1 ++ leBytes 1 i) else d

/-! ## Selection (R153, R154, R205, R206, R215) -/

/-- The holder a layer is. -/
def layerHolder (m k : Nat) : Holder := if k < 3 then .video (layerInst m k) else .graphic (layerInst m k)

/-- The slot a selection names at instant `t` (R154, R187): LIVE takes the newest complete slot, else keeps the slot held; at depth 1 it is
the one slot. -/
def Dev.pickSlot (d : Dev) (t handle sel : Nat) (hold : Option (Nat × Nat)) : Option (Nat × Nat) :=
  match d.buf handle with
  | none => hold.filter (fun h => h.1 == handle)
  | some b =>
    if sel == 0 && b.depth == 1 then some (handle, 0)
    else if sel == 0 then
      match (b.seenAt t).newestUpTo (d.selLimit handle) with
      | some i => some (handle, i)
      | none => hold.filter (fun h => h.1 == handle)
    else if sel - 1 < b.depth then some (handle, sel - 1) else none

/-- A reader moves its hold (R153). -/
def Dev.moveHold (d : Dev) (h : Holder) (goal : Option (Nat × Nat)) : Dev :=
  match goal with
  | some (handle, i) => d.holdSlot h handle i
  | none => d.releaseHolds h none

/-- The window instance of a mould's window (R7). -/
def winInst (m w : Nat) : Nat := 8 * m + w

/-- Whether a window's action holds for what the coming pour shows: it acts or is owed, and no release is owed (R257, R260). -/
def Win.holds (w : Win) : Bool := (w.acting || w.owed) && w.release.isNone

/-- Whether a window with LAYERS makes a video layer show its fallback (R257). -/
def Dev.windowFallback (d : Dev) (m : Nat) (dst : Rect) : Bool :=
  let v := d.mouldView m
  (List.range 8).any (fun w =>
    ((d.mould m).wins.getD w {}).holds && bit (v.num P.chk_policy (winInst m w)) 19 &&
      (rectOf (v.num P.chk_rect (winInst m w))).meets dst)

/-- The state code of a layer (`vl.status` bits 5:3, `gl.status` bits 2:0). -/
def Shows.code : Shows → Nat
  | .off => 0 | .source => 1 | .fallback => 2 | .held => 3 | .ingot => 4

/-- The part of a rectangle that lies in a picture, when it is smaller (R199). -/
def clampSize (r : Rect) (w h : Nat) : Option (Nat × Nat) :=
  let c := (min r.w (w - r.x), min r.h (h - r.y))
  if c == (r.w, r.h) then none else some c

/-- The clamp of a layer at a latch line (R199, R215): told as it begins and as its size changes. -/
def Dev.clampStep (d : Dev) (n : Now) (m k : Nat) (pic : Option SlotView) (r : Rect) : Dev :=
  let i := layerInst m k
  match pic with
  | none => d.onLayer m k (fun l => { l with clamp := none })
  | some p =>
    let c := clampSize r p.width p.height
    let told := c.isSome && c != (d.layer m k).clamp
    let d := d.onLayer m k (fun l => { l with clamp := c })
    if told then
      let d := if k < 3 then d.bumpField P.vl_stats i 48 16 1 else d.bumpField P.gl_status i 48 16 1
      d.raise n (if k < 3 then 0x0711 else 0x0708) i (leBytes 2 p.width ++ leBytes 2 p.height ++ leBytes 2 r.w ++ leBytes 2 r.h)
    else d

/-- What an on layer shows next (R205, R206, R216, R257, R266). -/
def Dev.showsNext (d : Dev) (v : View) (m k : Nat) (policy : Bool) : Shows :=
  let i := layerInst m k
  let c := v.layer m k
  let sub := if k < 3 then v.num P.vl_underrun_policy i == 1 else bit (v.num P.gl_underrun i) 8
  let g := (d.mould m).ingot
  if policy && !sub then .held
  else if policy || (decide (k < 3) && ((d.layer m k).lost || d.frozenBuf c.handle || d.windowFallback m c.dst)) then .fallback
  else if g.state == .inUse && has g.set k then .ingot
  else .source

/-- What a change of scene does to the underrun policies (R206): a scene that starts shows its own layers, and those beneath keep theirs; as it
ends they hold again. -/
inductive SceneStep where
  | none | starts | follows | ends
  deriving DecidableEq, Repr, Inhabited

/-- The policy in force of a layer, and that of the layer beneath the scene, after a latch line's change of scene (R205, R206). -/
def Layer.policies (l : Layer) (wrote : Bool) : SceneStep → Bool × Bool
  | .none => ((l.policy || l.owed) && !wrote, l.kept && !wrote)
  | .starts => (false, (l.policy || l.owed) && !wrote)
  | .follows => (false, l.kept && !wrote)
  | .ends => (l.kept && !wrote, false)

/-- A layer at a latch line or a restart point: loss, policies, fallback, slot and clamp (R153, R154, R199, R205, R206). `wrote`: a
commit wrote one of its parameters, or its mould reseats; a layer held by a policy then returns. -/
def Dev.selectLayer (d : Dev) (n : Now) (m k : Nat) (latch wrote : Bool) (step : SceneStep) : Dev :=
  let v := d.mouldView m
  let i := layerInst m k
  let h := layerHolder m k
  let was := d.layer m k
  let held := was.policy || was.owed
  let (policy, kept) := was.policies wrote step
  let d := d.onLayer m k (fun l => { l with policy := policy, kept := kept, owed := false, run := if held && !policy then 0 else l.run })
  if !v.layerOn m k then
    (d.releaseHolds h none).onLayer m k (fun l => { l with
      hold := none, fb := none, seq := 0, shows := .off, clamp := none, miss := 0, lastNew := 0, lost := false })
  else
    let c := v.layer m k
    let d := if k < 3 && latch then d.lossStep n m k c.handle else d
    let shows := d.showsNext v m k policy
    let d := match shows with
      | .source | .ingot =>
        let pick := d.pickSlot n.abs c.handle c.sel was.hold
        let d := d.moveHold h pick
        let pic : Option SlotView := pick.bind (fun p => d.slotView p.1 p.2)
        let d := d.onLayer m k (fun l => { l with hold := pick, fb := none, seq := (pic.map (fun (p : SlotView) => p.slot.seq)).getD 0 })
        d.clampStep n m k pic c.src
      | .fallback =>
        let pick := if k < 3 && bits (v.num P.vl_fallback i) 16 2 == 1 then d.pickSlot n.abs (v.num P.vl_fallback i % 65536) 0 was.fb else none
        let d := d.moveHold h pick
        d.onLayer m k (fun l => { l with hold := none, fb := pick, seq := 0, clamp := none })
      | _ =>
        (d.moveHold h none).onLayer m k (fun l => { l with hold := none, fb := none, seq := 0, clamp := none })
    let d := d.onLayer m k (fun l => { l with shows := shows })
    if (was.shows == .fallback || was.shows == .held) && shows == .source then d.raise n 0x0703 i (leBytes 1 was.shows.code) else d

/-- The data writes a layer's slot has had. -/
def Dev.slotWritesOf (d : Dev) (m k : Nat) : Nat := ((d.layerPic m k).map (fun (p : SlotView) => p.slot.writes)).getD 0

/-- Whether a layer changed between two latch lines by R248: slot, sequence, state, or data in its slot. -/
def Dev.layerMoved (d : Dev) (m k : Nat) (was : Layer) : Bool :=
  let l := d.layer m k
  let plain (s : Shows) : Shows := if s == .ingot then .source else s
  l.hold != was.hold || l.seq != was.seq || l.fb != was.fb || plain l.shows != plain was.shows || (l.hold.isSome && d.slotWritesOf m k != was.wrote)

/-- The unchanged count of a graphic layer (R223): back to 0 on a transferred change of its parameters, of background or order (`reset`), on
another slot or sequence than the one last selected, and on data written into the slot it holds. A layer that holds no slot selects none. -/
def Dev.unchangedStep (d : Dev) (m k : Nat) (reset : Bool) : Dev :=
  let w := d.slotWritesOf m k
  d.onLayer m k (fun l =>
    let now := l.hold.map (fun h => (h.1, h.2, l.seq))
    let moved := now.isSome && (now != l.chosen || w != l.wrote)
    { l with
      wrote := if now.isSome then w else l.wrote, chosen := if now.isSome then now else l.chosen
      unchanged := if reset || moved then 0 else min 255 (l.unchanged + 1) })

/-- A transferred change of `vl.alpha` starts a fade from the alpha shown (R207). -/
def Dev.fadeStart (d : Dev) (m k old new : Nat) : Dev :=
  if old == new then d
  else d.onLayer m k (fun l => { l with fade := some { start := l.alpha, stop := new % 256, len := max 1 (bits new 8 7), k := 0 } })

/-- The alpha of step k of a fade (R207), halves rounded away from zero. -/
def Fade.alphaAt (f : Fade) (k : Nat) : Nat :=
  clamp 0 255 ((f.start : Int) + roundNear (((f.stop : Int) - f.start) * k) f.len)

/-- A pour advances a fade (R207): 0x0704 with the last step. -/
def Dev.fadeStep (d : Dev) (n : Now) (m k : Nat) : Dev :=
  match (d.layer m k).fade with
  | none => d
  | some f =>
    let s := f.k + 1
    let a := f.alphaAt s
    if f.len ≤ s then
      (d.onLayer m k (fun l => { l with alpha := a, fade := none })).raise n 0x0704 (layerInst m k) (leBytes 1 a)
    else d.onLayer m k (fun l => { l with alpha := a, fade := some { f with k := s } })

/-- A mould fetches nothing and holds no slot (R192, R234). -/
def Dev.mouldIdle (d : Dev) (m : Nat) : Dev :=
  let d := layerCodes.foldl (fun d k => (d.releaseHolds (layerHolder m k) none).onLayer m k (fun l => { l with
    hold := none, fb := none, seq := 0, shows := .off, clamp := none, miss := 0, lastNew := 0, lost := false, read := none
    fill := 0, reqs := [], left := 0 })) d
  d.onMould m (fun x => { x with composed := false })

/-! ## Ingots (R223 to R228) -/

/-- The granules of a mould's ingot caches stand among those in use. -/
def Dev.ingotGranules (d : Dev) (m : Nat) : Dev :=
  let g := (d.mould m).ingot
  let all := g.cache.granules ++ ((g.old.map SlotRec.granules).getD [])
  { d with cru := { d.cru with ingots := (d.cru.ingots.filter (fun p => p.1 != m)) ++ (if all.isEmpty then [] else [(m, all)]) } }

/-- The buffers that ingots built or being built are made of (R160). -/
def Dev.ingotRefs (d : Dev) : Dev :=
  let l := (List.range 12).flatMap (fun m =>
    let g := (d.mould m).ingot
    if g.state == .building || g.state == .built || g.state == .inUse then
      g.set.map (fun k => ((d.mouldView m).layer m k).handle) else [])
  { d with cru := { d.cru with ingotHandles := l } }

/-- Change a mould's ingot. -/
def Dev.onIngot (d : Dev) (m : Nat) (f : Ingot → Ingot) : Dev := d.onMould m (fun x => { x with ingot := f x.ingot })

/-- The ingot cache follows `mould.ingot_kib` at a boundary (R228): a new cache is allocated; the old one serves a valid ingot until its
invalidation, and else is freed; a cache that replaced another and was not used yet goes at once. An idle mould is given none (R192), and a
size of 0 frees what it has. -/
def Dev.ingotFollow (d : Dev) (m : Nat) : Dev :=
  let kib := d.cn P.mould_ingot_kib m
  let g := (d.mould m).ingot
  let idle := d.cn P.mould_output m == 0xFF
  if g.kib == kib || (idle && kib != 0) then d
  else
    let place := if kib == 0 then [] else (allocSlot d.usedGranules true (ceilDiv (kib * 1024) 4096)).getD []
    let used := g.state == .inUse && !idle
    let d := match g.old with | some o => (if idle then d.startClearing o else d) | none => d
    let keep := used && g.old.isNone
    let d := if keep then d else d.startClearing g.cache
    let d := d.releaseHolds (.ingot m) none
    let d := d.onIngot m (fun g => { g with
      cache := { place := place, state := .empty }, kib := kib
      old := if keep then some g.cache else if idle then none else g.old, cause := if used then some 5 else none
      state := if used then .inUse else .idle })
    (d.ingotGranules m).ingotRefs

/-- The constituent set at a latch line (R224). -/
def Dev.ingotSet (d : Dev) (v : View) (m : Nat) : List Nat :=
  ((v.order m).filter (v.layerOn m)).takeWhile (fun k =>
    !isVideo k && decide (v.num P.mould_flatten_pours m ≤ (d.layer m k).unchanged))

/-- The smallest rectangle over some rectangles. -/
def boxOf : List Rect → Rect
  | [] => ⟨0, 0, 0, 0⟩
  | [r] => r
  | r :: l =>
    let b := boxOf l
    let x := min r.x b.x
    let y := min r.y b.y
    ⟨x, y, max (r.x + r.w) (b.x + b.w) - x, max (r.y + r.h) (b.y + b.h) - y⟩

/-- The size of an ingot (R224). -/
def ingotSize (b : Rect) : Nat := ingotStride b.w * b.h

/-- An ingot stops being valid (R227): 0x0706; its constituents are fetched from the next pour. -/
def Dev.ingotInvalid (d : Dev) (n : Now) (m cause layer : Nat) : Dev :=
  let d := d.onIngot m (fun g => { g with state := .idle, cause := none })
  let d := (d.mould m).ingot.set.foldl (fun d k =>
    d.onLayer m k (fun l => if l.shows == .ingot then { l with shows := .source } else l)) d
  (d.raise n 0x0706 m (leBytes 1 cause ++ leBytes 1 layer)).ingotRefs

/-- The scene and what each constituent of a set shows: what an ingot's pixels rest on beside R223's changes. -/
def Dev.ingotShows (d : Dev) (m : Nat) (set : List Nat) : Option Nat × List Shows :=
  ((d.mould m).scene, set.map (fun k => let s := (d.layer m k).shows; if s == .ingot then .source else s))

/-- The constituent that has changed since the last latch line (R223). A change of scene or of what a constituent shows also counts: flattening
never changes an output pixel (R225, assumption 72). -/
def Dev.ingotChanged (d : Dev) (m : Nat) : Option Nat :=
  let g := (d.mould m).ingot
  match g.set.find? (fun k => (d.layer m k).unchanged == 0) with
  | some k => some k
  | none => if d.ingotShows m g.set != g.shown then g.set.head? else none

/-- The cause, with its layer, that ends a valid ingot at a latch line (Table 10.5). `onBefore`: the layers that were on. -/
def Dev.ingotEnds (d : Dev) (v : View) (m : Nat) (onBefore : List Nat) : Option (Nat × Nat) :=
  let g := (d.mould m).ingot
  match d.ingotChanged m with
  | some k => some (1, k)
  | none =>
    let order := v.order m
    let high := (List.range 8).foldl (fun h j => if has g.set (order.getD j 0) then j else h) 0
    match ((order.take high).filter (fun k => !has g.set k)).find? (fun k => has onBefore k != v.layerOn m k) with
    | some k => some (2, k)
    | none => g.cause.map (fun c => (c, 0xFF))

/-- The set is determined at a latch line (R224): a set that qualifies waits for its build; 0x0707 once for a set that is too large. -/
def Dev.ingotPlan (d : Dev) (n : Now) (v : View) (m : Nat) : Dev :=
  let g := (d.mould m).ingot
  let set := d.ingotSet v m
  let kib := min (v.num P.mould_ingot_kib m) g.kib
  let box := boxOf (set.map (fun k => (v.layer m k).dst))
  if set.length < 2 || kib == 0 then d.onIngot m (fun g => { g with state := .idle, set := [], told := [] })
  else if kib * 1024 < ingotSize box then
    let d := d.onIngot m (fun g => { g with state := .idle, set := [], told := set })
    if g.told == set then d else d.raise n 0x0707 m (leBytes 2 (ceilDiv (ingotSize box) 1024) ++ leBytes 2 kib)
  else if g.state == .ready && g.set == set then d
  else d.onIngot m (fun g => { g with state := .ready, set := set, box := box, since := n.heat, told := [] })

/-- An ingot at a latch line (R224, R225, R227). -/
def Dev.ingotLatch (d : Dev) (n : Now) (m : Nat) (onBefore : List Nat) : Dev :=
  let v := d.mouldView m
  let g := (d.mould m).ingot
  match g.state with
  | .inUse =>
    match d.ingotEnds v m onBefore with
    | some (c, k) => (d.ingotInvalid n m c k).ingotPlan n v m
    | none => d
  | .building => if (d.ingotChanged m).isSome then d.onIngot m (fun g => { g with spoiled := true }) else d
  | .built =>
    if g.spoiled || (d.ingotChanged m).isSome then ((d.onIngot m (fun g => { g with state := .idle })).ingotPlan n v m).ingotRefs
    else
      let d := d.onIngot m (fun g => { g with state := .inUse, dry := false })
      let d := g.set.foldl (fun d k => d.onLayer m k (fun l => { l with shows := if l.shows == .source then .ingot else l.shows })) d
      d.raise n 0x0705 m (leBytes 1 (maskOf (g.set.map (· - 3))) ++ leBytes 1 0 ++ leBytes 2 (ceilDiv (ingotSize g.box) 1024))
  | _ => d.ingotPlan n v m

/-- The background window starts the build of a set that qualified before this heat began (R225): the engine holds the constituents'
slots. -/
def Dev.ingotStart (d : Dev) (n : Now) (m : Nat) : Dev :=
  let g := (d.mould m).ingot
  if g.state == .ready && decide (g.since < n.heat) then
    let d := d.onIngot m (fun g => { g with state := .building, spoiled := false, shown := d.ingotShows m g.set })
    (g.set.foldl (fun d k =>
      match (d.layer m k).hold with
      | some (h, i) => d.onBufSlot h i (fun s => s.addHold (.ingot m))
      | none => d) d).ingotRefs
  else d

/-- The rows of an ingot: the blend of its constituents over the background (R225). -/
def ingotRows (x : DM) (m : Nat) (g : Ingot) : List Bytes :=
  let v := x.dev.mouldView m
  let bg := colourOf (v.num P.mould_background m)
  let d := g.set.foldl (fun d k => d.onLayer m k (fun l => { l with under := none })) x.dev
  (List.range g.box.h).map (fun j => (List.range g.box.w).flatMap (fun i =>
    leBytes 4 (ingotWord (blendAll ⟨d, x.mem⟩ v m (g.box.x + i) (g.box.y + j) bg g.set))))

/-- Rows written into a slot image at a stride. -/
def writeRows (m : Mem) (s : SlotRec) (stride : Nat) : Nat → List Bytes → Mem
  | _, [] => m
  | j, r :: l => writeRows (slotWrites m s (j * stride) r) s stride (j + 1) l

/-- INGOT_BUILD_DONE (R225): the cache is written and the constituents' holds end; the next latch line decides. -/
def ingotBuildDone (x : DM) (n : Now) (m : Nat) : DM :=
  let g := (x.dev.mould m).ingot
  if g.state == .building && m < x.dev.nMould then
    let mem := writeRows x.mem g.cache (ingotStride g.box.w) 0 (ingotRows x m g)
    let d := x.dev.takeInject (g.cache.banks 0 (ingotStride g.box.w * g.box.h))
    let d := (d.releaseHolds (.ingot m) none).onIngot m (fun g => { g with
      state := .built, cache := { g.cache with state := .complete }
      rebuilds := g.rebuilds.filter (fun h => decide (n.heat < h + 8000)) ++ [n.heat] })
    ⟨d, mem⟩
  else x

/-- An uncorrectable error in a granule of a valid ingot's cache (R168, R227 cause 3). -/
def Dev.ingotEcc (d : Dev) (bank granule : Nat) : Dev :=
  (List.range 12).foldl (fun d m =>
    let g := (d.mould m).ingot
    if g.state == .inUse && (g.old.getD g.cache).granules.any (fun x => x == (bank, granule)) then
      d.onIngot m (fun g => { g with cause := if g.cause == some 5 then some 5 else some 3 })
    else d) d

/-! ## Underruns (R205, R216) -/

/-- The underrun limit of a layer. -/
def View.underLimit (v : View) (m k : Nat) : Nat :=
  let i := layerInst m k
  if k < 3 then v.num P.vl_underrun_limit i else v.num P.gl_underrun i % 256

/-- The underrun policy of a layer. -/
def View.underPolicy (v : View) (m k : Nat) : Nat :=
  let i := layerInst m k
  if k < 3 then v.num P.vl_underrun_policy i else bits (v.num P.gl_underrun i) 8 1

/-- Whether a layer fetches in this frame, and so can run dry: its source or a fallback buffer, or the ingot for its lowest
constituent. -/
def Dev.fetches (d : Dev) (m k : Nat) : Bool :=
  let l := d.layer m k
  let g := (d.mould m).ingot
  l.under.isNone && (match l.shows with
    | .source => l.hold.isSome
    | .fallback => l.fb.isSome
    | .ingot => g.state == .inUse && k == g.set.foldl min 7
    | _ => false)

/-- Underruns of a layer so far, this frame's included, as a frame mask. -/
def Dev.underMask (d : Dev) (m : Nat) : Nat := maskOf (layerCodes.filter (fun k => (d.layer m k).under.isSome))

/-- A layer runs dry at a pixel (R205, R216): transparent for the rest of the frame, counted, 0x0701 at most once per mould per heat,
0x0702 when the consecutive count reaches the limit. A fallback buffer is counted and no policy acts on it. An ingot is invalidated
at once (R227 cause 4). -/
def riserUnderrun (d : Dev) (n : Now) (m k line x : Nat) : Dev :=
  let v := d.mouldView m
  let l := d.layer m k
  let i := layerInst m k
  let g := v.num P.mould_output m
  if !(decide (m < d.nMould) && decide (k < 8) && (d.mould m).composed && d.fetches m k) then d
  else
    let first := d.underMask m == 0
    let own := l.shows != .fallback
    let run := if own then sat 8 (l.run + 1) else l.run
    let acts := own && decide (v.underLimit m k ≤ run) && !l.policy && !l.owed
    let d := d.onLayer m k (fun l => { l with under := some (line, x), run := run, owed := l.owed || acts, fill := 0, reqs := [], left := 0 })
    let d := if k < 3 then d.bumpField P.vl_stats i 32 16 1 else d.bumpField P.gl_status i 32 16 1
    let d := d.bumpField P.mould_underrun_stats m 0 32 1
    let d := if first then d.bumpField P.mould_underrun_stats m 32 16 1 else d
    let d := if (d.mould m).underHeat == some n.heat then d
      else (d.onMould m (fun x => { x with underHeat := some n.heat })).raise n 0x0701 m
        (leBytes 1 k ++ leBytes 1 0 ++ leBytes 2 line ++ leBytes 1 run)
    let d := if acts then (d.bumpField P.mould_underrun_stats m 48 16 1).raise n 0x0702 m (leBytes 1 k ++ leBytes 1 (v.underPolicy m k)) else d
    let d := if g < 16 then d.onTg g (fun t => { t with changed := true }) else d
    if l.shows == .ingot then (d.onIngot m (fun g => { g with dry := true })).ingotInvalid n m 4 k else d

/-- The underrun counts at the end of a frame (R205 step 4), and what `mould.status` keeps of it. -/
def Dev.frameUnderruns (d : Dev) (m : Nat) : Dev :=
  let mask := d.underMask m
  let d := layerCodes.foldl (fun d k => d.onLayer m k (fun l => { l with
    run := if l.under.isSome || l.policy || l.owed then l.run else 0, under := none })) d
  d.onMould m (fun x => { x with underLast := mask })

/-! ## Risers (R239) -/

/-- The bytes a layer's riser has to fetch for the frame that starts: the lines of its source, of its fallback buffer, or of the ingot through
its lowest-numbered constituent. -/
def Dev.frameBytes (d : Dev) (m k : Nat) : Nat :=
  let v := d.mouldView m
  let c := v.layer m k
  let l := d.layer m k
  let g := (d.mould m).ingot
  match l.shows with
  | .source => if l.hold.isSome then ceilDiv (c.src.w * c.src.h * v.pixel2 d m k) 2 else 0
  | .fallback => ((d.fallbackPic m k).map (fun (p : SlotView) => ceilDiv (p.width * p.height * bytes2 p.fmt) 2)).getD 0
  | .ingot => if k == g.set.foldl min 7 then ingotSize g.box else 0
  | _ => 0

/-- A riser asks for chunks of 256 bytes while its free space, less what is outstanding, is at least 256 bytes (R239): each request of class U
when the riser holds fewer than LW bytes, else of class D. -/
def Layer.ask (l : Layer) (room : Nat) : Layer :=
  let k := min ((room - l.fill) / 256 - l.reqs.length) (ceilDiv l.left 256)
  { l with reqs := l.reqs ++ List.replicate k (decide (l.fill < l.lw)), left := l.left - 256 * k }

/-- One thing that happened at a riser, and the requests it issues after it. -/
def Dev.riserStep (d : Dev) (e : RiserEv) : Dev :=
  match e with
  | .take m k b =>
    let room := (d.mouldView m).riser m k * 1024
    d.onLayer m k (fun l => ({ l with fill := l.fill - b } : Layer).ask room)
  | .serve m k u =>
    let room := (d.mouldView m).riser m k * 1024
    d.onLayer m k (fun l => if has (l.reqs.map b2n) (b2n u) then ({ l with fill := l.fill + 256, reqs := l.reqs.erase u } : Layer).ask room else l)

/-- The risers over a heat, and the low watermarks that hold for requests from the boundary onward (R239, R240). -/
def Dev.risersHeat (d : Dev) (l : List RiserEv) : Dev :=
  let d := l.foldl Dev.riserStep d
  { d with moulds := d.moulds.map (fun (x : Mould) => { x with layers := x.layers.map (fun (l : Layer) => { l with lw := l.lwNext }) }) }

/-- The risers at a pour: emptied, they begin to fetch the frame (R239). -/
def Dev.risersPour (d : Dev) (m : Nat) : Dev :=
  layerCodes.foldl (fun d k =>
    let room := (d.mouldView m).riser m k * 1024
    let b := d.frameBytes m k
    d.onLayer m k (fun l => ({ l with fill := 0, reqs := [], left := b } : Layer).ask room)) d

/-! ## Riser watermarks (R240) -/

/-- Round up to a multiple of 256 of a fraction. -/
def ceil256 (num den : Nat) : Nat := roundUp 256 (ceilDiv num (max den 1))

/-- One layer's low watermark in the hard window (R240), for the heat that follows: 0x0809 when it reaches its upper bound. -/
def Dev.waterStep (d : Dev) (n : Now) (v : View) (g m k : Nat) : Dev :=
  let p := max (d.ln P.tg_pclk_hz g) (d.ladleHz g)
  let (f, b2) := v.riserLoad d m k p
  let alloc := v.riser m k * 1024
  let wb := d.cn P.tg_wm_bounds g
  let floor := ceil256 (f.num * b2 * 15) (f.den * 20000000)
  let lo := max floor (bits wb 0 4 * alloc / 16)
  let hi := min (max lo (bits wb 4 4 * alloc / 16)) (alloc - 512)
  let lat := d.cru.latHist.foldl max 0
  let want := max lo (min hi (ceil256 (f.num * b2 * lat * 15625) (f.den * 20000000000000)))
  let l := d.layer m k
  let lw := if bit wb 15 then lo else if l.lw ≤ want then want else max want (l.lw - 256)
  let due := match l.lwTold with | some h => decide (h + 8000 ≤ n.heat) | none => true
  let tell := !bit wb 15 && lw == hi && l.lw != hi && due
  let d := d.onLayer m k (fun l => { l with lwNext := lw, lwTold := if tell then some n.heat else l.lwTold })
  if tell then d.raise n 0x0809 g (leBytes 1 k ++ leBytes 1 0 ++ leBytes 2 lw) else d

/-- The watermarks of every layer that is on (R240). -/
def Dev.watermarks (d : Dev) (n : Now) : Dev :=
  (List.range d.nMould).foldl (fun d m =>
    let v := d.mouldView m
    let g := v.num P.mould_output m
    if g == 0xFF then d else (v.layersOn m).foldl (fun d k => d.waterStep n v g m k) d) d

end Sys2Proof.Machine
end

