-- ==== Sys2Proof/Machine/Integrity.lean ====
section
/-!
DEFINITION. Check windows, their actions, learning, and integrity reports (chapter 12, R254 to R265).
-/

namespace Sys2Proof.Machine

/-! ## Access -/

/-- Window `w` of mould `m`. -/
def Dev.win (d : Dev) (m w : Nat) : Win := (d.mould m).wins.getD w {}

/-- Change window `w` of mould `m`. -/
def Dev.onWin (d : Dev) (m w : Nat) (f : Win → Win) : Dev := d.onMould m (fun x => { x with wins := modAt x.wins w f })

/-- The window of the committed configuration: where a scene is shown its run state stands beside the scene's (R269). -/
def Dev.baseWin (d : Dev) (m w : Nat) : Win :=
  if (d.mould m).under.isEmpty then d.win m w else (d.mould m).under.getD w {}

/-- Change the window of the committed configuration. -/
def Dev.onBaseWin (d : Dev) (m w : Nat) (f : Win → Win) : Dev :=
  d.onMould m (fun x => if x.under.isEmpty then { x with wins := modAt x.wins w f } else { x with under := modAt x.under w f })

/-- Whether a window is enabled (R254). -/
def View.winOn (v : View) (m w : Nat) : Bool :=
  let r := rectOf (v.num P.chk_rect (winInst m w))
  v.num P.mould_output m != 0xFF && r.w != 0 && r.h != 0

/-- Whether the scene shown, if any, carries the window's own values (R267); a window it replaces is not computed (R256). -/
def Dev.winShown (d : Dev) (m w : Nat) : Bool :=
  match ((d.mould m).scene).bind d.scene with
  | none => true
  | some s => [P.chk_rect, P.chk_expect, P.chk_policy].any (fun id => (s.values.look (pkey id (winInst m w))).isSome)

/-- MISS_N, RECOVER_N and ACTION of a window (R257, R260). -/
structure WinPolicy where
  missN    : Nat
  recoverN : Nat
  action   : Nat
  fault    : Bool
  deriving DecidableEq, Repr

/-- A window's policy. -/
def View.winPolicy (v : View) (m w : Nat) : WinPolicy :=
  let p := v.num P.chk_policy (winInst m w)
  ⟨p % 256, bits p 8 8, bits p 16 2, bit p 18⟩

/-- The expected CRCs of a window. -/
def View.expected (v : View) (m w : Nat) : List Nat :=
  let b := v.bytes P.chk_expect (winInst m w)
  (List.range (b.length / 4)).map (fun i => rd b (4 * i) 4)

/-- Whether an output is quenched (R259, R260): an action 2 or 3 holds in a window of its mould, or the expiry policy. -/
def Dev.quenched (d : Dev) (m : Nat) : Bool :=
  let x := d.mould m
  x.quench || x.wins.any (fun w => w.acting && decide (2 ≤ w.action))

/-- Whether a substitution is visible: an action 1 holds and nothing quenches. -/
def Dev.substituting (d : Dev) (m : Nat) : Bool := !d.quenched m && (d.mould m).wins.any (fun w => w.acting && w.action == 1)

/-- Note for idle refresh that the picture's source changed (R248). -/
def Dev.tgChanged (d : Dev) (g : Nat) : Dev := if g < 16 then d.onTg g (fun t => { t with changed := true }) else d

/-! ## Captures (R258) -/

/-- The bytes of one image of a window. -/
def imageBytes (r : Rect) : Nat := ingotStride r.w * r.h

/-- The substitute slot a window needs: two images when its ACTION is 1 and it is enabled. -/
def captureBytes (rect policy : Nat) : Nat :=
  let r := rectOf rect
  if bits policy 16 2 == 1 && r.w != 0 && r.h != 0 then 2 * imageBytes r else 0

/-- The granules a slot of some bytes needs. -/
def slotGranules (n : Nat) : Nat := if n == 0 then 0 else bankWidth (ceilDiv n 4096) * granulesPerBank (ceilDiv n 4096)

/-- The granules of a mould's windows stand among those in use. -/
def Dev.winGranules (d : Dev) (m : Nat) : Dev :=
  (List.range 8).foldl (fun (d : Dev) w =>
    let x := d.win m w
    let y := d.baseWin m w
    let scene := if (d.mould m).under.isEmpty then [] else y.place.granules ++ ((y.next.map SlotRec.granules).getD [])
    let all := x.place.granules ++ ((x.next.map SlotRec.granules).getD []) ++ scene
    { d with cru := { d.cru with ingots := (d.cru.ingots.filter (fun p => p.1 != 100 + winInst m w)) ++
      (if all.isEmpty then [] else [(100 + winInst m w, all)]) } }) d

/-- The substitute slot follows the committed settings at a boundary (R258): new granules wait for the latch line. An idle mould is given none
(R192). -/
def Dev.winFollow (d : Dev) (m w : Nat) : Dev :=
  let i := winInst m w
  let need := slotGranules (captureBytes (d.cn P.chk_rect i) (d.cn P.chk_policy i))
  let x := d.baseWin m w
  let have' := (x.next.getD x.place).granules.length
  if need == have' || (need != 0 && d.cn P.mould_output m == 0xFF) then d
  else
    let d := match x.next with | some o => d.startClearing o | none => d
    let d := d.onBaseWin m w (fun x => { x with next := none })
    let place := if need == 0 then [] else
      (allocSlot (d.winGranules m).usedGranules true (ceilDiv (captureBytes (d.cn P.chk_rect i) (d.cn P.chk_policy i)) 4096)).getD []
    (d.onBaseWin m w (fun x => { x with next := some { place := place, state := .complete } })).winGranules m

/-- A window's captures are discarded (R258, R260). -/
def Win.drop (w : Win) : Win := { w with capture := none }

/-- Fault 17 ends when no window's action that requests FAULT_N is held any more (R257). -/
def Dev.winFaultEnds (d : Dev) (n : Now) : Dev :=
  let held (w : Win) : Bool := w.acting && w.fault
  if (List.range 12).any (fun m => (d.mould m).wins.any held || (d.mould m).under.any held) then d else d.faultEnds n 17

/-- A transfer that changes a window's settings (R260): its action is released, its count cleared, its captures discarded and its slot
replaced, with 0x0904 cause 3. -/
def Dev.winReset (d : Dev) (n : Now) (m w pour : Nat) : Dev :=
  let x := d.baseWin m w
  let d := match x.next with | some _ => d.startClearing x.place | none => d
  let held := x.acting || x.owed
  let d := d.onBaseWin m w (fun x => { x with
    action := 0, acting := false, owed := false, release := none, misses := 0, goods := 0, capture := none
    place := x.next.getD x.place, next := none, fault := false })
  let d := d.winGranules m
  let d := if held then d.raise n 0x0904 (winInst m w) (leBytes 1 3 ++ leBytes 1 0 ++ leBytes 4 pour) else d
  if x.acting && x.fault then d.winFaultEnds n else d

/-- Every capture of a mould is discarded (R258). -/
def Dev.dropCaptures (d : Dev) (m : Nat) : Dev := d.onMould m (fun x => { x with wins := x.wins.map Win.drop, under := x.under.map Win.drop })

/-! ## Results (R255 to R257, R261) -/

/-- The image that a frame is captured into: the one that does not hold the verified capture. -/
def Win.target (w : Win) : Nat := if w.capture == some 0 then 1 else 0

/-- The pixels of a window written into a capture image (R258). -/
def writeCapture (m : Mem) (w : Win) (r : Rect) (px : List Px) : Mem :=
  let rows := (List.range r.h).map (fun j => ((px.drop (j * r.w)).take r.w).flatMap (fun p => leBytes 4 (ingotWord p)))
  (List.range r.h).foldl (fun m' j => slotWrites m' w.place (w.target * imageBytes r + j * ingotStride r.w) (rows.getD j [])) m

/-- A mismatch (R257): counted; 0x0901 at its onset; the action is owed when the count reaches MISS_N. -/
def Dev.winMiss (d : Dev) (n : Now) (m w : Nat) (crc : BitVec 32) (values : Nat) (p : WinPolicy) : Dev :=
  let x := d.win m w
  let k := sat 8 (x.misses + 1)
  let d := d.onWin m w (fun x => { x with
    result := 3, misses := k, goods := 0, wrong := true, total := sat 16 (x.total + 1)
    owed := x.owed || (!x.acting && decide (p.missN ≤ k)) })
  if x.wrong then d else d.raise n 0x0901 (winInst m w) (leBytes 4 crc.toNat ++ leBytes 1 values ++ leBytes 1 k)

/-- A match (R257, R260): the count is cleared; the RECOVER_N-th consecutive match releases the action at the next pour. -/
def Win.hit (x : Win) (idx : Nat) (p : WinPolicy) (placed : Bool) : Win :=
  let g := x.goods + 1
  { x with
    result := 2, matched := idx, misses := 0, wrong := false, goods := g
    release := if x.acting && p.recoverN != 0 && decide (p.recoverN ≤ g) && x.release.isNone then some 1 else x.release
    capture := if placed then some x.target else x.capture }

/-- A learning takes the CRC of a composed frame (R261). -/
def Learn.take (l : Learn) (w : Nat) (crc : BitVec 32) : Learn :=
  if l.begun && l.win == w && 0 < l.left then
    { l with left := l.left - 1, got := true, values := if l.values.any (· == crc) then l.values else l.values ++ [crc] }
  else l

/-- Whether the last pixel of a window has passed in the frame of its mould's output (R255). -/
def Dev.winPassed (d : Dev) (m t : Nat) (r : Rect) : Bool :=
  let v := d.mouldView m
  let g := v.num P.mould_output m
  let p := d.rasterAt g t periodUnits
  let line := (d.tgen g).head + r.y + r.h - 1
  let x := v.num P.tg_h_sync g + v.num P.tg_h_bp g + r.x + r.w
  (d.tgen g).state == .running && (decide (line < p.1) || p.1 == line && decide (x * periodUnits ≤ p.2))

/-- CHECK_WINDOW_RESULT (R255, R256): the last pixel of an enabled window has passed; a frame gives one result. -/
def checkWindowResult (x : DM) (n : Now) (inst : Nat) : DM :=
  let m := inst / 8
  let w := inst % 8
  let d := x.dev
  let v := d.mouldView m
  let r := rectOf (v.num P.chk_rect inst)
  if !(decide (m < d.nMould) && (d.mould m).composed && v.winOn m w && d.winShown m w && !(d.win m w).done && d.winPassed m n.abs r) then x
  else
    let px := rectPixels x m r
    let crc := px.foldl (fun c p => crcFeed c (checkBytes p)) 0xFFFFFFFF#32 ^^^ 0xFFFFFFFF#32
    let exp := v.expected m w
    let p := v.winPolicy m w
    let placed := p.action == 1 && !(d.win m w).place.place.isEmpty
    let mem := if placed then writeCapture x.mem (d.win m w) r px else x.mem
    let d := if placed then d.takeInject ((d.win m w).place.banks ((d.win m w).target * imageBytes r) (imageBytes r)) else d
    let d := d.onMould m (fun y => { y with learn := y.learn.map (fun l => l.take w crc) })
    let d := d.onWin m w (fun y => { y with crc := crc, done := true })
    let d :=
      if exp.isEmpty then d.onWin m w (fun y => { y with result := 1 })
      else match exp.findIdx? (fun e => e == crc.toNat) with
        | some k => d.onWin m w (fun y => y.hit k p placed)
        | none => d.winMiss n m w crc exp.length p
    ⟨d, mem⟩

/-- A window at a pour (R257, R260): an owed release takes place, or else an owed action applies. -/
def Win.turn (x : Win) (p : WinPolicy) : Win :=
  if x.release.isSome then { x with acting := false, owed := false, action := 0, release := none, goods := 0, misses := 0, fault := false }
  else if x.owed then { x with acting := true, owed := false, action := p.action, goods := 0, fault := p.fault }
  else x

/-- What a window tells at a pour: 0x0904 with the cause, or 0x0903, and fault 17. `x`: the window before it. -/
def Dev.winTell (d : Dev) (n : Now) (i pour : Nat) (x : Win) (p : WinPolicy) : Dev :=
  match x.release with
  | some c =>
    let d := if x.acting then d.raise n 0x0904 i (leBytes 1 c ++ leBytes 1 0 ++ leBytes 4 pour) else d
    if x.acting && x.fault then d.winFaultEnds n else d
  | none =>
    if x.owed then
      let d := d.raise n 0x0903 i (leBytes 1 p.action ++ leBytes 1 0 ++ leBytes 4 pour)
      if p.fault then d.fault n 17 i [] true else d
    else d

/-- The windows at a pour (R256, R257, R260): actions and releases, the scene's and those of the configuration beneath it; the results of windows
that this frame does not compute. -/
def Dev.winPour (d : Dev) (n : Now) (m w pour : Nat) : Dev :=
  let v := d.mouldView m
  let i := winInst m w
  let x := d.win m w
  let p := v.winPolicy m w
  let d := (d.onWin m w (fun x => { (x.turn p) with done := false })).winTell n i pour x p
  let d := match (d.mould m).under[w]? with
    | some y =>
      let q := d.liveView.winPolicy m w
      (d.onBaseWin m w (fun y => y.turn q)).winTell n i pour y q
    | none => d
  if !v.winOn m w then d.onWin m w (fun x => { x with result := 0 })
  else if !d.winShown m w then d.onWin m w (fun x => { x with result := 4 })
  else d

/-- The windows of a scene as it starts (R267): none has a count or an action, and those with ACTION 1 get a substitute slot. -/
def Dev.sceneWins (d : Dev) (m : Nat) : Dev :=
  let v := d.mouldView m
  (List.range 8).foldl (fun d w =>
    let i := winInst m w
    let need := captureBytes (v.num P.chk_rect i) (v.num P.chk_policy i)
    let place := if need == 0 || !d.winShown m w then [] else (allocSlot d.usedGranules true (ceilDiv need 4096)).getD []
    (d.onWin m w (fun x => { x with place := { place := place, state := .complete } })).winGranules m) d

/-- The windows at the pour from which another scene, or none, is visible (R267, R269): a scene's own windows begin anew, and those of the
configuration beneath it rest and come back as they were. The frames that mismatched are counted by instance. -/
def Dev.winsFollow (d : Dev) (m : Nat) : Dev :=
  let x := d.mould m
  if x.visible == x.scene then d
  else
    let old := x.wins
    let under := if x.under.isEmpty then old else x.under
    let totals (l : List Win) : List Win := (List.range 8).map (fun w => { (l.getD w {}) with total := (old.getD w {}).total })
    let d := if x.under.isEmpty then d else old.foldl (fun d w => d.startClearing w.place) d
    match x.scene with
    | none => (d.onMould m (fun y => { y with wins := totals under, under := [] })).winGranules m
    | some _ => (d.onMould m (fun y => { y with wins := totals (List.replicate 8 {}), under := under })).sceneWins m

/-- No frame is composed: every enabled window's result is 4 (R256). -/
def Dev.winsIdle (d : Dev) (m : Nat) : Dev :=
  let v := d.mouldView m
  let d := (List.range 8).foldl (fun d w => d.onWin m w (fun x => { x with result := if v.winOn m w then 4 else 0 })) d
  d.onMould m (fun x => { x with learn := x.learn.map (fun l => if l.begun then { l with failed := 0x8905 } else l) })

/-- A learning on a mould is abandoned (R261). -/
def Dev.learnFails (d : Dev) (m : Nat) : Dev :=
  d.onMould m (fun x => { x with learn := x.learn.map (fun l => if l.begun && 0 < l.left then { l with failed := 0x8905 } else l) })

/-- A learning at a pour (R261): it begins with the first pour after its request; a frame that gave no result abandons it. -/
def Dev.learnPour (d : Dev) (m : Nat) : Dev :=
  d.onMould m (fun x => { x with learn := x.learn.map (fun l =>
    if !l.begun then { l with begun := true, got := false }
    else if 0 < l.left && !l.got then { l with failed := 0x8905 }
    else { l with got := false }) })

/-- The check digest of an output (R262). -/
def Dev.checkDigest (d : Dev) (m : Nat) : BitVec 32 :=
  crc32 ((List.range 8).flatMap (fun w =>
    if (d.win m w).result != 0 then leBytes 4 (d.win m w).crc.toNat ++ leBytes 1 (d.win m w).result else leBytes 5 0))

/-- The value of `chk.status`. -/
def Dev.chkStatus (d : Dev) (i : Nat) : Nat :=
  let x := d.win (i / 8) (i % 8)
  let y := d.baseWin (i / 8) (i % 8)
  let act := if x.acting then x.action else if y.acting then y.action else 0
  x.crc.toNat + x.result * 2 ^ 32 + (x.matched % 4) * 2 ^ 35 + act * 2 ^ 37 + x.misses * 2 ^ 40 + x.total * 2 ^ 48

/-! ## Messages on windows -/

/-- A window is cleared (R260): its action is released at the next pour and its count cleared, which restarts from that pour. -/
def Dev.chkClear (d : Dev) (i : Nat) : Dev :=
  let clear (x : Win) : Win := { x with misses := 0, goods := 0, release := some 2 }
  (d.onBaseWin (i / 8) (i % 8) clear).onWin (i / 8) (i % 8) clear

/-- What a CHK_CLEAR is rejected with. -/
def Dev.chkClearCode (d : Dev) (n : Now) (m : Msg) : Option Nat :=
  let i := rd m.j.payload 0 1
  if m.j.payload.length != 4 then some 0x8206
  else if !decide (i / 8 < d.nMould) then some 0x8213
  else if !d.holds n.abs (slotOf m.j.session) kChk (i / 8) then some 0x8214
  else none

/-- CHK_CLEAR (R260). While the units are mirrored its effect waits for its journal record's release (R353). -/
def handleChkClear (d : Dev) (n : Now) (m : Msg) : Dev :=
  match d.chkClearCode n m with
  | some c => d.reject m c
  | none => (if d.pair.mirrored then d else d.chkClear (rd m.j.payload 0 1)).reply m 0 []

/-- LEARN (R261): the learning begins at the next pour; its reply waits for its commit. -/
def handleLearn (d : Dev) (n : Now) (m : Msg) : Dev :=
  let i := rd m.j.payload 0 1
  let p := rd m.j.payload 1 1
  if m.j.payload.length != 4 || p == 0 then d.reject m 0x8206
  else if !decide (i / 8 < d.nMould) then d.reject m 0x8213
  else if !d.holds n.abs (slotOf m.j.session) kChk (i / 8) then d.reject m 0x8214
  else if (d.mould (i / 8)).learn.isSome then d.reject m 0x8906
  else d.onMould (i / 8) (fun x => { x with learn := some { win := i % 8, left := p, values := [], msg := m } })

/-! ## Reports (R263 to R265) -/

/-- REPORT_SET (R263): replaces the session's previous one; a period of 0 stops reports. -/
def handleReportSet (d : Dev) (m : Msg) : Dev :=
  let mask := rd m.j.payload 0 2
  let slot := slotOf m.j.session
  if m.j.payload.length != 4 then d.reject m 0x8206
  else if decide (d.nTx ≤ 8) && decide (256 ≤ mask) then d.reject m 0x8213
  else if (setBits 16 mask).any (fun g => (d.liveView.mouldOf g).isNone) then d.reject m 0x8908
  else
    let period := rd m.j.payload 2 1
    let old := d.integ.reports.find? (fun r => r.slot == slot && r.session == m.j.session)
    let rest := d.integ.reports.filter (fun r => r.slot != slot)
    let cfg : ReportCfg := { slot := slot, session := m.j.session, mask := mask, period := period, rseq := (old.map (·.rseq)).getD 0
                             queue := (old.map (·.queue)).getD [], dropped := (old.map (·.dropped)).getD 0 }
    let d : Dev := { d with integ := { d.integ with reports := rest ++ [cfg] } }
    d.reply m 0 []

/-- Bytes 0 to 91 of a report for pour p of output g (Table 12.1). -/
def Dev.reportBody (d : Dev) (g m p rseq misses period : Nat) (at_ : Now) : Bytes :=
  let x := d.mould m
  let state := b2n x.visible.isSome + 2 * b2n (d.quenched m) + 4 * b2n (d.substituting m) +
    8 * b2n (d.pair.role == .single || d.pair.role == .active)
  let wins := (List.range 8).flatMap (fun w =>
    let y := d.win m w
    leBytes 4 y.crc.toNat ++ leBytes 1 y.result ++ leBytes 1 y.matched ++ leBytes 1 y.misses ++ leBytes 1 0)
  leBytes 4 rseq ++ leBytes 1 g ++ leBytes 1 m ++ leBytes 1 state ++ leBytes 1 (x.visible.getD 0xFF) ++ leBytes 4 p ++
    at_.stamp ++ leBytes 2 period ++ leBytes 2 misses ++ wins

/-- Whether a window of the frame just ended mismatched (R263). -/
def Dev.frameMissed (d : Dev) (m : Nat) : Bool :=
  (List.range 8).any (fun w => (d.win m w).result == 3)

/-- A report joins a session's queue of at most 16; the oldest goes when it is full (R265). -/
def ReportCfg.push (r : ReportCfg) (x : Report) : ReportCfg :=
  if r.queue.length < 16 then { r with queue := r.queue ++ [x] }
  else { r with queue := r.queue.drop 1 ++ [x], dropped := sat 16 (r.dropped + 1) }

/-- Whether the session of a REPORT_SET is still open. -/
def Dev.reporting (d : Dev) (r : ReportCfg) : Bool :=
  (d.slot r.slot).state == .open && (d.slot r.slot).id r.slot == r.session

/-- One session's report for pour p of output g, assembled at pour p + 1 (R263, R265). -/
def Dev.reportFor (d : Dev) (n : Now) (g m p : Nat) (at_ : Now) (r : ReportCfg) : Dev :=
  if r.period == 0 || !bit r.mask g || !d.reporting r then d
  else
    let misses := r.misses.getD g 0 + b2n (d.frameMissed m)
    let due := p % r.period == 0
    let r' : ReportCfg := { r with misses := modAt r.misses g (fun _ => if due then 0 else misses) }
    let go := due && d.fwRuns
    let full := go && decide (16 ≤ r.queue.length)
    let r' := if go then
        ({ r' with rseq := r.rseq + 1 } : ReportCfg).push
          { rseq := r.rseq + 1, body := d.reportBody g m p (r.rseq + 1) misses r.period at_, due := n.heat + 1 }
      else r'
    let d : Dev := { d with integ := { d.integ with
      reports := d.integ.reports.map (fun x => if x.slot == r.slot then r' else x) } }
    if full then d.raise n 0x0909 r.slot (leBytes 2 ((d.slot r.slot).id r.slot) ++ leBytes 2 r'.dropped) else d

/-- The reports of every session for the frame just ended. -/
def Dev.reportsFor (d : Dev) (n : Now) (g m p : Nat) (at_ : Now) : Dev :=
  d.integ.reports.foldl (fun d r => d.reportFor n g m p at_ r) d

/-- The hard window signs the reports of pours of earlier heats (R264, R265). -/
def Dev.signReports (d : Dev) (n : Now) : Dev :=
  { d with integ := { d.integ with reports := d.integ.reports.map (fun r =>
      { r with queue := r.queue.map (fun x =>
          if x.signed || decide (n.heat < x.due) then x
          else
            let mac := beBytes 16 (Config.cmac (d.slot r.slot).keys.kRpt x.body).toNat
            { x with body := x.body ++ mac, signed := true }) }) } }

/-- The message window sends a session's signed reports, ahead of its EVENT (R265). -/
def Dev.sendReports (d : Dev) (slot : Nat) : Dev :=
  match d.integ.reports.find? (fun r => r.slot == slot) with
  | none => d
  | some r =>
    let ready := if d.reporting r then r.queue.filter (·.signed) else []
    let d := ready.foldl (fun d x => d.sendIn slot (d.slot slot).route 0x0902 2 x.body) d
    { d with integ := { d.integ with reports := d.integ.reports.map (fun x =>
        if x.slot == slot then { x with queue := x.queue.filter (fun y => !y.signed) } else x) } }

/-- A session's reports end with it. -/
def Dev.pruneReports (d : Dev) : Dev :=
  { d with integ := { d.integ with reports := d.integ.reports.filter d.reporting } }

end Sys2Proof.Machine
end

