-- ==== Sys2Proof/Machine/Morcel.lean ====
section
/-!
DEFINITION. The Morcel link's receiver, bring-up, equalisation, loss and slumber (R328 to R346). What its channels 0 to 2 carry goes to
the pair. Scrambling, the elastic buffer and the adaptation engines are hardware below the blocks and rows named here.
-/

namespace Sys2Proof.Machine

/-! ## State -/

/-- Logical lane `i` of the link. -/
def Dev.morLane (d : Dev) (i : Nat) : MorLane := d.mor.lanes.getD i {}

/-- Change logical lane `i`. -/
def Dev.onMorLane (d : Dev) (i : Nat) (f : MorLane → MorLane) : Dev := d.onMor (fun m => { m with lanes := modAt m.lanes i f })

/-- Whether the taps are fixed (`pair.mor_ctrl` bit 1, R333). -/
def Dev.morFixed (d : Dev) : Bool := bit (d.cn P.pair_mor_ctrl 0) 1

/-- A failed stage returns to stage 1 after 1 ms (R334). -/
def Dev.morTick (d : Dev) (t : Nat) : Dev :=
  d.onMor (fun m => match m.retryAt with
    | some r => if r ≤ t then { m with stage := 1, stageAt := r, retryAt := none } else m
    | none => m)

/-- The fields of LINKSTAT (Table 15.1). -/
def Morcel.linkstat (m : Morcel) : Bytes :=
  leBytes 1 m.stage ++ leBytes 1 (if 5 ≤ m.stage then 0xFF else 0) ++ leBytes 1 m.inverted ++ leBytes 3 m.map

/-- LINKSTAT reports the receiver's state (R335): at every change of state and after every marker row. -/
def Dev.morLinkstat (d : Dev) : Dev := d.morBlock 0x78 d.mor.linkstat

/-- The core cycle, from its origin, at which marker row k of a direction begins: an interval is 16,384 rows of 6.4 ns (R331). -/
def rowCycle (k : Nat) : Nat := k * 2097152 / 25

/-- A marker row, the compensation row after it, and LINKSTAT (R331, R335). -/
def Dev.morMarker (d : Dev) (t : Nat) : Dev :=
  let c := d.mor.mcount
  (((d.say (.morRows 0x66 [c.toNat])).say (.morRows 0x1E [0])).say (.morBlock 0x78 (fit 7 d.mor.linkstat))).onMor (fun m =>
    { m with mcount := c + 1, rowsDone := m.rowsDone + 1, busyAt := max m.busyAt t, txSlots := m.txSlots + 1 })

/-- The marker rows a direction with traffic has come to by instant `t`. -/
def Dev.morRows (d : Dev) (t : Nat) : Dev :=
  if d.mor.tx != 2 then d
  else
    let due := (t - d.mor.rowsAt) * 25 / 2097152 + 1
    (List.range (due - d.mor.rowsDone)).foldl (fun d _ => d.morMarker (d.mor.rowsAt + rowCycle d.mor.rowsDone)) d

/-- The link comes up when both receivers are at stage 7 (R335): channel 1 begins at SEQ 1 (R341). -/
def Dev.morUpCheck (d : Dev) (t : Nat) : Dev :=
  if !d.mor.up && d.mor.stage == 7 && d.mor.farState == 7 then
    d.onMor (fun m => { m with
      up := true, nextSeq := 1, expect := 1, acked := 0, nakSent := false, window := [], wait := [], queue := [], resends := 0, ackAt := t
      handed := [] })
  else d

/-- The link goes down (R341): unacknowledged frames are handed to the pair. -/
def Dev.morLinkDown (d : Dev) : Dev :=
  d.onMor (fun m => { m with up := false, handed := if m.up then m.window ++ m.wait else m.handed, window := [], wait := [], queue := [] })

/-- The transmitter sends training blocks again (R336). -/
def Dev.morRetrain (d : Dev) (t : Nat) : Dev :=
  (d.morRows t).onMor (fun m => { m with
    tx := if m.tx == 0 then 0 else 1, ctlq := [], wakeAt := none, farSix := none, farState := if m.farState == 7 then 0 else m.farState
    lanes := m.lanes.map (fun (l : MorLane) => { l with done := false }) })

/-- A transmitter leaves training for traffic (R335): its own receiver is at stage 6, and DONE on every lane or 2 ms since the far
receiver's stage 6. Two IDLE rows and a marker row with MCOUNT 0 begin the traffic. -/
def Dev.morLeave (d : Dev) (t : Nat) : Dev :=
  let m := d.mor
  let late := match m.farSix with | some s => decide (s + 2 * msCycles ≤ t) | none => false
  if m.tx == 1 && decide (6 ≤ m.stage) && (m.lanes.all (·.done) || late) then
    ((d.say (.morRows 0x1E [0, 0])).onMor (fun m => { m with tx := 2, rowsAt := t, rowsDone := 0, mcount := 0, fresh := true })).morRows t
  else d

/-- The receiver leaves stage 7 (R337, R342): 0x0C21; forwarded frames end incomplete with cause 1; back to stage 1, with both
directions in training. -/
def Dev.morDown (d : Dev) (n : Now) (cause lane : Nat) : Dev :=
  let d := d.raise n 0x0C21 whole (leBytes 1 cause ++ leBytes 1 lane)
  let d := (List.range 8).foldl (fun d k => d.sourceCut n 2 k 1) d
  let d := d.onMor (fun m => { m with
    stage := 1, stageAt := n.abs, slept := false, los := if cause == 1 then 0xFF else if cause == 2 then setBit m.los (lane % 8) true else m.los
    fwdPart := List.replicate 8 none, fwdSeq := List.replicate 8 none, fwdMark := List.replicate 8 false })
  d.morLinkDown.morRetrain n.abs

/-! ## Bring-up (R334, R335) -/

/-- A lane map assigns eight distinct logical lanes. -/
def mapOk (map : Nat) : Bool := !repeats ((List.range 8).map (fun k => bits map (3 * k) 3))

/-- The least core cycles a stage's work takes (Table 15.3): the clock's measurement, 64 headers, 8 training blocks. -/
def stageLeast (s : Nat) : Nat := match s with | 1 => 4000 | 4 => 327 | 5 => 40 | _ => 0

/-- A stage's bound in core cycles (Table 15.3). Stage 1 has its 10 µs from when the clock appears, which is no earlier than its entry. -/
def stageBound (s : Nat) : Nat := match s with | 1 => 8000 | 2 => 32000 | 3 | 4 | 5 => 800 | _ => 2000000

/-- MOR_STAGE_COMPLETE (R334): the receiver moves to its next stage, with what it found: inverted lanes at stage 3, the lane map at
stage 5, skew, CTLE codes and eyes at stage 6. -/
def morStageComplete (d : Dev) (n : Now) (inverted map : Nat) (skew ctle eye : List Nat) : Dev :=
  let d := d.morTick n.abs
  let s := d.mor.stage
  if s == 0 || decide (7 ≤ s) || d.mor.retryAt.isSome then d
  else if decide (n.abs < d.mor.stageAt + stageLeast s) || (s != 1 && decide (d.mor.stageAt + stageBound s < n.abs)) then d
  else if s == 5 && !mapOk map then d
  else if s == 6 && skew.any (fun k => decide (8 < k)) then d
  else
    let d := d.onMor (fun m => { m with
      stage := s + 1, stageAt := n.abs, los := if s == 1 then 0 else m.los
      inverted := if s == 3 then inverted % 256 else m.inverted, map := if s == 5 then map % 2 ^ 24 else m.map
      lanes := if s == 6 then (List.range 8).map (fun i =>
          ({ m.lanes.getD i {} with skew := skew.getD i 0 % 256, ctle := ctle.getD i 0 % 256, eye := eye.getD i 0 % 256 } : MorLane))
        else m.lanes })
    let d := if s == 6 then
        (d.raise n 0x0C20 whole (leBytes 3 d.mor.map ++ leBytes 1 d.mor.inverted ++ leBytes 1 (skew.foldl max 0))).bumpField
          P.pair_mor_stats 0 32 16 1
      else d
    ((d.morLinkstat).morLeave n.abs).morUpCheck n.abs

/-- MOR_STAGE_TIMEOUT (R334): a stage has had its bound; 0x0C22, with cause 2 at stage 5 or 3 at stage 6 for what kept it from completing; the
receiver returns to stage 1 after 1 ms. -/
def morStageTimeout (d : Dev) (n : Now) (cause lane : Nat) : Dev :=
  let d := d.morTick n.abs
  let s := d.mor.stage
  if s == 0 || decide (7 ≤ s) || d.mor.retryAt.isSome || decide (n.abs < d.mor.stageAt + stageBound s) ||
      !(cause == 1 || (cause == 2 && s == 5) || (cause == 3 && s == 6)) then d
  else
    (d.raise n 0x0C22 whole (leBytes 1 s ++ leBytes 1 cause ++ leBytes 1 lane)).onMor (fun m => { m with retryAt := some (n.abs + msCycles) })

/-- A tap after a request (R332): its code, the answer, whether a limit was met. -/
def tapStep (fixed : Bool) (code req init : Nat) : Nat × Nat × Bool :=
  if fixed || req == 0 then (code, 0, false)
  else if req == 3 then (init, 1, false)
  else if req == 1 then (if code < 31 then (code + 1, 1, false) else (code, 2, true))
  else if 0 < code then (code - 1, 1, false) else (code, 2, true)

/-- 0x0C25, once for each lane and tap (R333). -/
def Dev.tapLimit (d : Dev) (n : Now) (lane tap : Nat) (hit : Bool) : Dev :=
  if hit && !bit (d.morLane lane).told tap then
    (d.raise n 0x0C25 whole (leBytes 1 lane ++ leBytes 1 tap)).onMorLane lane (fun l => { l with told := setBit l.told tap true })
  else d

/-- Whether TRAIN blocks have their effect now: in training, or live adaptation on a running link (R333, R334). -/
def Dev.morTrains (d : Dev) : Bool := d.mor.tx == 1 || (d.mor.tx != 0 && bit (d.cn P.pair_mor_ctrl 0) 0)

/-- TRAIN (R332, R333): the far taps and stage are noted, the request is applied at most once per 256 blocks, and the next TRAIN block of
the lane answers it. `ask`: the request of this unit's engine. -/
def morTrain (d : Dev) (n : Now) (lane state req pre post ask : Nat) : Dev :=
  let d := d.morTick n.abs
  let l := d.morLane lane
  if decide (8 ≤ lane) || d.mor.tx == 0 || decide (d.mor.stage < 5) then d
  else
    let due := match l.reqAt with | some t => decide (t + 1311 ≤ n.abs) | none => true
    let init := d.cn P.pair_mor_ffe_init 0
    let apply := d.morTrains && due
    let p := if apply then tapStep d.morFixed l.pre (bits req 0 2) (bits init 0 5) else (l.pre, 0, false)
    let q := if apply then tapStep d.morFixed l.post (bits req 2 2) (bits init 8 5) else (l.post, 0, false)
    let rsp := p.2.1 + 4 * q.2.1
    let live := d.mor.tx != 1
    let answers := d.morTrains && !(live && l.sentHeat == some n.heat)
    let d := d.onMorLane lane (fun l => { l with
      pre := p.1, post := q.1, farPre := pre % 32, farPost := post % 32, done := bit req 4
      reqAt := if apply && bits req 0 4 != 0 then some n.abs else l.reqAt, sentHeat := if answers && live then some n.heat else l.sentHeat })
    let d := (d.tapLimit n lane 0 p.2.2).tapLimit n lane 1 q.2.2
    let d := d.onMor (fun m => { m with
      farState := if m.tx == 1 then min state 6 else m.farState
      farSix := if state == 6 && m.farSix.isNone then some n.abs else m.farSix })
    let d := if answers then
        d.morBlock 0x55 (leBytes 1 lane ++ leBytes 1 (255 - lane) ++ leBytes 1 d.mor.stage ++
          leBytes 1 (if d.morFixed then 0x10 else ask % 32) ++ leBytes 1 rsp ++ leBytes 1 p.1 ++ leBytes 1 q.1)
      else d
    d.morLeave n.abs

/-- MOR_TRAINING_DEADLINE (R335): 2 ms after the far receiver's stage 6 the transmitter leaves training without DONE. -/
def morTrainingDeadline (d : Dev) (n : Now) : Dev := (d.morTick n.abs).morLeave n.abs

/-- LINKSTAT (R335, R336): the far receiver's state; a fall from stage 7 resumes training. -/
def morLinkstat (d : Dev) (n : Now) (state : Nat) : Dev :=
  let d := d.morTick n.abs
  if decide (d.mor.stage < 6) then d
  else
    let fell := d.mor.farState == 7 && decide (state < 7)
    let d := d.onMor (fun m => { m with
      farState := state % 8, farSix := if state == 6 && m.farSix.isNone then some n.abs else m.farSix })
    if fell then d.morLinkDown.morRetrain n.abs else d.morUpCheck n.abs

/-- MOR_LINK_LOSS (R337): a detector fires at stage 7; a clock that stops after a SLUMBER row is no loss. -/
def morLinkLoss (d : Dev) (n : Now) (cause lane : Nat) : Dev :=
  let d := d.morTick n.abs
  if d.mor.stage != 7 || (d.mor.slept && (cause == 1 || cause == 2)) then d else d.morDown n cause lane

/-! ## Slumber (R338) -/

/-- Whether a forwarding output is named in a destination mask in force. -/
def Dev.morForwards (d : Dev) : Bool := (List.range 128).any (fun e => bits (d.cn P.stream_dest e) 32 8 != 0)

/-- SLUMBER (R338): a direction with nothing queued for `pair.mor_slumber_us` sends one SLUMBER row and stops. -/
def morSlumber (d : Dev) (n : Now) : Dev :=
  let d := d.morRows n.abs
  let us := d.cn P.pair_mor_slumber_us 0
  if d.mor.tx == 2 && us != 0 && !d.morForwards && decide (d.mor.busyAt + us * 800 ≤ n.abs) then
    let d := (d.say (.morRows 0x87 [0])).onMor (fun m => { m with tx := 3, fresh := false, sleptAt := n.abs, wakeAt := none })
    d.bumpField P.pair_mor_stats 0 48 16 1
  else d

/-- The core cycles of a wake (R338): 0.6 µs until the clock has settled, then 128 rows. -/
abbrev wakeCycles : Nat := 1136

/-- WAKE (R338): a direction with something queued has restarted its clock and sent its 128 WAKE rows; what waits leaves. MCOUNT goes on, and
the next marker row is one interval away. -/
def morWake (d : Dev) (n : Now) : Dev :=
  if d.mor.tx == 4 && d.mor.wakeAt.any (fun w => decide (w + wakeCycles ≤ n.abs)) then
    ((d.say (.morRows 0x99 ((List.range 128).map (fun k => 127 - k)))).onMor (fun m =>
      { m with tx := 2, wakeAt := none, rowsAt := n.abs, rowsDone := 1 })).morFlush
  else d

/-- MOR_SLUMBER_RECEIVE (R338): the far direction sleeps; nothing else changes. -/
def morSlumberReceive (d : Dev) : Dev := if d.mor.stage == 7 then d.onMor (fun m => { m with slept := true }) else d

/-- MOR_WAKE_RECEIVE (R338): the far direction runs again. -/
def morWakeReceive (d : Dev) : Dev := d.onMor (fun m => { m with slept := false })

/-! ## Receiving (R330, R339, R341, R342) -/

/-- A frame is discarded (R339): counted, also for this heat's 0x0C23. -/
def Dev.morDiscard (d : Dev) (n : Now) (ch : Nat) : Dev :=
  (d.onMor (fun m => { m with bad := m.bad.note n (leBytes 1 ch) })).bumpField P.pair_mor_stats 0 0 16 1

/-- An unknown channel or control block (R330), for this heat's 0x0C26. -/
def Dev.morUnknown (d : Dev) (n : Now) (k : Nat) : Dev := d.onMor (fun m => { m with unknown := m.unknown.note n (leBytes 1 k) })

/-- 0x0C23 and 0x0C26 for the heat that ends (R330, R339). -/
def Dev.tellMorcel (d : Dev) : Dev :=
  let m := d.mor
  let d := d.onMor (fun m => { m with bad := {}, unknown := {} })
  (d.tell m.bad 0x0C23 whole (m.bad.bytes ++ m.bad.last)).tell m.unknown 0x0C26 whole (m.unknown.bytes ++ m.unknown.last)

/-- MOR_CONTROL_UNKNOWN (R330): the block is discarded and counted. -/
def morControlUnknown (d : Dev) (n : Now) (typ : Nat) : Dev :=
  if has [0x1E, 0x2D, 0x33, 0x4B, 0x55, 0x66, 0x78, 0x87, 0x99] typ || decide (d.mor.stage < 7) then d else d.morUnknown n typ

/-- A forwarding frame (R342): the whole packet when its last piece is there. A gap, a missing SOP or EOP drops the partial packet. -/
def Dev.morPiece (d : Dev) (f : MorFrame) : Dev × Option (Packet) :=
  let k := f.ch - 3
  let seqOk := match d.mor.fwdSeq.getD k none with | some s => f.seq == (s + 1) % 2 ^ 32 | none => true
  let part := if f.sop then some [] else if seqOk then d.mor.fwdPart.getD k none else none
  let mark := f.mark || (!f.sop && d.mor.fwdMark.getD k false)
  let bytes := part.map (fun b => b ++ f.data)
  let d := d.onMor (fun m => { m with
    fwdSeq := modAt m.fwdSeq k (fun _ => some f.seq), fwdPart := modAt m.fwdPart k (fun _ => if f.eop then none else bytes)
    fwdMark := modAt m.fwdMark k (fun _ => if f.eop then false else mark) })
  (d, if f.eop then bytes.bind (fun b => csiPacket b mark) else none)

/-- ACK for what has been delivered (R341). -/
def Dev.morAck (d : Dev) (nak : Bool) : Dev :=
  d.morBlock 0x4B (leBytes 1 1 ++ leBytes 4 ((d.mor.expect + 2 ^ 32 - 1) % 2 ^ 32) ++ leBytes 1 (b2n nak))

/-- A frame of channel 1 (R341): delivered when it is the next expected, and acknowledged; the first out of order is answered by NAK. -/
def Dev.morJournal (d : Dev) (f : MorFrame) : Dev × Option Bytes :=
  if f.seq == d.mor.expect then
    ((d.onMor (fun m => { m with expect := (m.expect + 1) % 2 ^ 32, nakSent := false })).morAck false, some f.data)
  else if d.mor.nakSent then (d, none)
  else ((d.onMor (fun m => { m with nakSent := true })).morAck true, none)

/-- Whether a frame passes the receiver (R339). -/
def frameOk (f : MorFrame) (good : Bool) : Bool := good && !f.data.isEmpty && decide (f.data.length ≤ morLimit f.ch)

/-- The direction fails after eight resends without progress (R341): cause 5. -/
def Dev.morGiveUp (d : Dev) (n : Now) : Dev := if decide (8 ≤ d.mor.resends) && d.mor.stage == 7 then d.morDown n 5 0xFF else d

/-- ACK (R341): ACK_SEQ advances the window; NAK resends. -/
def morAckReceive (d : Dev) (n : Now) (seq : Nat) (nak : Bool) : Dev :=
  if !d.mor.up then d
  else
    let gone := d.mor.window.filter (fun f => !newer f.seq seq)
    let d := if gone.isEmpty then d else d.onMor (fun m => { m with
      window := m.window.filter (fun f => newer f.seq seq), acked := seq, resends := 0, ackAt := n.abs })
    let d := if nak && !d.mor.window.isEmpty then d.morResend n else d
    (d.morFill n.abs d.mor.wait.length).morGiveUp n

/-- MOR_RESEND_TIMEOUT (R341): ACK_SEQ has not advanced for `pair.mor_rtx_us` with frames unacknowledged. -/
def morResendTimeout (d : Dev) (n : Now) : Dev :=
  if d.mor.up && !d.mor.window.isEmpty && decide (d.mor.ackAt + d.cn P.pair_mor_rtx_us 0 * 800 ≤ n.abs) then (d.morResend n).morGiveUp n else d

/-! ## Boundaries -/

/-- The link follows its settings at a boundary (R345): a change of enable, cupola or initial taps re-runs bring-up. -/
def Dev.morFollow (d : Dev) (n : Now) (changed : Bool) : Dev :=
  let on := d.cn P.pair_mor_enable 0 == 1
  let init := d.cn P.pair_mor_ffe_init 0
  let preset (m : Morcel) : Morcel := { m with lanes := m.lanes.map (fun (l : MorLane) =>
    { l with pre := bits init 0 5, post := bits init 8 5, told := 0 }) }
  if !on then (if d.mor.tx == 0 then d
    else (if d.mor.stage == 7 then (List.range 8).foldl (fun d k => d.sourceCut n 2 k 1) d else d).morLinkDown.onMor (fun m =>
      { m with
        tx := 0, stage := 0, farState := 0, farSix := none, retryAt := none, slept := false, ctlq := [], wakeAt := none
        fwdPart := List.replicate 8 none, fwdSeq := List.replicate 8 none, fwdMark := List.replicate 8 false }))
  else if d.mor.tx == 0 || changed then
    let d := if d.mor.stage == 7 then (List.range 8).foldl (fun d k => d.sourceCut n 2 k 1) d else d
    (d.morLinkDown.onMor (fun m => preset { m with
      tx := 1, stage := 1, stageAt := n.abs, retryAt := none, slept := false
      fwdPart := List.replicate 8 none, fwdSeq := List.replicate 8 none, fwdMark := List.replicate 8 false })).morRetrain n.abs
  else if d.morFixed then d.onMor preset
  else d

/-- Slots of a heat: 125 µs of rows of eight blocks. -/
abbrev heatSlots : Nat := 156250

/-- The link at a heat boundary: its marker rows, and the load of the heat just ended (`pair.mor_load`). -/
def Dev.morHeat (d : Dev) (n : Now) : Dev :=
  ((d.morTick n.abs).morRows n.abs).onMor (fun m => { m with
    load := min 1000 (m.txSlots * 1000 / heatSlots) + min 1000 (m.rxSlots * 1000 / heatSlots) * 65536, txSlots := 0, rxSlots := 0 })

/-- When something was last queued, and when a direction that slept begins to wake for it: at once, or 0.5 µs after a SLUMBER row during which it
was queued (R338). -/
def Dev.morBusy (d : Dev) (t : Nat) : Dev :=
  if d.mor.fresh then d.onMor (fun m => { m with
    fresh := false, busyAt := t
    wakeAt := if m.tx == 4 && m.wakeAt.isNone then some (if t ≤ m.sleptAt + 5 then max t (m.sleptAt + 400) else t) else m.wakeAt })
  else d

/-! ## Status (Table 15.8) -/

/-- `pair.mor_status`. -/
def Dev.morStatus (d : Dev) : Nat :=
  let m := d.mor
  m.tx + m.stage * 8 + (if 5 ≤ m.stage then 0xFF else 0) * 256 + m.los * 65536 + m.inverted * 2 ^ 24 + m.map * 2 ^ 32 + b2n m.up * 2 ^ 56 +
    b2n (m.farState == 7) * 2 ^ 57

/-- `pair.mor_lane_state`. -/
def Dev.morLaneState (d : Dev) : Bytes :=
  if d.mor.tx == 0 && d.mor.map == 0 then []
  else d.mor.lanes.flatMap (fun l => [l.pre, l.post, l.farPre, l.farPost, l.ctle, l.skew, l.eye, 0].map (BitVec.ofNat 8))

end Sys2Proof.Machine
end

