-- ==== Sys2Proof/Machine/CheckRange.lean ====
section
/-!
DEFINITION. Stage 1 of the consistency check (Table 4.3): whether a value lies in its map's Range (R8), with the block codes the
map or its rule names for a value outside it, and the reserved bits that are ignored on receipt (R6).
-/

namespace Sys2Proof.Machine

/-- The bits of a numeric value that its map defines; the others are reserved and ignored on receipt (R6, R75). -/
def valueMask (id : Nat) (p : ParamDef) : Nat :=
  if id == P.rxp_polarity then 0x31F
  else if id == P.rxp_eq then 0xFF1
  else if id == P.txp_lp_ctrl then 0xFF07
  else if id == P.pdm_ctrl then 0x37
  else if id == P.gpio_ctrl then 0xF7
  else if id == P.rxp_los then 0xBFFF
  else if id == P.flt_pin_mask then 0xFFFFF
  else if id == P.stream_entry then 0x9FFFFFFFFFF7FF7F
  else if id == P.stream_dest then 0xFFFFFFFFFFFF
  else if has [P.vl_src_rect, P.vl_dst_rect, P.gl_src_rect, P.chk_rect] id then 0x1FFF1FFF1FFF1FFF
  else if has [P.sprue_crop_pos, P.gl_dst_pos] id then 0x1FFF1FFF
  else if has [P.sprue_crop_size, P.sprue_out_size] id then 0x3FFF3FFF
  else if id == P.sprue_csc then 0x17
  else if id == P.vl_alpha then 0x7FFF
  else if id == P.chk_policy then 0xFFFFF
  else if id == P.tg_wm_bounds then 0x80FF
  else if id == P.sap_clocking then 0xFF1F03
  else if has [P.pdm_clock, P.tundish_dst] id then 0xFF1F
  else if id == P.eaud_ctrl then 0x7F7F1F3FFF3F03
  else if id == P.pair_mor_ffe_init then 0x1F1F
  else if id == P.dev_can_wake_id then 0x3FFFFFFF
  else if id == P.fsync_source then 0xF3
  else if id == P.fsync_period then 0xFFFFFF
  else if id == P.flt_tx_monitor then 0xFFFF
  else if id == P.cru_ecc_inject then 0x33F
  else if id == P.flt_inject then 0xFF1F
  else 2 ^ p.bits - 1

/-- The reserved bytes of a blob parameter's record, as its length and the bits each byte keeps; `none` where every byte is defined:
`ctl.partner_table` (Table 3.14), `cru.replay` (R171), the colour matrices (Table 10.2), the output tables (Table 9.5). -/
def blobMask (id : Nat) : Option (List Nat) :=
  if id == P.ctl_partner_table then some (List.replicate 11 255 ++ List.replicate 5 0)
  else if id == P.cru_replay then some (List.replicate 6 255 ++ [0, 0])
  else if has [P.mould_out_csc, P.vl_csc, P.gl_csc] id then some ([255, 0, 0, 0] ++ List.replicate 24 255)
  else if has [P.mould_lut_r, P.mould_lut_g, P.mould_lut_b] id then some [255, 3]
  else none

/-- A blob's bytes under its record's mask, which repeats. -/
def maskBytes (m : List Nat) (b : Bytes) : Bytes :=
  b.zipIdx.map (fun x => x.1 &&& BitVec.ofNat 8 (m.getD (x.2 % m.length) 255))

/-- A value as received: reserved bits cleared (R6). -/
def maskValue (id : Nat) (x : PVal) : PVal :=
  match x, paramDef id with
  | .num v, some p => .num (v &&& BitVec.ofNat 64 (valueMask id p))
  | .blob b, some _ => .blob (match blobMask id with | some m => maskBytes m b | none => b)
  | x, none => x

/-- Whether a value lies in one of some closed ranges. -/
def inRanges (l : List (Nat × Nat)) (v : Nat) : Bool := l.any (fun r => decide (r.1 ≤ v) && decide (v ≤ r.2))

/-- The `n` digits of `w` bits of a number. -/
def digits (n w v : Nat) : List Nat := (List.range n).map (fun k => bits v (k * w) w)

/-- Whether the digits are a permutation (`n` = 2^w digits). -/
def isPerm (n w v : Nat) : Bool := !repeats (digits n w v)

/-- The code of the first condition that holds. -/
def firstCode : List (Bool × Nat) → Option Nat
  | [] => none
  | (b, c) :: l => if b then some c else firstCode l

/-- The transmit ports and generators of a variant. -/
def Variant.nTx : Variant → Nat | .ely2416 => 16 | .ely1208 => 8

/-- The code of a number that names generator or port 0–15 [0–7]: 0x8213 for one the variant lacks (R3). -/
def portCode (v : Variant) (k outside : Nat) : List (Bool × Nat) :=
  [(decide (k < 16) && decide (v.nTx ≤ k), 0x8213), (decide (16 ≤ k), outside)]

/-- Whether a ladle number is one that clocks no port: 16–19 [8–19] (R286). -/
def freeLadle (v : Variant) (l : Nat) : Bool := decide (v.nTx ≤ l) && decide (l < 20)

/-- The fields of `stream.entry` while ENABLE is set (R124). -/
def entryCode (v : Variant) (e : Nat) : Option Nat :=
  if !seOn e then none
  else firstCode [
    (seKind e == 0 && v == .ely1208 && decide (12 ≤ seSrc e) && decide (seSrc e < 24), 0x8213),
    (seKind e == 3, 0x8231),
    (seKind e == 0 && decide (24 ≤ seSrc e), 0x8231),
    (seKind e == 1 && decide (16 ≤ seSrc e), 0x8231),
    (seKind e == 2 && decide (8 ≤ seSrc e), 0x8231),
    (!seAny e && decide (seDt e < 8), 0x8231),
    (seFreeze e == 1, 0x8231),
    (decide (8 < seSample e), 0x8231)]

/-- The destinations of a stream (R125, R126): absent ports and sprues, and more than 8. -/
def destCode (v : Variant) (m : Nat) : Option Nat :=
  firstCode [
    (v == .ely1208 && (setBits 48 m).any (fun o => (decide (8 ≤ o) && decide (o < 16)) || (decide (24 ≤ o) && decide (o < 32))), 0x8213),
    (decide (8 < popCount 48 m), 0x8501)]

/-- Whether an entry of `cru.replay` names a generator that the variant lacks (R3, R171). -/
def replayAbsent (v : Variant) (e : Bytes) : Bool := rd e 2 1 == 1 && decide (rd e 3 1 < 16) && decide (v.nTx ≤ rd e 3 1)

/-- An entry of `cru.replay` (R171). -/
def replayCode (e : Bytes) : Option Nat :=
  firstCode [
    (decide (2 < rd e 2 1), 0x8231),
    (rd e 2 1 != 0 && rd e 0 2 == 0, 0x860E),
    (rd e 2 1 == 1 && decide (16 ≤ rd e 3 1), 0x860E),
    (rd e 2 1 == 2 && rd e 4 2 == 0, 0x860E)]

/-- The limits of a video source rectangle (R195). -/
def videoRectCode (x : Nat) : Option Nat :=
  let r := rectOf x
  firstCode [(decide (4096 < r.w) || decide (4096 < r.h) || decide (8192 < r.x + r.w) || decide (8192 < r.y + r.h), 0x8702)]

/-- The limits of a graphic source rectangle (R214). -/
def graphicRectCode (x : Nat) : Option Nat :=
  let r := rectOf x
  firstCode [(decide (7680 < r.w) || decide (4320 < r.h) || decide (8192 < r.x + r.w) || decide (8192 < r.y + r.h), 0x8702)]

/-- The entries of a blob of `k`-byte records. -/
def records (k : Nat) (b : Bytes) : List Bytes := (List.range (b.length / k)).map (fun i => slice b (k * i) k)

/-- `ctl.partner_table`: at most 32 entries with distinct PARTNER_IDs and CAN nodes 0–63 or 0xFF; a key slot above 63 is no slot
(R380). -/
def partnerCode (b : Bytes) : Option Nat :=
  let l := records 16 b
  firstCode [
    (b.length % 16 != 0 || decide (512 < b.length), 0x8231),
    (repeats (l.map (fun (e : Bytes) => rd e 0 8)), 0x8231),
    (l.any (fun (e : Bytes) => decide (64 ≤ rd e 10 1) && rd e 10 1 != 0xFF), 0x8231),
    (l.any (fun (e : Bytes) => decide (64 ≤ rd e 8 1)), 0x8D0A)]

/-- `ctl.expiry_table` (R61): 0x8213 ahead of any other code (R3). -/
def expiryCode (v : Variant) (b : Bytes) : Option Nat :=
  let l := records 4 b
  firstCode [
    (l.any (fun (e : Bytes) => leaseExists .ely2416 (rd e 0 1) (rd e 1 1) && !leaseExists v (rd e 0 1) (rd e 1 1)), 0x8213),
    (b.length % 4 != 0 || decide (1024 < b.length), 0x8231),
    (repeats (l.map (fun (e : Bytes) => rd e 0 2)), 0x8231),
    (l.any (fun (e : Bytes) => !leaseExists .ely2416 (rd e 0 1) (rd e 1 1) && !leaseExists v (rd e 0 1) (rd e 1 1)), 0x8231),
    (l.any (fun (e : Bytes) => decide (3 < rd e 2 1)), 0x8231),
    (l.any (fun (e : Bytes) => (rd e 2 1 == 1 || rd e 2 1 == 2) && !expiryVisual (rd e 0 1)), 0x8215)]

/-- `eaud.ctrl` (R319, R326) while MODE is not 0: an extractor uses only MODE, DT and the rate code. -/
def eaudCode (v : Variant) (x : Nat) : Option Nat :=
  if bits x 0 2 == 0 then none
  else firstCode [
    (bits x 0 2 == 2 && decide (v.nTx ≤ bits x 20 4), 0x8213),
    (bits x 0 2 == 3, 0x8231),
    (decide (12 < bits x 32 4), 0x8231),
    (decide (bits x 8 6 < 0x30) || decide (0x37 < bits x 8 6), 0x8B09),
    (bits x 0 2 == 2 && bits x 28 2 == 3, 0x8231),
    (bits x 0 2 == 2 && (decide (bits x 40 7 < 1) || decide (64 < bits x 40 7)), 0x8231),
    (bits x 0 2 == 2 && (decide (bits x 48 7 < bits x 40 7) || decide (64 < bits x 48 7)), 0x8231)]

/-- `tundish.dst` (R315, Table 14.10): 0 while unset. -/
def tunDstCode (v : Variant) (x : Nat) : Option Nat :=
  match bits x 12 4 with
  | 0 => firstCode [(x != 0, 0x8231)]
  | 1 => firstCode [(decide (11 < bits x 0 4), 0x8231)]
  | 2 => firstCode [(!freeLadle v (bits x 0 5), 0x8231), (decide (12 < bits x 8 4), 0x8231)]
  | _ => some 0x8231

/-- A spread profile's segments (R289): whole ones, each with a length of 1 to 16,777,215 cycles. -/
def profileCode (b : Bytes) : Option Nat :=
  firstCode [
    (b.length % 8 != 0 || decide (128 < b.length), 0x8231),
    ((records 8 b).any (fun (e : Bytes) => rd e 4 4 == 0 || decide (16777215 < rd e 4 4)), 0x8231)]

/-- How many instances a fault of `flt.inject` can name on a variant (R465; the encoding of the instance is the model's, assumption 56): a bank,
8 × mould + layer, a route FIFO by runner output (16 + sprue for a line buffer), 32 × kind + unit of a queue, a cupola 1 to 3, a ladle, a port, a
window. -/
def injectExists (v : Variant) (k i : Nat) : Bool :=
  let small := v == .ely1208
  match k with
  | 0 | 1 | 9 => decide (i < 64)
  | 2 => decide (i / 8 < if small then 6 else 12)
  | 3 => if i < 16 then decide (i < v.nTx) else if i < 32 then decide (i - 16 < if small then 8 else 16) else decide (i < 40)
  | 7 => match i / 32 with
    | 1 | 2 => decide (i % 32 < 12)
    | 4 => decide (i % 32 < 8)
    | 3 | 5 | 6 | 7 => true
    | _ => false
  | 10 => decide (1 ≤ i) && decide (i < 4)
  | 12 => decide (i < 20)
  | 13 => decide (i < v.nTx)
  | 17 => decide (i / 8 < if small then 6 else 12)
  | _ => true

/-- `flt.inject` (R3, R465): an instance that the variant lacks, or that neither variant has. -/
def injectCode (v : Variant) (x : Nat) : Option Nat :=
  let k := bits x 0 5
  let i := bits x 8 8
  if injectExists v k i then none else if injectExists .ely2416 k i then some 0x8213 else some 0x8231

/-- The ranges that a map states in words. -/
def specialCode (v : Variant) (id : Nat) (x : PVal) : Option Nat :=
  let n := x.toNat
  let b := x.bytes
  let len := b.length
  if id == P.dev_avs_limits then
    firstCode [
      (!inRanges [(650, 850)] (bits n 0 16) || !inRanges [(650, 850)] (bits n 16 16), 0x8231),
      (decide (bits n 16 16 ≤ bits n 0 16), 0x8105)]
  else if id == P.dev_avs_target then firstCode [(bits n 0 8 == 0 || decide (bits n 8 8 ≤ bits n 0 8), 0x8231)]
  else if id == P.ctl_mcast_group then firstCode [(!inRanges [(0xE0000000, 0xEFFFFFFF)] n, 0x8231)]
  else if id == P.ctl_can_id_base then firstCode [(bits n 0 12 != 0 || decide (0x1FFFFFFF < n), 0x8231)]
  else if id == P.ctl_partner_table then partnerCode b
  else if id == P.ctl_cert_deny then firstCode [(len % 20 != 0 || decide (1280 < len), 0x8231)]
  else if id == P.ctl_expiry_table then expiryCode v b
  else if id == P.rxp_lane_map || id == P.txp_lane_map then firstCode [(!isPerm 4 2 n, 0x8401)]
  else if id == P.rxp_los then
    firstCode [(!inRanges [(5, 40)] (bits n 0 8) || !inRanges [(15, 60)] (bits n 8 6), 0x8231)]
  else if id == P.stream_entry then entryCode v n
  else if id == P.stream_dest then destCode v n
  else if id == P.sprue_crop_size || id == P.sprue_out_size then
    firstCode [
      (bits n 0 14 == 0 || bits n 16 14 == 0, 0x8513),
      (decide (8192 < bits n 0 14) || decide (8192 < bits n 16 14), 0x8231)]
  else if id == P.sprue_csc_coef then firstCode [(len != 0 && len != 24, 0x8515)]
  else if id == P.cru_replay then
    if len != 0 && len != 128 then some 0x860E
    else if (records 8 b).any (replayAbsent v) then some 0x8213
    else (records 8 b).findSome? replayCode
  else if id == P.mould_output then firstCode (if n == 0xFF then [] else portCode v n 0x8231)
  else if id == P.mould_zorder then firstCode [(!isPerm 8 3 n, 0x870A)]
  else if has [P.mould_out_csc, P.vl_csc, P.gl_csc] id then firstCode [(len != 0 && len != 28, 0x870C)]
  else if has [P.mould_lut_r, P.mould_lut_g, P.mould_lut_b] id then firstCode [(len != 0 && len != 2048, 0x8231)]
  else if id == P.mould_ingot_kib then firstCode [(decide (8192 < n) || n % 4 != 0, 0x8231)]
  else if id == P.vl_src_rect then videoRectCode n
  else if id == P.vl_dst_rect then firstCode [(decide (7680 < bits n 32 13) || decide (4320 < bits n 48 13), 0x8231)]
  else if id == P.vl_flask_kib then firstCode [(!inRanges [(16, 192)] n || n % 4 != 0, 0x8231)]
  else if id == P.vl_riser_kib || id == P.gl_riser_kib then firstCode [(!inRanges [(4, 32)] n || n % 2 != 0, 0x8231)]
  else if id == P.vl_alpha then firstCode [(!inRanges [(1, 64)] (bits n 8 7), 0x8231)]
  else if id == P.vl_fallback then firstCode [(bits n 16 2 == 3, 0x8231)]
  else if id == P.gl_src_rect then graphicRectCode n
  else if id == P.gl_dst_pos then firstCode [(decide (7679 < bits n 0 13) || decide (4319 < bits n 16 13), 0x8231)]
  else if id == P.gl_clut then firstCode [(len != 0 && len != 1024, 0x8231)]
  else if id == P.gl_underrun then firstCode [(bits n 0 8 == 0, 0x8231)]
  else if id == P.tg_wm_bounds then firstCode [(bits n 4 4 == 0 || decide (bits n 4 4 < bits n 0 4), 0x8804)]
  else if id == P.chk_expect then firstCode [(len % 4 != 0 || decide (16 < len), 0x8902)]
  else if id == P.chk_policy then firstCode [(bits n 0 8 == 0, 0x8903)]
  else if id == P.cupola_n then firstCode [(!inRanges [(320, 480)] n, 0x8231)]
  else if id == P.cupola_enable then firstCode [(decide (1 < n), 0x8231)]
  else if id == P.ladle_profile then profileCode b
  else if id == P.sap_format then firstCode [(bits n 0 2 == 3, 0x8B01)]
  else if id == P.sap_slots then firstCode [(n == 0, 0x8B02), (!inRanges [(2, 16)] n, 0x8231)]
  else if id == P.sap_clocking then firstCode [(!freeLadle v (bits n 8 5), 0x8231), (bits n 16 8 == 0, 0x8231)]
  else if has [P.sap_tx_map, P.tundish_map, P.eaud_map] id then firstCode [(decide (32 < len) || len % 2 != 0, 0x8231)]
  else if id == P.pdm_clock then firstCode [(!freeLadle v (bits n 0 5), 0x8231), (decide (bits n 8 8 < 2), 0x8231)]
  else if id == P.pdm_gain then
    firstCode [([bits n 0 8, bits n 8 8].any (fun g => decide (signed 8 g < -96) || decide (48 < signed 8 g)), 0x8231)]
  else if id == P.tundish_dst then tunDstCode v n
  else if id == P.tundish_ctrl then firstCode [(decide (3 < bits n 1 3), 0x8231)]
  else if id == P.eaud_ctrl then eaudCode v n
  else if id == P.pair_ref_output then firstCode (if n == 0xFF then [] else portCode v n 0x8C03)
  else if id == P.fsync_source then
    firstCode [(bits n 0 2 == 3, 0x8231), (bits n 0 2 == 1 && decide (v.nTx ≤ bits n 4 4), 0x8213)]
  else if id == P.clkout_source then firstCode [(!(n == 0x20 || freeLadle v n), 0x8A07)]
  else if id == P.flt_tx_monitor then firstCode [(v == .ely1208 && bits n 8 8 != 0, 0x8213)]
  else if id == P.flt_yield_mask then
    firstCode [((setBits 64 n).any (fun k => !has [4, 5, 6, 10, 11, 12, 13, 14] k), 0x8F01)]
  else none

/-- The code of a value outside a plain range: 0x8231, or the block code its map names. -/
def withinCode (id n : Nat) : Nat :=
  if n == 0 && has [P.tg_h_fp, P.tg_h_sync, P.tg_h_bp, P.tg_v_fp, P.tg_v_sync, P.tg_v_bp] id then 0x8A01
  else if id == P.tg_pclk_hz && decide (600000000 < n) then 0x8802
  else 0x8231

/-- Whether a parameter instance is read only: by its map, cupola 0's enable and divider, and the reference settings in instances 1
to 3 of the cupolas. -/
def readOnlyAt (p : ParamDef) (id inst : Nat) : Bool :=
  p.range == .readOnly || ((id == P.cupola_enable || id == P.cupola_n) && inst == 0) ||
    (has [P.cupola_requal_cycles, P.cupola_holdover_limit_ms, P.cupola_glide_ppb_per_heat] id && inst != 0)

/-- The width code of a definition (Table 4.1). -/
def PWidth.code : PWidth → Nat
  | .w32 => 0
  | .w64 => 1
  | .blob => 2

/-- What STAGE tests of an entry (R79): ID, instance, WIDTH and read-only status. -/
def syntaxCode (v : Variant) (id inst width : Nat) : Option Nat :=
  match paramDef id with
  | none => some 0x8230
  | some p => firstCode [
      (decide (instances v id ≤ inst), 0x8213),
      (p.width.code != width, 0x8236),
      (readOnlyAt p id inst, 0x8232)]

/-- Stage 1 for an entry (Table 4.3). -/
def rangeCode (v : Variant) (e : Entry) : Option Nat :=
  match paramDef e.id with
  | none => some 0x8230
  | some p =>
    if instances v e.id ≤ e.inst then some 0x8213
    else if readOnlyAt p e.id e.inst then some 0x8232
    else if e.id == P.flt_inject then injectCode v e.val.toNat
    else match p.range with
      | .readOnly => some 0x8232
      | .any => none
      | .within l => if inRanges l e.val.toNat then none else some (withinCode e.id e.val.toNat)
      | .special => specialCode v e.id e.val

end Sys2Proof.Machine
end

