-- ==== Sys2Proof/Machine/Picture.lean ====
section
/-!
DEFINITION. What a source-1 port sends of its mould's picture (R111, R221 step 6, R229, R258, R259): the pixels after the windows' actions,
their packing or DSC encoding, and the packets of a frame's lines.
-/

namespace Sys2Proof.Machine

/-! ## Pixels as sent (R258 to R260) -/

/-- Black in the components of an output format (R259). -/
def blackPx (fmt : Nat) : Px := if fmt == 4 then ⟨16, 128, 128⟩ else ⟨0, 0, 0⟩

/-- A pixel of the verified capture of a window (R258); black where there is none. -/
def capturePx (m : Mem) (w : Win) (r : Rect) (fmt ax ay : Nat) : Px :=
  match w.capture with
  | none => blackPx fmt
  | some k =>
    let v := leNat (slotReads m w.place (k * imageBytes r + (ay - r.y) * ingotStride r.w + 4 * (ax - r.x)) 4)
    ⟨bits v 20 10, bits v 10 10, bits v 0 10⟩

/-- A pixel between steps 5 and 6 of Table 10.4: black of a quenched output, the capture of the lowest-numbered window that substitutes it,
else as composed (R258 to R260). -/
def sentPixel (x : DM) (m ax ay : Nat) : Px :=
  let d := x.dev
  let v := d.mouldView m
  let fmt := v.num P.mould_out_format m
  let rect (w : Nat) : Rect := rectOf (v.num P.chk_rect (winInst m w))
  if d.quenched m then blackPx fmt
  else match (List.range 8).find? (fun w => (d.win m w).acting && (d.win m w).action == 1 && (rect w).holds ax ay) with
    | some w => capturePx x.mem (d.win m w) (rect w) fmt ax ay
    | none => outPixel x m ax ay

/-- A row of pixels as sent. -/
def sentRow (x : DM) (m w y : Nat) : List Px := (List.range w).map (fun k => sentPixel x m k y)

/-! ## Packing (R111, Tables 5.4 and 5.5) -/

/-- The data type of an output format in a protocol; `none` where there is none (R111). -/
def outDt (dsi : Bool) (fmt : Nat) : Option Nat :=
  if dsi then [0x3E, 0x0E, 0x2E, 0x0D, 0x2C][fmt]?
  else if fmt == 0 then some 0x24 else if fmt == 1 then some 0x22 else if fmt == 4 then some 0x1E else none

/-- The bytes of a pair in 4:2:2: Cb, Y, Cr, Y. -/
def pairBytes (p q : Px) : Bytes := leBytes 1 p.b ++ leBytes 1 p.a ++ leBytes 1 p.c ++ leBytes 1 q.a

/-- Pixels of 30 bits, four in 15 bytes. -/
def pack30 : List Px → Bytes
  | p :: q :: r :: s :: l =>
    let w (x : Px) : Nat := x.a + x.b * 2 ^ 10 + x.c * 2 ^ 20
    leBytes 15 (w p + w q * 2 ^ 30 + w r * 2 ^ 60 + w s * 2 ^ 90) ++ pack30 l
  | [] => []
  | l => leBytes 15 ((l.foldr (fun (x : Px) acc => x.a + x.b * 2 ^ 10 + x.c * 2 ^ 20 + acc * 2 ^ 30) 0))

/-- The payload of an uncompressed line (R111); byte orders as of the received types (assumption 13). -/
def packLine (dsi : Bool) (fmt : Nat) (row : List Px) : Bytes :=
  if fmt == 4 then (pairsOf row).flatMap (fun p => pairBytes p.1 p.2)
  else if fmt == 3 then pack30 row
  else if fmt == 2 then row.flatMap (fun p => leBytes 1 (4 * p.a) ++ leBytes 1 (4 * p.b) ++ leBytes 1 (4 * p.c))
  else if fmt == 1 then
    row.flatMap (fun p => if dsi then leBytes 2 (p.a + p.b * 32 + p.c * 2048) else leBytes 2 (p.a * 2048 + p.b * 32 + p.c))
  else row.flatMap (fun p => if dsi then leBytes 1 p.a ++ leBytes 1 p.b ++ leBytes 1 p.c else leBytes 1 p.c ++ leBytes 1 p.b ++ leBytes 1 p.a)

/-! ## DSC (R229) -/

/-- The largest divisor of `n` not above 128 (Table 10.7). -/
def sliceHeight (n : Nat) : Nat := ((List.range 128).reverse.map (· + 1)).find? (fun k => n % k == 0) |>.getD 0

/-- DSC as a mould uses it (Table 10.7): bits per component, target rate in 1/16 bit, slices per line. -/
structure DscCfg where
  bpc    : Nat
  rate   : Nat
  slices : Nat
  deriving DecidableEq, Repr, Inhabited

/-- The DSC settings of a mould that encodes its output: moulds 0 to 3. -/
def View.dsc (v : View) (m : Nat) : Option DscCfg :=
  let x := v.num P.mould_dsc m
  if bit x 0 && decide (m < 4) then some ⟨if bit x 3 then 10 else 8, v.num P.mould_dsc_bpp m, bits x 1 2 + 1⟩ else none

/-- The bytes a slice takes of a line: its chunk. -/
def DscCfg.chunk (c : DscCfg) (w : Nat) : Nat := ceilDiv (w / c.slices * c.rate) 128

/-- The compressed line y of a picture w × h: the chunks of its slices. -/
def dscLine (x : DM) (m w h y : Nat) (c : DscCfg) : Bytes :=
  let sh := max 1 (sliceHeight h)
  let rows := (List.range sh).map (fun j => (sentRow x m w (y / sh * sh + j)).map (fun p => (p.a, p.b, p.c)))
  fit (c.slices * c.chunk w) (Config.dscLine c.bpc c.rate c.slices rows (y % sh))

/-- The PPS of a picture w × h (Table 10.7): what the table fixes in the layout of VESA DSC 1.2a, then the rate-control tables of the device
(assumption 64). -/
def ppsBytes (w h : Nat) (c : DscCfg) : Bytes :=
  let be (v : Nat) : Bytes := beBytes 2 v
  fit 128 ([0x12, 0, 0] ++ leBytes 1 (c.bpc * 16 + (c.bpc + 1)) ++ leBytes 1 (32 + 16 + c.rate / 256 % 4) ++ leBytes 1 c.rate ++ be h ++ be w ++
    be (sliceHeight h) ++ be (w / c.slices) ++ be (c.chunk w) ++ Config.dscRate c.bpc c.rate)

/-! ## Packets of lines (R111) -/

/-- A short packet on virtual channel 0, the one a mould's picture takes (assumption 64). -/
def shortPkt (dt data : Nat) : Packet := ⟨0, dt, true, data, [], false⟩

/-- A long packet on virtual channel 0. -/
def longPkt (dt : Nat) (b : Bytes) : Packet := ⟨0, dt, false, 0, b, false⟩

/-- Whether transmit port g sends its mould's picture. -/
def Dev.sendsPicture (d : Dev) (g : Nat) : Bool := d.ln P.txp_source g == 1 && (d.txp g).state == .run

/-- Packets leave a port one after another. -/
def Dev.sayPackets (d : Dev) (g : Nat) (l : List Packet) : Dev :=
  if l.isEmpty then d else l.foldl (fun d p => d.say (.packet g p)) (d.hsEntry g)

/-- The protocol of transmit port g in force. -/
def Dev.sendsDsi (d : Dev) (g : Nat) : Bool := bits (d.ln P.txp_protocol g) 0 2 == 1

/-- CSI-2 frame numbers of a mould's picture (R111). -/
def pourFrameNo (pour : Nat) : Nat := pour % 65535 + 1

/-- The pixels of active line y of mould m on generator g: a long packet, compressed where the mould encodes. -/
def pixelPacket (x : DM) (g m y : Nat) : Packet :=
  let d := x.dev
  let v := d.mouldView m
  let w := d.ln P.tg_h_active g
  let dsi := d.sendsDsi g
  let fmt := v.num P.mould_out_format m
  match v.dsc m with
  | some c => longPkt 0x0B (dscLine x m w (d.ln P.tg_v_active g) y c)
  | none => longPkt ((outDt dsi fmt).getD 0) (packLine dsi fmt (sentRow x m w y))

/-- What a DSI-2 line sends around its pixels: the sync sequence of `txp.dsi_mode` before them, and blanking or LP after (R111). -/
def Dev.dsiLine (d : Dev) (g line : Nat) (middle : List Packet) : List Packet :=
  let pulses := d.ln P.txp_dsi_mode g == 0
  let sync := if line == 0 then 0x01 else if pulses && line == d.ln P.tg_v_sync g then 0x11 else 0x21
  let lp := bit (d.ln P.txp_lp_ctrl g) 1 && Config.lpFits (d.laneKbps g) (d.ln P.tg_pclk_hz g) (d.liveView.hTotal g)
  [shortPkt sync 0] ++ (if pulses then [shortPkt 0x31 0] else []) ++ middle ++
    [if lp then shortPkt 0x08 0x0F0F else longPkt 0x19 (Config.blanking g line)]

/-- The PPS long write of the mould that drives generator g, if it encodes (R229). -/
def Dev.ppsOf (d : Dev) (g : Nat) : List Packet :=
  match d.liveView.mouldOf g with
  | none => []
  | some m =>
    match (d.mouldView m).dsc m with
    | some c => [longPkt 0x0A (ppsBytes (d.ln P.tg_h_active g) (d.ln P.tg_v_active g) c)]
    | none => []

/-- The packets of a frame from its pour to its last active line, and on CSI-2 its FE (R111). -/
def framePackets (x : DM) (g m : Nat) : List Packet :=
  let d := x.dev
  let t := d.tgen g
  let h := d.ln P.tg_v_active g
  if d.sendsDsi g then
    (List.range (t.head + h)).flatMap (fun line =>
      let pps := if t.pps == some line then d.ppsOf g else []
      d.dsiLine g line (pps ++ if t.head ≤ line then [pixelPacket x g m (line - t.head)] else []))
  else
    let marks := bit (d.ln P.txp_lp_ctrl g) 2
    (List.range h).flatMap (fun y =>
      (if marks then [shortPkt 0x02 (y + 1)] else []) ++ [pixelPacket x g m y] ++ (if marks then [shortPkt 0x03 (y + 1)] else [])) ++
      [shortPkt 0x01 (pourFrameNo t.pour.toNat)]

/-- The frame's lines leave its port, by its latch line (assumption 64). -/
def sendFrame (x : DM) (g : Nat) : Dev :=
  let d := x.dev
  match d.liveView.mouldOf g with
  | some m => if d.sendsPicture g && (d.tgen g).sends then d.sayPackets g (framePackets x g m) else d
  | none => d

/-- The front porch of a frame that ends after `total` lines: on DSI-2 its syncs, and the PPS on the second line after the latch line; where
the porch is shorter, the next frame carries it (R229). -/
def Dev.sendPorch (d : Dev) (g : Nat) : Dev :=
  let t := d.tgen g
  let first := t.head + d.ln P.tg_v_active g
  let d := d.onTg g (fun t => { t with pps := if t.total < first + 3 then some (first + 2 - t.total) else none })
  if d.sendsPicture g && t.sends && d.sendsDsi g then
    d.sayPackets g ((List.range (t.total - first)).flatMap (fun k => d.dsiLine g (first + k) (if k == 2 then d.ppsOf g else [])))
  else d

/-- The frame start of a pour, on CSI-2 its FS (R111). -/
def Dev.sendStart (d : Dev) (g : Nat) : Dev :=
  let on := d.sendsPicture g && (d.liveView.mouldOf g).isSome
  let d := d.onTg g (fun t => { t with sends := on })
  if on && !d.sendsDsi g then d.sayPackets g [shortPkt 0x00 (pourFrameNo (d.tgen g).pour.toNat)] else d

end Sys2Proof.Machine
end

