-- ==== Sys2Proof/Machine/CheckVideo.lean ====
section
/-!
DEFINITION. Stages 3 and 4 of the consistency check (Table 4.3) for receive and transmit ports, streams, the runner, sprues and the
crucible: the rules of chapters 5 to 8, applied to a projected configuration (R82). A projected configuration is the device with its
parameter values replaced (`Dev.projected`); `pk` gives each output's highest pixel clock in it (R202).
-/

namespace Sys2Proof.Machine

/-- A rule that a projected configuration breaks: its code and the parameter instance it is recorded against. -/
structure Broken where
  code : Nat
  id   : Nat
  inst : Nat
  deriving DecidableEq, Repr, Inhabited

/-- One record when the rule is broken. -/
def broken (b : Bool) (code id inst : Nat) : List Broken := if b then [⟨code, id, inst⟩] else []

/-- The device with a projected configuration in place of its parameters (R82). -/
def Dev.projected (d : Dev) (store : Store) : Dev :=
  { d with par := { d.par with committed := store, live := store, overlay := [] } }

/-- The mould that drives generator `g` in a projection. -/
def Dev.drives (d : Dev) (g : Nat) : Option Nat := d.liveView.mouldOf g

/-- DSC in use on a mould (R229). -/
def Dev.dscOn (d : Dev) (m : Nat) : Bool := bit (d.cn P.mould_dsc m) 0

/-- Sixteenths of a bit per pixel that a mould's packets carry (R112, R229). -/
def Dev.bpp16 (d : Dev) (m : Nat) : Nat :=
  if d.dscOn m then d.cn P.mould_dsc_bpp m
  else match d.cn P.mould_out_format m with | 0 => 384 | 1 => 256 | 2 => 384 | 3 => 480 | _ => 256

/-- Whether a transmit port runs DSI-2. -/
def Dev.txDsi (d : Dev) (i : Nat) : Bool := bits (d.cn P.txp_protocol i) 0 2 == 1

/-! ## Transmit ports (R15, R110 to R115) -/

/-- The picture of a source-1 port fits its lanes (R110 to R112, R115). `p`: the highest pixel clock of a glide, whose lowest one is, of the
new clock and the one before it, the new one: the other was checked in its turn. -/
def txPicture (d : Dev) (i m p : Nat) : List Broken :=
  let ratio := d.cn P.txp_lane_ratio i
  let lanes := d.cn P.txp_lanes i
  let dsi := d.txDsi i
  let v := d.liveView
  let hTot := v.hTotal i
  let hAct := d.cn P.tg_h_active i
  let b16 := d.bpp16 m
  let rate4 := p * ratio
  broken (decide (min p (d.cn P.tg_pclk_hz i) * ratio < 4 * 80000000) || decide (4 * 4500000000 < rate4)) 0x8403 P.txp_lane_ratio i ++
  broken ((outDt dsi (d.cn P.mould_out_format m)).isNone) 0x8406 P.mould_out_format m ++
  (if dsi && decide (d.cn P.txp_dsi_mode i < 2) then broken (lanes * ratio * 16 != 4 * b16) 0x8402 P.txp_lane_ratio i
   else broken (decide (4 * lanes * ratio * (hTot - ceilDiv p 1000000) < hAct * b16)) 0x8407 P.txp_lane_ratio i) ++
  broken (bits (d.cn P.txp_deskew i) 0 8 != 0 && decide ((hTot - hAct) * ratio * 1000000000 < 4096000000000 + 600 * p * ratio))
    0x8404 P.txp_deskew i

/-- The rules of transmit port `i`: a source-1 port needs a mould, a port has one source (R15, R192). -/
def txRules (d : Dev) (pk : List Nat) (i : Nat) : List Broken :=
  match d.cn P.txp_source i, d.drives i with
  | 1, none => [⟨0x8701, P.txp_source, i⟩]
  | 1, some m => txPicture d i m (pk.getD i 0)
  | 2, some _ => [⟨0x8701, P.txp_source, i⟩]
  | _, _ => []

/-! ## Streams (R121 to R128, R137) -/

/-- The enabled stream entries: number, entry and destinations. -/
def Dev.entriesOn (d : Dev) : List (Nat × Nat × Nat) :=
  (List.range 128).filterMap (fun e =>
    let v := d.cn P.stream_entry e
    if seOn v then some (e, v, d.cn P.stream_dest e) else none)

/-- The data type replay sends for a stored format (Table 6.5): on CSI-2 and on DSI-2. -/
def replayDts (fmt : Nat) : List Nat :=
  match fmt with
  | 0x10 => [0x2A] | 0x11 => [0x2B] | 0x12 => [0x2C] | 0x13 => [0x2E]
  | 0x08 => [0x22, 0x0E] | 0x09 => [0x24, 0x3E] | 0x04 => [0x1E, 0x2C] | 0x03 => [0x18]
  | _ => []

/-- The match fields of an entry against its source's protocol (R122, R124), its remap (R127) and, for a replay reader, its data
type (R137). -/
def entryRules (d : Dev) (e v : Nat) : List Broken :=
  let dsi := d.streamDsi v
  let framing := if dsi then [0x01, 0x11, 0x21, 0x31] else [0, 1, 2, 3]
  broken (dsi && (decide (3 < seVc v) || (!seAny v && has framing (seDt v)))) 0x8231 P.stream_entry e ++
  broken (bit v 30 && has framing (bits v 20 6)) 0x8505 P.stream_entry e ++
  (let c := d.replayCfg (seSrc v)
   match d.buf (rd c 0 2) with
   | some b => broken (seKind v == 1 && rd c 2 1 != 0 && (seAny v || !has (replayDts b.fmt) (seDt v))) 0x8506 P.stream_entry e
   | none => [])

/-- Whether a replayed stream's data type is the one of its buffer's format in the protocol of transmit port `o` (R137). -/
def replayFits (d : Dev) (v o : Nat) : Bool :=
  let c := d.replayCfg (seSrc v)
  match d.buf (rd c 0 2) with
  | some b =>
    let l := replayDts b.fmt
    seKind v != 1 || rd c 2 1 == 0 || l.isEmpty ||
      (if d.txDsi o then (if b.fmt == 0x04 || l.length == 2 then l[1]? == some (seDt v) else has [0x10, 0x11, 0x12, 0x13] b.fmt)
       else l.head? == some (seDt v))
  | none => true

/-- Two enabled entries that claim the same packets (R121). -/
def sameMatch (a b : Nat) : Bool :=
  seSource a == seSource b && seAny a == seAny b && (seAny a || seDt a == seDt b)

/-- The data types of an extractor and its stream agree (R125). -/
def extractorTakes (d : Dev) (k v : Nat) : Bool :=
  !seAny v && decide (0x30 ≤ seDt v) && decide (seDt v ≤ 0x37) && bits (d.cn P.eaud_ctrl k) 8 6 == seDt v

/-- One destination of a stream (R125, R128). `l`: the enabled entries. -/
def destRules (d : Dev) (l : List (Nat × Nat × Nat)) (e v o : Nat) : List Broken :=
  let id := P.stream_dest
  let others := l.filter (fun x => bit x.2.2 o)
  if o < 16 then
    let dsi := d.txDsi o
    if d.cn P.txp_source o != 2 then [⟨0x8502, id, e⟩]
    else
      broken (others.any (fun x => seOutVc x.2.1 == seOutVc v && seSource x.2.1 != seSource v) ||
        (List.range 8).any (fun k => let c := d.cn P.eaud_ctrl k; bits c 0 2 == 2 && bits c 20 4 == o && bits c 16 4 == seOutVc v))
        0x8504 id e ++
      broken (decide (3 < seOutVc v) && (dsi || !bit (d.cn P.txp_protocol o) 2) ||
        (dsi && (bit v 30 && !dsiReceived (bits v 20 6) || (!bit v 30 && !seAny v && !dsiReceived (seDt v))))) 0x8505 id e ++
      broken (!replayFits d v o) 0x8506 P.stream_entry e ++
      broken (seKind v == 0 && bits (d.cn P.rxp_protocol (seSrc v)) 0 2 != bits (d.cn P.txp_protocol o) 0 2) 0x8405 P.txp_protocol o
  else if o < 32 then
    broken (decide (1 < others.length)) 0x8502 id e ++ broken (seAny v || !sprueInput (d.streamDsi v) (seDt v)) 0x8507 id e
  else if o < 40 then []
  else broken (decide (1 < others.length)) 0x8502 id e ++ broken (!extractorTakes d (o - 40) v) 0x8507 id e

/-- The rules of every enabled stream. -/
def streamRules (d : Dev) : List Broken :=
  let l := d.entriesOn
  l.flatMap (fun x =>
    entryRules d x.1 x.2.1 ++
    broken (l.any (fun y => y.1 != x.1 && sameMatch x.2.1 y.2.1)) 0x8503 P.stream_entry x.1 ++
    (setBits 48 x.2.2).flatMap (destRules d l x.1 x.2.1))

/-! ## The runner (R129, R343) -/

/-- The counted rate of a source at runner output `o` in bytes per second, as numerator and denominator (Table 6.8). -/
def Dev.countedRate (d : Dev) (kind src o : Nat) : Nat × Nat :=
  match kind with
  | 0 => (d.cn P.rxp_lanes src * d.cn P.rxp_rate_kbps src * 125, 1)
  | 1 =>
    let c := d.replayCfg src
    let g := rd c 3 1
    let v := d.liveView
    if rd c 2 1 == 1 then
      (((d.buf (rd c 0 2)).map Buf.slotBytes).getD 0 * d.cn P.tg_pclk_hz g, max 1 (v.hTotal g * d.cn P.tg_v_active g))
    else if rd c 2 1 == 2 then
      (if o < 16 then d.cn P.txp_lanes o * d.cn P.txp_lane_kbps o * 125 else if decide (32 ≤ o) && decide (o < 40) then 8000000000 else 0, 1)
    else (0, 1)
  | _ => (8000000000, 1)

/-- Whether the sum of some rates is over a limit. -/
def rateOver (limit : Nat) (l : List (Nat × Nat)) : Bool :=
  let s := l.foldl (fun (a : Nat × Nat) r => (a.1 * r.2 + r.1 * a.2, a.2 * r.2)) (0, 1)
  decide (limit * s.2 < s.1)

/-- Distinct pairs of a list. -/
def distinct : List (Nat × Nat) → List (Nat × Nat)
  | [] => []
  | a :: l => if l.any (fun b => b == a) then distinct l else a :: distinct l

/-- The sources routed to some outputs. -/
def sourcesTo (l : List (Nat × Nat × Nat)) (p : Nat → Bool) : List (Nat × Nat) :=
  distinct ((l.filter (fun x => (setBits 48 x.2.2).any p)).map (fun x => (seKind x.2.1, seSrc x.2.1)))

/-- The first stream routed to some outputs. -/
def firstTo (l : List (Nat × Nat × Nat)) (p : Nat → Bool) : Nat := ((l.find? (fun x => (setBits 48 x.2.2).any p)).map (·.1)).getD 0

/-- The load of every runner output (R129) and of the pair link (R343). -/
def runnerRules (d : Dev) : List Broken :=
  let l := d.entriesOn
  (List.range 48).flatMap (fun o =>
    broken (rateOver 12800000000 ((sourcesTo l (fun x => x == o)).map (fun s => d.countedRate s.1 s.2 o))) 0x8508
      P.stream_dest (firstTo l (fun x => x == o))) ++
  (let onLink (o : Nat) : Bool := decide (32 ≤ o) && decide (o < 40)
   broken (rateOver 8000000000 ((sourcesTo l onLink).map (fun s => d.countedRate s.1 s.2 32))) 0x8C21 P.stream_dest (firstTo l onLink))

/-! ## Sprues (R157, R177 to R185) -/

/-- The stream routed to sprue `i`: its data type and protocol. -/
def Dev.sprueFeed (d : Dev) (i : Nat) : Option (Nat × Bool) :=
  (d.entriesOn.find? (fun x => bit x.2.2 (16 + i))).map (fun x => (seDt x.2.1, d.streamDsi x.2.1))

/-- The rules of a sprue that depend on its input (R177, R178, R180, R181): input type, its buffer's format. -/
def sprueInputRules (i dt : Nat) (dsi : Bool) (s : SprueSet) (fmt : Nat) : List Broken :=
  let raw := isRawDt dsi dt
  let yuv := isYuvDt dsi dt
  let m := if dt == 0x2B then 4 else if dt == 0x2C then 2 else 1
  let outYuv := match s.csc % 8 with
    | 0 => yuv | 1 => false | 2 => false | 3 => false | 4 => true | 5 => true | 6 => true | _ => !bit s.csc 4
  let fits := if raw then fmt == rawFmtOf dt else if outYuv then yuvFormat fmt else has [0x08, 0x09, 0x0A, 0x0B] fmt
  broken ((isSubsampledDt dsi dt && (s.cropX % 2 != 0 || s.cropW % 2 != 0)) ||
    (is420 dsi dt && (s.cropY % 2 != 0 || s.cropH % 2 != 0)) ||
    (raw && (s.cropX % m != 0 || s.cropW % m != 0))) 0x8513 P.sprue_crop_size i ++
  broken ((raw && s.csc != 0) || (!raw && !yuv && has [1, 2, 3] (s.csc % 8)) || (!raw && yuv && has [4, 5, 6] (s.csc % 8)))
    0x8515 P.sprue_csc i ++
  broken (!fits) 0x8510 P.sprue_target i

/-- The write rate of a sprue in bytes per second × 1,000 (R182). -/
def Dev.sprueWrite (d : Dev) (i : Nat) : Nat :=
  ((d.buf (d.cn P.sprue_target i)).map Buf.slotBytes).getD 0 * d.cn P.sprue_fps i

/-- The rules of sprue `i` with a live target (R157, R177 to R185). -/
def sprueRules (d : Dev) (i : Nat) : List Broken :=
  let t := d.cn P.sprue_target i
  match d.buf t with
  | none => []
  | some b =>
    let s := d.sprueSettings i 0 false
    let raw := match d.sprueFeed i with | some (dt, dsi) => isRawDt dsi dt | none => false
    let sized := s.cropW != 0 && s.cropH != 0 && s.outW != 0 && s.outH != 0
    broken (s.cropW == 0 || s.cropH == 0 || decide (8192 < s.cropX + s.cropW) || decide (8192 < s.cropY + s.cropH)) 0x8513 P.sprue_crop_size i ++
    broken (s.outW == 0 || s.outH == 0) 0x8513 P.sprue_out_size i ++
    broken (sized && raw && !(s.cropW == s.outW && s.cropH == s.outH)) 0x8510 P.sprue_out_size i ++
    broken (sized && !raw && !(decide (s.outW ≤ s.cropW) && decide (s.cropW ≤ 8 * s.outW) && decide (s.outH ≤ s.cropH) &&
      decide (s.cropH ≤ 8 * s.outH))) 0x8513 P.sprue_out_size i ++
    broken (!(s.outW == b.width && s.outH == b.height)) 0x8514 P.sprue_out_size i ++
    broken (s.csc % 8 == 7 && s.coef.length != 24) 0x8515 P.sprue_csc_coef i ++
    (match d.sprueFeed i with | some (dt, dsi) => sprueInputRules i dt dsi s b.fmt | none => []) ++
    broken (has [0x0C, 0x0D] b.fmt && (d.sprueFeed i).isNone) 0x8510 P.sprue_target i ++
    broken (!raw && sized && decide (48 * 1024 < (if s.outH < s.cropH then 4 else if b.fmt == 0x03 then 1 else 0) * s.outW * 4 + 8 * 1024))
      0x8512 P.sprue_out_size i ++
    broken (decide (2250000000 * 1000 < d.sprueWrite i)) 0x8511 P.sprue_fps i ++
    broken ((List.range d.nSprue).any (fun j => j != i && d.cn P.sprue_target j == t) ||
      b.slots.any (fun (x : SlotRec) => x.byUpload && x.state == .writing)) 0x860B P.sprue_target i

/-! ## The crucible (R136, R154, R166, R171) -/

/-- The replay readers (R136, R171). -/
def replayRules (d : Dev) : List Broken :=
  (List.range 16).flatMap (fun r =>
    let c := d.replayCfg r
    broken (rd c 2 1 == 1 && d.cn P.tg_enable (rd c 3 1) == 0) 0x860E P.cru_replay 0 ++
    (match d.buf (rd c 0 2) with
     | some b => broken (rd c 2 1 != 0 && b.depth == 1) 0x8506 P.cru_replay 0 ++ broken (rd c 2 1 != 0 && (replayDts b.fmt).isEmpty) 0x8506 P.cru_replay 0
     | none => []))

/-- Every handle the configuration names is live (R147, R166). A kind-1 fallback's handle that is not live also breaks R206's own rule. -/
def handleRules (d : Dev) : List Broken :=
  d.par.committed.flatMap (fun kv =>
    let id := kv.1 / 256
    broken ((entryHandles id kv.2).any (fun h => h != 0 && (d.buf h).isNone)) 0x8609 id (kv.1 % 256))

/-- Twice the demand of a replay reader in bytes per second: its frame size × its pacing rate (R166). -/
def Dev.replayDemand2 (d : Dev) (r : Nat) : Nat :=
  let c := d.replayCfg r
  let size := ((d.buf (rd c 0 2)).map Buf.slotBytes).getD 0
  let g := rd c 3 1
  let v := d.liveView
  if rd c 2 1 == 1 then ceilDiv (2 * size * d.cn P.tg_pclk_hz g) (max 1 (v.hTotal g * v.vTotal g))
  else if rd c 2 1 == 2 then ceilDiv (2 * size * 8000) (max 1 (rd c 4 2)) else 0

/-- Twice the crucible demand of a mould's layers: pixel clock × bytes per pixel (R166); an idle mould takes no part (R192). -/
def Dev.mouldDemand2 (d : Dev) (pk : List Nat) (m : Nat) : Nat :=
  let v := d.liveView
  let p := pk.getD (v.num P.mould_output m) 0
  ((v.layersOn m).map (fun k => p * v.pixel2 d m k)).sum

/-- The crucible demand stays within half the peak (R166). -/
def demandRules (d : Dev) (pk : List Nat) : List Broken :=
  let sum2 := ((List.range d.nMould).map (d.mouldDemand2 pk)).sum + ((List.range d.nSprue).map (fun i => ceilDiv (2 * d.sprueWrite i) 1000)).sum +
    ((List.range 16).map d.replayDemand2).sum
  broken (decide (2 * 819200000000 < sum2)) 0x860F P.cru_status 0

/-- The rules of chapters 5 to 8. -/
def videoRules (d : Dev) (pk : List Nat) : List Broken :=
  (List.range d.nTx).flatMap (txRules d pk) ++ streamRules d ++ runnerRules d ++ (List.range d.nSprue).flatMap (sprueRules d) ++
    replayRules d ++ handleRules d ++ demandRules d pk

end Sys2Proof.Machine
end

