-- ==== Sys2Proof/Machine/Scenes.lean ====
section
/-!
DEFINITION. Fallback scenes (chapter 12, R267 to R272) and the placing of a change on an output's pours (R30).
-/

namespace Sys2Proof.Machine

/-! ## Pours that show a change (R30) -/

/-- The pour after `p`. -/
def nextPour (p : BitVec 32) : BitVec 32 := p + 1

/-- The number of a generator's next pour (R28): 0 for the first after Boot. -/
def Tg.next (t : Tg) : BitVec 32 := if t.started then nextPour t.pour else 0

/-- The first pour whose frame shows a change that is effective now (R30): the next pour while the latch line is ahead, the porch is
stretched, or a reseat makes the fresh pour; else the one after it. A stopped generator has none: 0. -/
def Dev.shownPour (d : Dev) (g : Nat) (reseat : Bool) : Nat :=
  let t := d.tgen g
  match t.state with
  | .stopped => if reseat then t.next.toNat else 0
  | .hold => t.next.toNat
  | .running => if reseat || !t.latched || t.stretched || t.reseat then (nextPour t.pour).toNat else (nextPour t.pour + 1).toNat

/-! ## Triggers (R268) -/

/-- The scenes of a mould. -/
def Dev.scenesOf (d : Dev) (m : Nat) : List Scene := d.integ.scenes.filter (fun s => s.mould == m)

/-- Whether a number names a scene of the mould with bit 1 set (R61, R268). -/
def Dev.unleasedNames (d : Dev) (m no : Nat) : Bool := (d.scenesOf m).any (fun s => s.no == no && bit s.mask 1)

/-- The trigger bits of a scene that hold, lowest first (R268). While no controller pair runs the others stand as they were found last, and only
REVERSE_IN moves (R22, R270). -/
def Dev.sceneBits (d : Dev) (m : Nat) (s : Scene) : List Nat :=
  let x := d.mould m
  let unl := match x.unleased with
    | some z => if d.unleasedNames m z then s.no == z else true
    | none => false
  let held : List Bool :=
    [d.integ.reverse, unl, has d.integ.lossIn s.no, has d.integ.chkIn m, has x.cmds s.no]
  (List.range 5).filter (fun b => bit s.mask b && held.getD b false)

/-- Whether scene `a` is chosen before `b` (R269): higher priority, then lower number. -/
def Scene.before (a b : Scene) : Bool := decide (b.prio < a.prio) || (a.prio == b.prio && decide (a.no < b.no))

/-- The eligible scene of highest priority (R269). -/
def Dev.sceneCand (d : Dev) (m : Nat) : Option Scene :=
  ((d.scenesOf m).filter (fun s => !(d.sceneBits m s).isEmpty)).foldl (fun best s =>
    match best with
    | none => some s
    | some b => if s.before b then some s else some b) none

/-- The highest-priority scene of a mould with the unleased trigger (R462, R268). -/
def Dev.unleasedScene (d : Dev) (m : Nat) : Option Scene :=
  ((d.scenesOf m).filter (fun s => bit s.mask 1)).foldl (fun best s =>
    match best with
    | none => some s
    | some b => if s.before b then some s else some b) none

/-- The scene a mould shows next (R269): the minimum show time keeps the present one, unless a higher priority comes. A latch register set
names the unleased scene (R462). -/
def Dev.sceneNext (d : Dev) (m : Nat) : Option Scene :=
  let x := d.mould m
  let cand := d.sceneCand m
  if x.latchSet then d.unleasedScene m
  else match (x.scene).bind d.scene with
  | none => cand
  | some cur =>
    let held := decide (x.shown < cur.minShow)
    if held && (match cand with | some c => decide (c.prio ≤ cur.prio) | none => true) then some cur else cand

/-! ## Values for tg and txp (R267) -/

/-- The `tg` and `txp` entries of a scene for output g. -/
def sceneRaster (s : Option Scene) (g : Nat) : Store :=
  match s with
  | none => []
  | some s => s.values.filter (fun kv =>
      kv.1 % 256 == g && (decide (0x0300 ≤ kv.1 / 256 ∧ kv.1 / 256 < 0x0400) || decide (0x0A00 ≤ kv.1 / 256 ∧ kv.1 / 256 < 0x0B00)))

/-- The scene whose values output g's generator and port take. -/
def Dev.rasterScene (d : Dev) (g : Nat) : Option Scene :=
  ((d.liveView.mouldOf g).bind (fun m => (d.mould m).scene)).bind d.scene

/-- The value in force of a `tg` or `txp` key. -/
def Dev.rasterVal (d : Dev) (key : Nat) : PVal :=
  if rasterBound (key / 256) then d.par.live.val (key / 256) (key % 256)
  else (d.par.overlay.look key).getD (d.par.committed.val (key / 256) (key % 256))

/-- Whether a change of scene differs in a `tg` or `txp` value from those in force (R267). -/
def Dev.sceneReseats (d : Dev) (g : Nat) (old new : Option Scene) : Bool :=
  let n := sceneRaster new g
  let keys := (sceneRaster old g ++ n).map (·.1)
  keys.any (fun k => d.rasterVal k != (n.look k).getD (d.par.committed.val (k / 256) (k % 256)))

/-! ## Changes of scene (R269) -/

/-- A mould's scene changes at a latch line (R269): 0x0907, 0x0906; learning is abandoned (R261). `pour`: the next pour. -/
def Dev.sceneSet (d : Dev) (n : Now) (m pour : Nat) (new : Option Scene) : Dev :=
  let x := d.mould m
  let d := match x.scene with
    | some old => d.raise n 0x0907 m (leBytes 1 old ++ leBytes 1 ((new.map (fun (s : Scene) => s.no)).getD 0xFF) ++ leBytes 4 pour)
    | none => d
  let trig := (new.bind (fun s => (d.sceneBits m s).head?)).getD 0
  let d := d.onMould m (fun x => { x with scene := new.map (fun (s : Scene) => s.no), shown := 0 })
  let d := match new with
    | some s => d.raise n 0x0906 m (leBytes 1 s.no ++ leBytes 1 trig ++ leBytes 4 pour)
    | none => d
  d.learnFails m

/-- The unleased trigger and an expiry quench of a mould end at the latch line of a commit that touches it, with its lease and its
port's held (R61, R268). -/
def Dev.leaseTriggers (d : Dev) (n : Now) (m g : Nat) (touched : Bool) : Dev :=
  if touched && d.heldByAny n.abs kMould m && d.heldByAny n.abs kTx g then
    d.onMould m (fun x => { x with unleased := none, quench := false })
  else d

/-- The scene decision at a latch line (R269); whether it changed, and whether it reseats the output (R267). -/
def Dev.sceneLatch (d : Dev) (n : Now) (m g : Nat) (touched : Bool) : Dev × Bool × Bool :=
  let d := d.leaseTriggers n m g touched
  let old := ((d.mould m).scene).bind d.scene
  let new := d.sceneNext m
  if old == new then (d, false, false)
  else
    let rs := d.sceneReseats g old new
    (d.sceneSet n m (d.tgen g).next.toNat new, true, rs)

/-! ## Heats -/

/-- The hard window evaluates source loss and check mismatch (R268). -/
def Dev.sceneHard (d : Dev) : Dev :=
  let lost (i : Nat) : Bool :=
    (d.layer (i / 3) (i % 3)).lost || d.frozenBuf (d.ln P.vl_source i % 65536)
  { d with integ := { d.integ with
      lossEval := (d.integ.scenes.filter (fun s => bit s.mask 2 && s.loss.any lost)).map (·.no)
      chkEval := (List.range 12).filter (fun m => ((d.mould m).wins ++ (d.mould m).under).any (fun w => w.acting && w.action == 3)) } }

/-- A SCENE command becomes effective (R268, R272): its reply waits for the next message window. -/
def Dev.sceneCmd (d : Dev) (n : Now) (m : Nat) (c : SceneCmd) : Dev :=
  let g := d.cn P.mould_output m
  let cur := ((d.mould m).scene).bind d.scene
  let d := d.onMould m (fun x => { x with
    cmds := if c.op == 1 then (if has x.cmds c.scene then x.cmds else x.cmds ++ [c.scene]) else x.cmds.filter (· != c.scene) })
  let next := d.sceneNext m
  let rs := next != cur && d.sceneReseats g cur next
  let rec_ := if g == 0xFF then leBytes 1 0xFF ++ leBytes 7 0
    else leBytes 1 g ++ leBytes 1 (2 * b2n rs) ++ leBytes 2 0 ++ leBytes 4 (d.shownPour g false)
  d.hold { c.reply with data := leBytes 8 (n.heat % 2 ^ 48) ++ rec_ }

/-- Scenes at a heat boundary: the evaluated triggers apply; SCENE commands that are due. -/
def Dev.sceneBoundary (d : Dev) (n : Now) : Dev :=
  let d : Dev := if d.pair.mirrored then d else { d with integ := { d.integ with lossIn := d.integ.lossEval, chkIn := d.integ.chkEval } }
  (List.range 12).foldl (fun d m =>
    let due := if d.fwRuns then (d.mould m).pendCmds.filter (fun c => decide (c.due ≤ n.heat)) else []
    let d := d.onMould m (fun x => { x with pendCmds := x.pendCmds.filter (fun c => !due.any (· == c)) })
    due.foldl (fun d c => d.sceneCmd n m c) d) d

/-- REVERSE_IN's sample at a heat boundary (R268): those in a row that differ from the debounced level are counted. -/
def Dev.reverseSample (d : Dev) (level : Bool) : Dev :=
  { d with integ := { d.integ with reverseRun := if level == d.integ.reverse then 0 else d.integ.reverseRun + 1 } }

/-- The debounced level of REVERSE_IN changes (R270): 0x0908. -/
def Dev.reverseSet (d : Dev) (n : Now) (level : Bool) : Dev :=
  if d.integ.reverse == level then d
  else ({ d with integ := { d.integ with reverse := level, reverseRun := 0 } } : Dev).raise n 0x0908 whole (leBytes 1 (b2n level))

/-- REVERSE_IN_DEBOUNCE (R268, R270): the level has been high on 16 consecutive samples, or low on 80. -/
def reverseDebounce (d : Dev) (n : Now) (level : Bool) : Dev :=
  if d.integ.reverse != level && decide ((if level then 16 else 80) ≤ d.integ.reverseRun) then d.reverseSet n level else d

/-- SCENE (R272): tests, then the command waits for its boundary. `at_`: the boundary's heat. -/
def handleScene (d : Dev) (n : Now) (m : Msg) (at_ : Nat) : Dev :=
  let p := m.j.payload
  let slot := slotOf m.j.session
  let mo := rd p 0 1
  let op := rd p 1 1
  let sc := rd p 2 1
  if p.length != 4 then d.reject m 0x8206
  else if 12 ≤ mo then d.reject m 0x8907
  else if !decide (mo < d.nMould) then d.reject m 0x8213
  else if (d.slot slot).cls == 1 && !d.holds n.abs slot kMould mo then d.reject m 0x8214
  else if 1 < op then d.reject m 0x8206
  else if !(d.scenesOf mo).any (fun s => s.no == sc && bit s.mask 4) then d.reject m 0x8907
  else d.onMould mo (fun x => { x with pendCmds := x.pendCmds ++ [⟨m.held 0 [], sc, op, at_⟩] })

end Sys2Proof.Machine
end

