-- ==== Sys2Proof/Machine/CheckMould.lean ====
section
/-!
DEFINITION. Stages 3 and 4 of the consistency check for moulds, layers, colour, DSC, scan-out and check windows: the rules of
chapters 9 to 12, applied to a projected configuration (R82). A layer that is off breaks no rule (R193).
-/

namespace Sys2Proof.Machine

/-! ## Generators (R233, R249) -/

/-- The rules of generator `g`. -/
def tgRules (d : Dev) (g : Nat) : List Broken :=
  let v := d.liveView
  (match d.drives g with
   | none => []
   | some m =>
     broken (decide (d.cn P.tg_v_sync g + d.cn P.tg_v_bp g < 3)) 0x8801 P.tg_v_bp g ++
     broken (d.cn P.tg_h_active g % 2 != 0 && d.cn P.mould_out_format m == 4) 0x8801 P.tg_h_active g) ++
  broken (d.cn P.tg_idle_pours g != 0 && (decide (v.nIdle g ≤ v.vTotal g) || decide (65535 < v.nIdle g))) 0x8803 P.tg_idle_rate_mhz g

/-! ## Moulds (R192, R200, R202, R203, R220, R229) -/

/-- DSC on a mould that uses it (R229). -/
def dscRules (d : Dev) (m : Nat) : List Broken :=
  let x := d.cn P.mould_dsc m
  let g := d.cn P.mould_output m
  let slices := bits x 1 2 + 1
  let w := d.cn P.tg_h_active g
  let raster := g == 0xFF ||
    (d.txDsi g && w % slices == 0 && decide (32 ≤ w / slices) && decide (w / slices ≤ 2560) && decide (8 ≤ sliceHeight (d.cn P.tg_v_active g)))
  broken (bit x 0 && (decide (4 ≤ m) || d.cn P.mould_out_format m != (if bit x 3 then 3 else 0) || !raster)) 0x870D P.mould_dsc m

/-- Whether a matrix blob's preset is one of those accepted (R220). -/
def presetOk (b : Bytes) (l : List Nat) : Bool := b.isEmpty || b.length != 28 || has l (rd b 0 1)

/-- The ratio of two sizes lies between 1/8 and 8 (R195). -/
def ratioOk (src dst : Nat) : Bool := decide (src ≤ 8 * dst) && decide (dst ≤ 8 * src)

/-- The destination of a layer within the active area of its output (R195, R214). -/
def insideActive (d : Dev) (m : Nat) (r : Rect) : Bool :=
  let g := d.cn P.mould_output m
  decide (r.x + r.w ≤ d.cn P.tg_h_active g) && decide (r.y + r.h ≤ d.cn P.tg_v_active g)

/-- The matrix of a layer, on or off (R220). A video layer without a live source takes the presets of YUV formats. -/
def matrixRules (d : Dev) (m k : Nat) : List Broken :=
  let v := d.liveView
  let i := layerInst m k
  if k < 3 then
    let rgb := match d.buf (v.layer m k).handle with | some b => !yuvFormat b.fmt | none => false
    broken (!presetOk (v.bytes P.vl_csc i) (if rgb then [0] else [0, 1, 2, 3])) 0x870C P.vl_csc i
  else broken (!presetOk (v.bytes P.gl_csc i) [0]) 0x870C P.gl_csc i

/-- A video layer that is on (R148, R154, R195, R201, R202, R206). -/
def videoLayerRules (d : Dev) (m k p : Nat) : List Broken :=
  let v := d.liveView
  let i := layerInst m k
  let c := v.layer m k
  let f := v.fetch m k p
  broken (!insideActive d m c.dst) 0x8707 P.vl_dst_rect i ++
  broken (!ratioOk c.src.w c.dst.w || !ratioOk c.src.h c.dst.h) 0x8705 P.vl_dst_rect i ++
  broken ((v.taps d m k).isNone) 0x8703 P.vl_flask_kib i ++
  broken (decide (6400000000 * f.den < f.num)) 0x8708 P.vl_src_rect i ++
  (match d.buf c.handle with
   | none => []
   | some b =>
     broken (rawFormat b.fmt) 0x8610 P.vl_source i ++
     broken (!rawFormat b.fmt && has [0x0C, 0x0D] b.fmt) 0x8706 P.vl_source i ++
     broken (c.sel != 0 && decide (b.depth < c.sel)) 0x860C P.vl_select i) ++
  broken (bits (v.num P.vl_fallback i) 16 2 == 1 && (match v.fallbackBuf d i with
    | none => true
    | some b => rawFormat b.fmt || has [0x0C, 0x0D] b.fmt || !ratioOk b.width c.dst.w || !ratioOk b.height c.dst.h)) 0x8709 P.vl_fallback i

/-- A graphic layer that is on (R148, R154, R212 to R214). -/
def graphicLayerRules (d : Dev) (m k : Nat) : List Broken :=
  let v := d.liveView
  let i := layerInst m k
  let c := v.layer m k
  broken (!insideActive d m c.dst) 0x8707 P.gl_dst_pos i ++
  (match d.buf c.handle with
   | none => []
   | some b =>
     broken (rawFormat b.fmt) 0x8610 P.gl_source i ++
     broken (!rawFormat b.fmt && !has [0x08, 0x09, 0x0A, 0x0B, 0x0C, 0x0D] b.fmt) 0x870B P.gl_source i ++
     broken (c.sel != 0 && decide (b.depth < c.sel)) 0x860C P.gl_source i ++
     broken (b.fmt == 0x0D && (v.bytes P.gl_clut i).isEmpty) 0x870E P.gl_clut i)

/-- A layer that is on: its own rules and its riser (R203). -/
def layerRules (d : Dev) (m p k : Nat) : List Broken :=
  let v := d.liveView
  let load := v.riserLoad d m k p
  (if k < 3 then videoLayerRules d m k p else graphicLayerRules d m k) ++
  broken (decide (v.riser m k < riserKib load.1 load.2)) 0x8805 (if k < 3 then P.vl_riser_kib else P.gl_riser_kib) (layerInst m k)

/-- The rules of mould `m`. -/
def mouldRules (d : Dev) (pk : List Nat) (m : Nat) : List Broken :=
  let v := d.liveView
  let g := v.num P.mould_output m
  let p := pk.getD g 0
  let on := v.layersOn m
  let first := on.headD 0
  broken (g != 0xFF && (d.cn P.tg_enable g == 0 || (List.range d.nMould).any (fun j => j != m && v.num P.mould_output j == g)))
    0x8701 P.mould_output m ++
  broken (!presetOk (v.bytes P.mould_out_csc m) (if v.num P.mould_out_format m == 4 then [0, 4, 5, 6] else [0])) 0x870C P.mould_out_csc m ++
  dscRules d m ++
  (List.range 8).flatMap (matrixRules d m) ++
  on.flatMap (layerRules d m p) ++
  broken (decide (192 < v.flaskSum m)) 0x8704 P.vl_flask_kib (layerInst m first) ++
  broken (decide (96 < v.riserSum m)) 0x8805 (if first < 3 then P.vl_riser_kib else P.gl_riser_kib) (layerInst m first) ++
  broken (decide (25600000000 < v.mouldDemand d m p)) 0x8708 P.mould_output m

/-! ## Check windows (R254, R257) -/

/-- The rules of window `i`: inside the active area; ACTION 3 needs a scene that the mismatch triggers. -/
def chkRules (d : Dev) (i : Nat) : List Broken :=
  let m := i / 8
  let r := rectOf (d.cn P.chk_rect i)
  broken (r.w != 0 && r.h != 0 && d.cn P.mould_output m != 0xFF && !insideActive d m r) 0x8901 P.chk_rect i ++
  broken (bits (d.cn P.chk_policy i) 16 2 == 3 && !(d.scenesOf m).any (fun (s : Scene) => bit s.mask 3)) 0x8903 P.chk_policy i

/-! ## Retained pools (R166, R228, R258) -/

/-- One allocation against the granules in use so far. -/
def poolTake (used : List (Nat × Nat)) (need : Nat) (b : Broken) : List (Nat × Nat) × List Broken :=
  if need == 0 then (used, [])
  else match allocSlot used true (ceilDiv need 4096) with
    | some p => (used ++ ({ place := p } : SlotRec).granules, [])
    | none => (used, [b])

/-- What a projection asks to be allocated: ingot caches and substitute slots that differ from those in place, in bytes. An idle mould takes
no part (R192). -/
def Dev.poolNeeds (d : Dev) : List (Nat × Broken) :=
  ((List.range d.nMould).filter (fun m => d.cn P.mould_output m != 0xFF)).flatMap (fun m =>
    let kib := d.cn P.mould_ingot_kib m
    (if kib != (d.mould m).ingot.kib && kib != 0 then [(kib * 1024, ⟨0x8605, P.mould_ingot_kib, m⟩)] else []) ++
    (List.range 8).filterMap (fun w =>
      let i := winInst m w
      let need := captureBytes (d.cn P.chk_rect i) (d.cn P.chk_policy i)
      let x := d.baseWin m w
      if need != 0 && slotGranules need != (x.next.getD x.place).granules.length then some (need, ⟨0x8605, P.chk_rect, i⟩) else none))

/-- The retained region has room for every new cache and substitute slot beside those in use (R228). -/
def poolRules (d : Dev) : List Broken :=
  match d.poolNeeds with
  | [] => []
  | l => (l.foldl (fun (acc : List (Nat × Nat) × List Broken) x =>
      let r := poolTake acc.1 x.1 x.2
      (r.1, acc.2 ++ r.2)) (d.usedGranules, [])).2

/-- The rules of chapters 9 to 12. -/
def mouldsRules (d : Dev) (pk : List Nat) : List Broken :=
  (List.range d.nTx).flatMap (tgRules d) ++ (List.range d.nMould).flatMap (mouldRules d pk) ++
    (List.range (8 * d.nMould)).flatMap (chkRules d) ++ poolRules d

/-! ## Adjustments (R82, R201) -/

/-- The tap reductions of a mould's video layers: layer instance and taps in use. -/
def Dev.tapAdjusts (d : Dev) (m : Nat) : List (Nat × Nat) :=
  let v := d.liveView
  ((v.layersOn m).filter isVideo).filterMap (fun k =>
    match v.taps d m k with
    | some t => if t < v.num P.vl_taps (layerInst m k) then some (layerInst m k, t) else none
    | none => none)

end Sys2Proof.Machine
end

