-- ==== Sys2Proof/Machine/Keys.lean ====
section
/-!
DEFINITION. Keys, lifecycle and attestation (chapter 17): the key tree, slots, blobs, the slot table and its updates, key RAM,
key messages, certificates, the lifecycle.
-/

namespace Sys2Proof.Machine

/-! ## Flash bytes (the flash is erased to 0xFF) -/

/-- Read one byte of flash; an unlisted address is erased. -/
def flashRead : List Host.Cell → Nat → Byte
  | [], _ => 0xFF
  | (k, v) :: m, a => if k == a then v else flashRead m a

/-- Write one byte of flash, keeping the cells' canonical form. -/
def flashWrite : List Host.Cell → Nat → Byte → List Host.Cell
  | [], a, v => if v == 0xFF then [] else [(a, v)]
  | (k, w) :: m, a, v =>
    if a < k then (if v == 0xFF then (k, w) :: m else (a, v) :: (k, w) :: m)
    else if a == k then (if v == 0xFF then m else (a, v) :: m)
    else (k, w) :: flashWrite m a v

/-- The canonical form of the flash cells: addresses strictly rising, and no cell that holds the erased value. -/
def flashWf : List Host.Cell → Bool
  | [] => true
  | (k, v) :: m => v != 0xFF && m.all (fun c => decide (k < c.1)) && flashWf m

/-- `n` bytes of flash from an address. -/
def Dev.flashBytes (d : Dev) (a n : Nat) : Bytes := (List.range n).map (fun i => flashRead d.flash (a + i))

/-- Write bytes of flash from an address. -/
def flashWrites (m : List Host.Cell) : Nat → Bytes → List Host.Cell
  | _, [] => m
  | a, b :: bs => flashWrites (flashWrite m a b) (a + 1) bs

/-- Program bytes in the device's flash. -/
def Dev.program (d : Dev) (a : Nat) (b : Bytes) : Dev := { d with flash := flashWrites d.flash a b }

/-- Erase a range of the device's flash. -/
def Dev.erase (d : Dev) (a n : Nat) : Dev := { d with flash := d.flash.filter (fun c => decide (c.1 < a) || decide (a + n ≤ c.1)) }

/-- Addresses of the key area (Table 18.1). -/
abbrev flTableA : Nat := 0x10000
/-- Slot table copy B. -/
abbrev flTableB : Nat := 0x12000
/-- Identity certificate. -/
abbrev flIdCert : Nat := 0x14000
/-- Blob locations. -/
abbrev flBlobs : Nat := 0x18000

/-! ## The key tree (R377 to R379) -/

/-- The order of the P-256 group (FIPS 186-4; assumption 2). -/
abbrev p256Order : Nat := 0xFFFFFFFF00000000FFFFFFFFFFFFFFFFBCE6FAADA7179E84F3B9CAC2FC632551

/-- A P-256 private key from a 320-bit KDF output (R377). -/
def p256Private (c : Bytes) : Bytes := beBytes 32 (beNat c % (p256Order - 1) + 1)

/-- The public key X‖Y of a private key. -/
def p256Public (k : Bytes) : Bytes := beBytes 64 (Config.p256Public k).toNat

/-- An ECDSA P-256 signature r‖s with SHA-256 over bytes, with a nonce drawn from the TRNG. -/
def Dev.sign (d : Dev) (key msg : Bytes) : Bytes × Dev :=
  let (k, d) := d.draw
  (beBytes 64 (Config.ecdsaSign key (sha256 msg) k).toNat, d)

/-- Device branch key (Table 17.1). -/
def dbk (rs : Bytes) : Bytes := kdf rs (ascii "elyel-device") [] 256
/-- Identity key (Table 17.1). -/
def idKey (rs : Bytes) : Bytes := p256Private (kdf (dbk rs) (ascii "elyel-identity") [] 320)
/-- Stable branch key (Table 17.1). -/
def sbk (rs : Bytes) : Bytes := kdf (dbk rs) (ascii "elyel-stable") [] 256
/-- Bound branch key for a measurement (Table 17.1). -/
def bbk (rs m : Bytes) : Bytes := kdf (dbk rs) (ascii "elyel-bound") m 256
/-- Alias key for a measurement (Table 17.1). -/
def aliasKey (rs m bootId : Bytes) : Bytes := p256Private (kdf (bbk rs m) (ascii "elyel-alias") bootId 320)

/-- The measurement M (R379). -/
def measure (fwHash patHash : Bytes) (debug : Bool) : Bytes :=
  sha256 (leBytes 4 Config.romVer.toNat ++ fwHash ++ patHash ++ leBytes 1 (b2n debug))

/-- The root secret in use, or empty bytes when it is unavailable (R376). -/
def Dev.rs (d : Dev) : Bytes := d.key.rs.getD []

/-- The running measurement's M_TAG (R379). -/
def mTag (m : Bytes) : Bytes := m.take 8

/-! ## Slots (R380 to R382) -/

/-- Slot `i`. -/
def Dev.keySlot (d : Dev) (i : Nat) : KeySlot := d.key.slots.getD i {}

/-- Whether a slot holds a key usable at this start (R380). -/
def KeySlot.ready (s : KeySlot) : Bool := s.state == 1 && s.usable

/-- Bytes 0 to 7 of a slot record (Table 17.2). -/
def KeySlot.head (s : KeySlot) : Bytes :=
  leBytes 1 s.state ++ leBytes 1 s.typ ++ leBytes 1 s.cls ++ leBytes 1 s.child ++ leBytes 1 s.origin ++
    leBytes 1 s.branch ++ leBytes 1 s.parent ++ leBytes 1 s.flags

/-- A 64-byte slot record (Table 17.2). -/
def KeySlot.record (s : KeySlot) : Bytes :=
  s.head ++ leBytes 4 s.seq ++ leBytes 2 s.blob0 ++ leBytes 2 s.blob1 ++ fit 8 s.mtag0 ++ fit 8 s.mtag1 ++
    fit 16 s.keyId ++ leBytes 16 0

/-- Read a slot record. -/
def readRecord (b : Bytes) : KeySlot :=
  { state := rd b 0 1, typ := rd b 1 1, cls := rd b 2 1, child := rd b 3 1 % 16, origin := rd b 4 1, branch := rd b 5 1
    parent := rd b 6 1, flags := rd b 7 1, seq := rd b 8 4, blob0 := rd b 12 2, blob1 := rd b 14 2
    mtag0 := slice b 16 8, mtag1 := slice b 24 8, keyId := slice b 32 16 }

/-- The length of a key by TYPE (R389). -/
def keyLength (typ : Nat) : Nat := if typ == 1 then 16 else if typ == 5 then 64 else 32

/-- The wrapping key of a slot's blob (R382). -/
def wrapKey (branchKey : Bytes) (slot seq : Nat) : Bytes :=
  kdf branchKey (ascii "elyel-slot-wrap") (leBytes 1 slot ++ leBytes 4 seq) 256

/-- The additional data of a slot's blob (R382). -/
def blobAad (s : KeySlot) (mtag : Bytes) : Bytes := s.head ++ leBytes 4 s.seq ++ fit 8 mtag ++ fit 16 s.keyId

/-- A 128-byte blob that wraps a slot's key (R382), under branch key B and, for a bound slot, M_TAG. -/
def makeBlob (i : Nat) (s : KeySlot) (branchKey mtag iv : Bytes) : Bytes :=
  let sealed' := Config.gcmSeal (wrapKey branchKey i s.seq) iv (blobAad s mtag) (fit 64 s.key)
  fit 100 (leBytes 1 i ++ leBytes 3 0 ++ leBytes 4 s.seq ++ fit 12 iv ++ fit 80 sealed') ++ List.replicate 28 0xFF

/-- Open a blob; `none` when its tag fails (R382). -/
def openBlob (i : Nat) (s : KeySlot) (branchKey mtag blob : Bytes) : Option Bytes :=
  (Config.gcmOpen (wrapKey branchKey i s.seq) (slice blob 8 12) (blobAad s mtag) (slice blob 20 80)).map
    (fun k => k.take (keyLength s.typ))

/-- A blob's bytes in flash. -/
def Dev.blobAt (d : Dev) (loc : Nat) : Bytes := d.flashBytes (flBlobs + 128 * loc) 128

/-- How loading a slot's key at a start ended (R382). -/
inductive LoadResult where
  | ok (key : Bytes) | tagFailed (loc : Nat) | sealedAway
  deriving DecidableEq, Repr, Inhabited

/-- Unwrap a valid slot's key under the running M (R382, R392). -/
def Dev.loadKey (d : Dev) (i : Nat) (s : KeySlot) : LoadResult :=
  let tag := mTag d.key.m
  let try' (loc : Nat) (branchKey mtag : Bytes) : LoadResult :=
    match openBlob i s branchKey mtag (d.blobAt loc) with
    | some k => .ok k
    | none => .tagFailed loc
  if s.branch == 0 then try' s.blob0 (sbk d.rs) (List.replicate 8 0)
  else if s.blob0 != 0xFFFF && s.mtag0 == tag then try' s.blob0 (bbk d.rs d.key.m) tag
  else if s.blob1 != 0xFFFF && s.mtag1 == tag then try' s.blob1 (bbk d.rs d.key.m) tag
  else .sealedAway

/-- Load one slot into key RAM (R382): a failed tag makes it unusable, a sealed-away slot cannot be used; 0x0D06. -/
def Dev.loadSlot (d : Dev) (n : Now) (i : Nat) : Dev :=
  let s := d.keySlot i
  let put (f : KeySlot → KeySlot) : Dev := { d with key := { d.key with slots := modAt d.key.slots i f } }
  if s.state != 1 then put (fun s => { s with key := [], usable := false })
  else match d.loadKey i s with
    | .ok k => put (fun s => { s with key := k, usable := true })
    | .tagFailed loc =>
      ((put (fun s => { s with key := [], usable := false })).bumpField P.key_stats 0 16 16 1).raise n 0x0D06 i
        (leBytes 1 1 ++ leBytes 2 loc)
    | .sealedAway =>
      (put (fun s => { s with key := [], usable := false })).raise n 0x0D06 i (leBytes 1 2 ++ leBytes 2 0xFFFF)

/-- Load every slot into key RAM. -/
def Dev.loadSlots (d : Dev) (n : Now) : Dev := (List.range 64).foldl (fun d i => d.loadSlot n i) d

/-! ## The slot table (R383 to R385) -/

/-- The bytes of a table copy before its HMAC. -/
def tableBody (seq : Nat) (slots : List KeySlot) : Bytes :=
  ascii "ELK1" ++ leBytes 4 seq ++ leBytes 8 0 ++ slots.flatMap KeySlot.record

/-- The HMAC of a table body (R383). -/
def tableMac (rs body : Bytes) : Bytes := beBytes 32 (Config.hmac256 (kdf (sbk rs) (ascii "elyel-table") [] 256) body).toNat

/-- A table copy's 4,144 bytes. -/
def tableCopy (rs : Bytes) (seq : Nat) (slots : List KeySlot) : Bytes :=
  let b := tableBody seq slots
  b ++ tableMac rs b

/-- An intact copy at an address: its SEQ and records (R383). -/
def Dev.readTable (d : Dev) (a : Nat) : Option (Nat × List KeySlot) :=
  let body := d.flashBytes a 4112
  if body.take 4 == ascii "ELK1" && d.flashBytes (a + 4112) 32 == tableMac d.rs body then
    some (rd body 4 4, (List.range 64).map (fun i => readRecord (slice body (16 + 64 * i) 64)))
  else none

/-- The table chosen at a start (R384), with copies repaired and conflicts raised. -/
def Dev.chooseTable (d : Dev) (n : Now) : Dev :=
  let use (seq : Nat) (l : List KeySlot) (d : Dev) : Dev := { d with key := { d.key with tableSeq := seq, slots := l } }
  let repair (copy seq : Nat) (l : List KeySlot) (d : Dev) : Dev :=
    (d.program (if copy == 0 then flTableA else flTableB) (tableCopy d.rs seq l)).raise n 0x0D04 whole
      (leBytes 1 copy ++ leBytes 4 seq)
  match d.readTable flTableA, d.readTable flTableB with
  | some (sa, la), none => repair 1 sa la (use sa la d)
  | none, some (sb, lb) => repair 0 sb lb (use sb lb d)
  | some (sa, la), some (sb, lb) =>
    if sb < sa then d.program flTableB (tableCopy d.rs sa la) |> use sa la
    else if sa < sb then d.program flTableA (tableCopy d.rs sb lb) |> use sb lb
    else
      let l := (List.range 64).map (fun i =>
        let a := la.getD i {}
        if a.record == (lb.getD i {}).record then a else { a with state := 2 })
      ((List.range 64).filter (fun i => (la.getD i {}).record != (lb.getD i {}).record)).foldl
        (fun d i => d.raise n 0x0D05 i (leBytes 4 sa)) (use sa l d)
  | none, none =>
    (use 0 (List.replicate 64 {}) d).raise n 0x0D05 0xFF (leBytes 4 0)

/-- The blob locations the table and an update in progress reference. -/
def Dev.usedBlobs (d : Dev) : List Nat :=
  (d.key.slots.flatMap (fun s => [s.blob0, s.blob1])) ++
  (match d.key.update with | some u => u.blobs.map (·.1) | none => [])

/-- Whether a blob location is erased: only such a location counts as free (R401). -/
def Dev.blobErased (d : Dev) (i : Nat) : Bool :=
  !d.flash.any (fun c => decide (flBlobs + 128 * i ≤ c.1) && decide (c.1 < flBlobs + 128 * i + 128))

/-- `k` free blob locations, lowest first. -/
def Dev.freeBlobs (d : Dev) (k : Nat) : Option (List Nat) :=
  let used := d.usedBlobs
  let l := ((List.range 256).filter (fun i => !has used i && d.blobErased i)).take k
  if l.length == k then some l else none

/-- The slots whose records an update changes. -/
def changedSlots (a b : List KeySlot) : List Nat :=
  (List.range 64).filter (fun i => (a.getD i {}).record != (b.getD i {}).record)

/-- Step 1 of an update (R385): the new blobs are written. -/
def Dev.updateBlobs (d : Dev) (u : TableUpdate) : Dev :=
  u.blobs.foldl (fun d (loc, b) => d.program (flBlobs + 128 * loc) b) d

/-- Step 3 done: the new records are in force, changed keys are loaded into key RAM (R385). -/
def Dev.finishUpdate (d : Dev) (n : Now) (u : TableUpdate) : Dev :=
  let changed := changedSlots d.key.slots u.records
  let slots := (List.range 64).map (fun i =>
    let old := d.keySlot i
    { u.records.getD i {} with key := old.key, usable := old.usable })
  let d := { d with key := { d.key with slots := slots, tableSeq := d.key.tableSeq + 1, update := none } }
  let d := d.bumpField P.key_stats 0 0 16 1
  changed.foldl (fun d i => d.loadSlot n i) d

/-! ## Requests of the key messages (R388 to R390) -/

/-- The 24-byte HDR of KEY_GEN, KEY_IMPORT and KEY_DERIVE. -/
structure KeyHdr where
  slot   : Nat
  typ    : Nat
  cls    : Nat
  child  : Nat
  branch : Nat
  flags  : Nat
  keyId  : Bytes
  deriving DecidableEq, Repr, Inhabited

/-- Read HDR. -/
def keyHdr (p : Bytes) : KeyHdr :=
  ⟨rd p 0 1, rd p 1 1, rd p 2 1, rd p 3 1 % 16, rd p 4 1 % 2, rd p 5 1 % 4, slice p 8 16⟩

/-- Whether a mask is a subset of another. -/
def subMask (a b : Nat) : Bool := (List.range 4).all (fun i => !bit a i || bit b i)

/-- Whether a class and child mask fit the class itself and a parent's mask (R380). -/
def classOk (cls child parentMask : Nat) : Bool :=
  bit parentMask cls && subMask child parentMask && (child == 0 || cls == 2 || cls == 3)

/-- The slots parameters reference with the type and class each requires (R380), in the configuration in force and in Pending
commits. -/
def Dev.slotRefs (d : Dev) : List (Nat × Nat × Nat) :=
  let refs (id : Nat) (v : PVal) : List (Nat × Nat × Nat) :=
    if id == P.ctl_anchor_slot then (if v.toNat == 0xFF then [] else [(v.toNat, 5, 1)])
    else if id == P.key_pair_slot then (if v.toNat == 0xFF then [] else [(v.toNat, 3, 3)])
    else if id == P.ctl_partner_table then
      (List.range (v.bytes.length / 16)).map (fun i => (rd v.bytes (16 * i + 8) 1, 3, 3))
    else []
  refs P.ctl_anchor_slot (d.par.committed.val P.ctl_anchor_slot 0) ++
  refs P.key_pair_slot (d.par.committed.val P.key_pair_slot 0) ++
  refs P.ctl_partner_table (d.par.committed.val P.ctl_partner_table 0) ++
  d.pendingCommits.flatMap (fun c => c.entries.flatMap (fun e => refs e.id e.val))

/-- Whether replacing a slot's key with a type and class breaks a reference (R388). -/
def Dev.breaksRef (d : Dev) (slot typ cls : Nat) : Bool := d.slotRefs.any (fun r => r.1 == slot && !(r.2.1 == typ && r.2.2 == cls))

/-- The lifecycle rule of R388: bit 0 of `key.field_policy` for GEN, IMPORT and DERIVE, bit 1 for DELETE. -/
def Dev.keyPolicyOk (d : Dev) (delete : Bool) : Bool :=
  d.otp.lifecycle != 3 && (d.otp.lifecycle != 2 || bit (d.cn P.key_field_policy 0) (b2n delete))

/-- Whether a record with HDR is a pair key, etc.: the new record of a slot (KEY_SEQ up by 1). -/
def newRecord (old : KeySlot) (h : KeyHdr) (origin branch parent : Nat) (key : Bytes) : KeySlot :=
  { state := 1, typ := h.typ, cls := h.cls, child := h.child, origin := origin, branch := branch, parent := parent
    flags := h.flags, seq := old.seq + 1, keyId := h.keyId, key := key, usable := true }

/-- Begin the table update that puts a new key into a slot (R385, R388): its blob goes to a free location. -/
def Dev.beginKeyUpdate (d : Dev) (m : Msg) (h : KeyHdr) (op origin branch parent : Nat) (key : Bytes) (extra : Bytes) : Dev :=
  if d.key.update.isSome then d.reject m 0x8D07
  else match d.freeBlobs 1 with
    | some [loc] =>
      let r := newRecord (d.keySlot h.slot) h origin branch parent key
      let tag := if branch == 1 then mTag d.key.m else List.replicate 8 0
      let b := if branch == 1 then bbk d.rs d.key.m else sbk d.rs
      let (iv, d) := d.draw
      let r := { r with blob0 := loc, mtag0 := tag }
      let blob := makeBlob h.slot r b tag (freeBytes 12 iv)
      let records := modAt d.key.slots h.slot (fun _ => r)
      { d with key := { d.key with update := some ⟨[(loc, blob)], records, 0,
          .message (m.held 0 (leBytes 4 r.seq ++ extra)) h.slot op⟩ } }
    | _ => d.reject m 0x8D0B

/-- Tests common to GEN, IMPORT and DERIVE; the code of the first failure (assumption 10). -/
def Dev.keyTests (d : Dev) (h : KeyHdr) (types : List Nat) : Option Nat :=
  if 64 ≤ h.slot then some 0x8D01
  else if !d.keyPolicyOk false then some 0x8D08
  else if !has types h.typ || decide (3 < h.cls) then some 0x8D03
  else if !classOk h.cls h.child 15 then some 0x8D02
  else if d.breaksRef h.slot h.typ h.cls then some 0x8D06
  else if d.key.update.isSome then some 0x8D07
  else none

/-- KEY_QUERY (R388). -/
def handleKeyQuery (d : Dev) (m : Msg) : Dev :=
  let p := m.j.payload
  let first := rd p 0 1
  let k := rd p 1 1
  if p.length != 4 then d.reject m 0x8206
  else if k == 0 || decide (32 < k) || decide (64 < first + k) then d.reject m 0x8D01
  else d.reply m 0 ((List.range k).flatMap (fun i => (d.keySlot (first + i)).record))

/-- KEY_GEN (R388): a key from the TRNG. -/
def handleKeyGen (d : Dev) (m : Msg) : Dev :=
  let p := m.j.payload
  let h := keyHdr p
  if p.length != 24 then d.reject m 0x8206
  else match d.keyTests h [1, 2, 3, 4] with
    | some c => d.reject m c
    | none =>
      let (v, d) := d.draw
      let key := if h.typ == 4 then p256Private (freeBytes 32 v) else freeBytes (keyLength h.typ) v
      d.beginKeyUpdate m h 2 2 h.branch 0xFF key (if h.typ == 4 then p256Public key else [])

/-- The key that a KEY_IMPORT carries (R389), or the code it is rejected with. -/
def Dev.importedKey (d : Dev) (p : Bytes) (h : KeyHdr) : Except Nat Bytes :=
  let method := rd p 24 1
  let kekSlot := rd p 25 1
  let kek := d.keySlot kekSlot
  let len := keyLength h.typ
  let unwrap (key iv body : Bytes) : Except Nat Bytes :=
    match Config.gcmOpen key iv (p.take 28) body with
    | some k => .ok (k.take len)
    | none => .error 0x8D04
  if method == 0 then
    (if h.typ != 5 then .error 0x8D03 else if p.length != 28 + 64 then .error 0x8206 else .ok (p.drop 28))
  else if method == 1 || method == 2 then
    if h.typ == 5 then .error 0x8D03
    else if 64 ≤ kekSlot then .error 0x8D01
    else if p.length != 28 + (if method == 2 then 64 else 0) + 12 + len + 16 then .error 0x8206
    else if !kek.ready then .error 0x8D0A
    else if method == 1 && !(kek.typ == 2 && kek.cls == 2) then .error 0x8D03
    else if method == 2 && !(kek.typ == 4 && kek.cls == 3) then .error 0x8D03
    else if !classOk h.cls h.child kek.child then .error 0x8D02
    else if method == 1 then unwrap kek.key (slice p 28 12) (p.drop 40)
    else
      let e := slice p 28 64
      let z := beBytes 32 (Config.ecdhX kek.key e).toNat
      unwrap (kdf z (ascii "elyel-import-v1") (e ++ leBytes 1 kekSlot) 256) (slice p 92 12) (p.drop 104)
  else .error 0x8206

/-- KEY_IMPORT (R389). -/
def handleKeyImport (d : Dev) (m : Msg) : Dev :=
  let p := m.j.payload
  let h := keyHdr p
  if p.length < 28 then d.reject m 0x8206
  else match d.keyTests h [1, 2, 3, 4, 5] with
    | some c => d.reject m c
    | none =>
      match d.importedKey p h with
      | .error c => (if c == 0x8D04 then d.bumpField P.key_stats 0 32 16 1 else d).reject m c
      | .ok k => d.beginKeyUpdate m h 3 1 h.branch (if rd p 24 1 == 0 then 0xFF else rd p 25 1) k []

/-- Whether a partner's label is the device's own (R377). -/
def reservedLabel (l : Bytes) : Bool :=
  l.take 6 == ascii "elyel-" || l.take 6 == ascii "jorek-" || l.take 7 == ascii "morcel-"

/-- The parent of a KEY_DERIVE (R390): its key, child mask and branch. -/
def Dev.deriveParent (d : Dev) (parent : Nat) : Except Nat (Bytes × Nat × Nat) :=
  if parent == 0xFE then .ok (sbk d.rs, 15, 0)
  else if parent == 0xFD then .ok (bbk d.rs d.key.m, 15, 1)
  else if 64 ≤ parent then .error 0x8D01
  else
    let s := d.keySlot parent
    if !s.ready then .error 0x8D0A else if s.cls != 3 then .error 0x8D03 else .ok (s.key, s.child, s.branch)

/-- KEY_DERIVE (R390). -/
def handleKeyDerive (d : Dev) (m : Msg) : Dev :=
  let p := m.j.payload
  let h := keyHdr p
  let parent := rd p 24 1
  let ll := rd p 25 1
  let cl := rd p 26 1
  let label := slice p 28 ll
  if p.length < 28 || p.length != 28 + ll + cl then d.reject m 0x8206
  else match d.keyTests h [1, 2, 3, 4] with
    | some c => d.reject m c
    | none =>
      if ll == 0 || decide (32 < ll) || decide (96 < cl) || reservedLabel label then d.reject m 0x8D05
      else match d.deriveParent parent with
        | .error c => d.reject m c
        | .ok (k, mask, branch) =>
          if !classOk h.cls h.child mask then d.reject m 0x8D02
          else
            let bitsOut := if h.typ == 1 then 128 else if h.typ == 4 then 320 else 256
            let c := kdf k label (p.drop (28 + ll)) bitsOut
            let key := if h.typ == 4 then p256Private c else c
            d.beginKeyUpdate m h 4 3 branch parent key []

/-- KEY_DELETE (R388). -/
def handleKeyDelete (d : Dev) (m : Msg) : Dev :=
  let p := m.j.payload
  let i := rd p 0 1
  if p.length != 4 then d.reject m 0x8206
  else if 64 ≤ i then d.reject m 0x8D01
  else if !d.keyPolicyOk true then d.reject m 0x8D08
  else if (d.keySlot i).state == 0 then d.reject m 0x8D0A
  else if d.slotRefs.any (fun r => r.1 == i) then d.reject m 0x8D06
  else if d.key.update.isSome then d.reject m 0x8D07
  else
    let r : KeySlot := { seq := (d.keySlot i).seq + 1 }
    { d with key := { d.key with update := some ⟨[], modAt d.key.slots i (fun _ => r), 0, .message (m.held 0 []) i 5⟩ } }

/-- KEY_PUBLIC (R388). -/
def handleKeyPublic (d : Dev) (m : Msg) : Dev :=
  let p := m.j.payload
  let i := rd p 0 1
  let s := d.keySlot i
  if p.length != 4 then d.reject m 0x8206
  else if 64 ≤ i then d.reject m 0x8D01
  else if !s.ready then d.reject m 0x8D0A
  else if s.typ == 5 then d.reply m 0 (fit 64 s.key)
  else if s.typ == 4 && bit s.flags 0 then d.reply m 0 (p256Public s.key)
  else d.reject m 0x8D03

/-! ## Certificates and attestation (R395, R396) -/

/-- HW_TYPE (Table 3.5). -/
def Variant.hwType : Variant → Nat | .ely2416 => 0x2416 | .ely1208 => 0x1208

/-- The alias certificate's bytes 0 to 135 (Table 17.5). -/
def Dev.aliasBody (d : Dev) : Bytes :=
  ascii "ELC1" ++ leBytes 1 2 ++ leBytes 1 d.otp.stepping ++ leBytes 2 d.variant.hwType ++ leBytes 8 d.otp.unitId ++
    (sha256 (p256Public (idKey d.rs))).take 8 ++ fit 8 d.key.bootId ++ fit 32 d.key.m ++ leBytes 4 d.key.fwSvn ++
    leBytes 4 d.key.patSvn ++ p256Public (aliasKey d.rs d.key.m d.key.bootId)

/-- IK signs a new alias certificate (R391). -/
def Dev.signAlias (d : Dev) : Dev :=
  let (sig, d) := d.sign (idKey d.rs) d.aliasBody
  { d with key := { d.key with aliasCert := d.aliasBody ++ sig } }

/-- The identity certificate stored in flash (Table 17.7 operation 0). -/
def Dev.idCert (d : Dev) : Bytes := d.flashBytes flIdCert 200

/-- The certificate chain of R52 and ATTEST: alias then identity, 400 bytes (R395). -/
def Dev.certChain (d : Dev) : Bytes := fit 200 d.key.aliasCert ++ d.idCert

/-- The owner-key hash, or 32 zero bytes. -/
def Dev.ownerHash (d : Dev) : Bytes := d.otp.owners.getLast?.getD (List.replicate 32 0)

/-- The attestation statement's bytes 0 to 207 (Table 17.6). -/
def Dev.attestBody (d : Dev) (n : Now) (trial activeInPair drag : Bool) (nonce : Bytes) : Bytes :=
  ascii "ELA1" ++ leBytes 1 1 ++ leBytes 1 d.otp.lifecycle ++ leBytes 2 d.variant.hwType ++ leBytes 1 d.otp.stepping ++
    leBytes 1 (b2n trial + 2 * b2n d.key.mNext.isSome + 4 * b2n activeInPair + 8 * b2n drag + 16 * b2n d.key.debugOpen) ++
    leBytes 2 0 ++ leBytes 8 d.otp.unitId ++ n.stamp ++ leBytes 4 Config.romVer.toNat ++ fit 32 d.key.fwHash ++
    fit 32 d.key.patHash ++ fit 32 d.key.m ++ leBytes 4 d.key.fwSvn ++ leBytes 4 d.key.patSvn ++ leBytes 1 d.otp.fwCtr ++
    leBytes 1 d.otp.patCtr ++ leBytes 1 d.otp.owners.length ++ leBytes 1 0 ++ d.ownerHash ++ fit 32 nonce

/-- ATTEST (R396). -/
def handleAttest (d : Dev) (n : Now) (m : Msg) (trial activeInPair drag : Bool) : Dev :=
  if m.j.payload.length != 32 then d.reject m 0x8206
  else
    let body := d.attestBody n trial activeInPair drag m.j.payload
    let (sig, d) := d.sign (aliasKey d.rs d.key.m d.key.bootId) body
    (d.bumpField P.key_stats 0 48 16 1).reply m 0 (body ++ sig ++ d.certChain)

/-! ## Lifecycle (R397) -/

/-- Whether a signature r‖s over SHA-256 of bytes verifies under a public key. -/
def sigOk (pub msg sig : Bytes) : Bool := Config.ecdsaVerify pub (sha256 msg) sig

/-- What an operation's signature covers: label ‖ UNIT_ID ‖ BOOT_ID, with bytes in between where the table gives them. -/
def Dev.lifeMsg (d : Dev) (label extra : Bytes) : Bytes := label ++ extra ++ leBytes 8 d.otp.unitId ++ fit 8 d.key.bootId

/-- The owner public key a signature is verified under is carried as its hash; the key itself is named by the verifier
through `ownerKeyOf` (a key whose SHA-256 is the owner hash, assumption 11). -/
def ownerSigOk (hash msg sig : Bytes) : Bool := Config.ecdsaVerify (fit 64 (beBytes 64 (Config.ownerKeyOf hash).toNat)) (sha256 msg) sig

/-- A LIFECYCLE operation's effect (Table 17.7), or its rejection. `restart` tells that the device restarts. -/
def Dev.lifecycleOp (d : Dev) (maintenance : Bool) (p : Bytes) : Except Nat (Dev × Bool) :=
  let op := rd p 0 1
  let body := p.drop 4
  let st := d.otp.lifecycle
  let owner := d.otp.owners.getLast?
  if op != 4 && !maintenance then .error 0x8D09
  else if op == 0 then
    if body.length != 200 then .error 0x8206
    else if st == 0 && sigOk (beBytes 64 Config.caKey.toNat) (body.take 136) (slice body 136 64) &&
        slice body 72 64 == p256Public (idKey d.rs) then
      .ok ((d.erase flIdCert 4096).program flIdCert body, false)
    else .error 0x8D09
  else if op == 1 then
    if !body.isEmpty then .error 0x8206
    else if st == 0 && d.idCert.take 4 == ascii "ELC1" then .ok ({ d with otp := { d.otp with lifecycle := 1 } }, false)
    else .error 0x8D09
  else if op == 2 then
    if !body.isEmpty then .error 0x8206
    else if st == 1 then .ok ({ d with otp := { d.otp with lifecycle := 2 } }, false)
    else .error 0x8D09
  else if op == 3 then
    if body.length != 64 then .error 0x8206
    else
      let msg := d.lifeMsg (ascii "elyel-return-v1") []
      let auth := match owner with
        | some h => ownerSigOk h msg body
        | none => sigOk (beBytes 64 Config.returnsKey.toNat) msg body
      if (st == 1 || st == 2) && auth then
        let d := ((d.erase flTableA 0x4000).erase flBlobs 0x8000)
        .ok ({ d with otp := { d.otp with lifecycle := 3, erased := true, root := List.replicate 32 0xFF, helper := List.replicate 2048 0xFF }
                      key := { d.key with slots := List.replicate 64 {} } }, true)
      else .error 0x8D09
  else if op == 4 then
    if st == 3 then .error 0x8D09
    else if 3 ≤ d.otp.owners.length then .error 0x8D0C
    else match owner with
      | none =>
        if body.length != 64 then .error 0x8206
        else .ok ({ d with otp := { d.otp with owners := [sha256 body] } }, false)
      | some h =>
        if body.length != 128 then .error 0x8206
        else if ownerSigOk h (d.lifeMsg (ascii "elyel-owner-v1") (body.take 64)) (body.drop 64) then
          .ok ({ d with otp := { d.otp with owners := d.otp.owners ++ [sha256 (body.take 64)] } }, false)
        else .error 0x8D09
  else if op == 5 then
    if body.length != 64 then .error 0x8206
    else match owner with
      | some h =>
        if st == 1 && ownerSigOk h (d.lifeMsg (ascii "elyel-debug-v1") []) body then
          .ok ({ d with otp := { d.otp with debugNext := true } }, false)
        else .error 0x8D09
      | none => .error 0x8D09
  else .error 0x8D09

/-- LIFECYCLE (R397): 0x0D0B for each accepted operation; operation 3 restarts the device. -/
def handleLifecycle (d : Dev) (n : Now) (m : Msg) : Dev :=
  if m.j.payload.length < 4 then d.reject m 0x8206
  else match d.lifecycleOp (d.pwr.mode == .maintenance) m.j.payload with
    | .error c => d.reject m c
    | .ok (d, restart) =>
      let d := (d.raise n 0x0D0B whole (leBytes 1 (rd m.j.payload 0 1) ++ leBytes 1 d.otp.lifecycle)).reply m 0 []
      if restart then { d with pwr := { d.pwr with restart := some (1, 3) } } else d

/-! ## Re-sealing (R391, R392) -/

/-- Begin the re-seal of every valid, usable bound slot under M_next (R391); `none` when blob locations run out. -/
def Dev.beginReseal (d : Dev) (mNext : Bytes) (after : AfterUpdate) : Option Dev :=
  let bound := (List.range 64).filter (fun i => (d.keySlot i).ready && (d.keySlot i).branch == 1)
  match d.freeBlobs bound.length with
  | none => none
  | some locs =>
    let (d, records, blobs) := (bound.zip locs).foldl (fun (d, records, blobs) (i, loc) =>
      let (iv, d) := d.draw
      let s := d.keySlot i
      let blob := makeBlob i s (bbk d.rs mNext) (mTag mNext) (freeBytes 12 iv)
      (d, modAt records i (fun s => { s with blob1 := loc, mtag1 := mTag mNext }), blobs ++ [(loc, blob)]))
      (d, d.key.slots, [])
    some { d with key := { d.key with mNext := some mNext, update := some ⟨blobs, records, 0, after⟩ } }

/-- Begin the table update at confirmation: each re-sealed slot takes BLOB1 as BLOB0 (R392). -/
def Dev.beginConfirmSeal (d : Dev) (kinds : Nat) : Dev :=
  let records := d.key.slots.map (fun s =>
    if s.blob1 == 0xFFFF then s
    else { s with blob0 := s.blob1, mtag0 := s.mtag1, blob1 := 0xFFFF, mtag1 := List.replicate 8 0 })
  { d with key := { d.key with update := some ⟨[], records, 0, .confirm kinds⟩ } }

/-- Begin the table update at changeback: BLOB1 is cleared (R392). -/
def Dev.beginUnseal (d : Dev) : Dev :=
  let records := d.key.slots.map (fun s => { s with blob1 := 0xFFFF, mtag1 := List.replicate 8 0 })
  { d with key := { d.key with mNext := none, update := some ⟨[], records, 0, .unseal⟩ } }

/-! ## Debug access (R398) -/

/-- What the JTAG port can be asked for (Table 17.8): boundary scan, internal scan and BIST with TEST_EN high, controller debug. -/
inductive JtagFn where
  | boundary | test | debug
  deriving DecidableEq, Repr, Inhabited

/-- Whether the lifecycle state allows a JTAG function (Table 17.8). Key RAM, the OTP root field and the helper data are read by none. -/
def Dev.jtagAllows (d : Dev) (f : JtagFn) : Bool :=
  match f with
  | .boundary => true
  | .test => d.otp.lifecycle == 0 || d.otp.lifecycle == 3
  | .debug => d.otp.lifecycle == 0 || d.otp.lifecycle == 3 || (d.otp.lifecycle == 1 && d.key.debugOpen)

end Sys2Proof.Machine
end

