-- ==== Sys2Proof/Machine/CheckClock.lean ====
section
/-!
DEFINITION. Stages 3 and 4 of the consistency check for clocks, audio, the pair link and pair, keys, control and power: the rules of
chapters 3 and 13 to 20, applied to a projected configuration (R82), and the rules about a change of it.
-/

namespace Sys2Proof.Machine

/-! ## Cupolas and ladles (R275, R285 to R290) -/

/-- A cupola's divider in a projection. -/
def Dev.planN (d : Dev) (k : Nat) : Nat := if k == 0 then 384 else d.cn P.cupola_n k

/-- Whether a cupola is enabled in a projection. -/
def Dev.planOn (d : Dev) (k : Nat) : Bool := k == 0 || d.cn P.cupola_enable k == 1

/-- Whether ladle `l` clocks a transmit port with a source. -/
def Dev.portClocked (d : Dev) (l : Nat) : Bool := decide (l < d.nTx) && d.cn P.txp_source l != 0

/-- The frequency a ladle is asked for in a projection; 0 is off. -/
def Dev.planHz (d : Dev) (l : Nat) : Nat :=
  if l < d.nTx then
    match d.cn P.txp_source l with
    | 1 => d.cn P.tg_pclk_hz l
    | 2 => d.cn P.txp_lane_kbps l * 1000 / 8
    | _ => 0
  else d.cn P.ladle_freq_hz l

/-- Whether a frequency is reachable by rotation from f_c (R287). -/
def reachable (fc hz : Nat) : Bool := decide (3 * fc ≤ 16384 * hz) && decide (16 * hz ≤ 5 * fc)

/-- ROT_ssc at the end of each segment of a profile. -/
def sscEnds : List (Int × Nat) → Int → List Int
  | [], _ => []
  | (s, n) :: l, acc => (acc + s * n) :: sscEnds l (acc + s * n)

/-- The lowest ROT_ssc of a profile. -/
def sscLowest (l : List (Int × Nat)) : Int := (sscEnds l 0).foldl (fun a b => if b < a then b else a) 0

/-- Whether a spread profile is valid at a rotation rate (R289). -/
def profileOk (l : List (Int × Nat)) (base : Int) : Bool :=
  (sscEnds l 0).getLast? == some 0 && (sscEnds l 0).all (fun e => decide (e ≤ 0)) &&
    decide (-((rotOne : Int) + base) ≤ 100 * sscLowest l) && decide (12699 ≤ profLoop l) && decide (profLoop l ≤ 26666)

/-- The rules of ladle `l`. -/
def ladleRules (d : Dev) (l : Nat) : List Broken :=
  let cup := d.cn P.ladle_cupola l
  let fc := fcOf (d.planN cup)
  let hz := d.planHz l
  let divMode := bit (d.cn P.ladle_mode l) 0
  let dv := d.cn P.ladle_div l
  let prof := profSegs (d.cb P.ladle_profile l)
  let base : Int := if hz == 0 || divMode then 0 else rotFor fc hz (bestDiv fc hz)
  let spread := bit (d.cn P.ladle_mode l) 1
  let lowest := if spread && !divMode && hz != 0 then hzOf fc (bestDiv fc hz) (base + sscLowest prof) else hz
  broken (hz != 0 && !d.planOn cup) 0x8231 P.ladle_cupola l ++
  broken (decide (l < d.nTx) && d.cn P.ladle_freq_hz l != 0) 0x8A03 P.ladle_freq_hz l ++
  broken (divMode && d.portClocked l) 0x8A05 P.ladle_mode l ++
  broken (divMode && dv == 0) 0x8A05 P.ladle_div l ++
  broken (hz != 0 && !divMode && !(reachable fc hz && reachable fc lowest)) 0x8A02 P.ladle_freq_hz l ++
  broken (divMode && decide (d.nTx ≤ l) && hz != 0 && dv != 0 && !(decide (hz * dv ≤ fc + dv) && decide (fc ≤ hz * dv + dv)))
    0x8A02 P.ladle_freq_hz l ++
  broken (!prof.isEmpty && !profileOk prof base) 0x8A04 P.ladle_profile l

/-- Whether a running clock besides the outputs uses a cupola (R279, R329): a CLKOUT, a ladle with a frequency, the Morcel link. -/
def Dev.cupolaUsed (d : Dev) (k : Nat) : Bool :=
  (List.range 6).any (fun i => d.cn P.clkout_format i != 0 && d.cn P.clkout_source i != 0x20 && d.cn P.ladle_cupola (d.cn P.clkout_source i) == k) ||
  (List.range 20).any (fun l => d.cn P.ladle_freq_hz l != 0 && d.cn P.ladle_cupola l == k) ||
  (d.cn P.pair_mor_enable 0 == 1 && d.cn P.pair_mor_cupola 0 == k)

/-- A change of a cupola in use (R279, R329): its divider, or its enable to 0, while a running clock uses it before and after (DEDUCED, assumption
28); and a ladle at rest that is given a cupola which is not enabled (Table 13.4). -/
def cupolaChange (a b : Dev) : List Broken :=
  [1, 2, 3].flatMap (fun k =>
    let used := a.cupolaUsed k && b.cupolaUsed k
    broken (used && a.cn P.cupola_n k != b.cn P.cupola_n k) 0x8A06 P.cupola_n k ++
    broken (used && a.cn P.cupola_enable k == 1 && b.cn P.cupola_enable k == 0) 0x8A06 P.cupola_enable k) ++
  (List.range 20).flatMap (fun l =>
    broken (a.cn P.ladle_cupola l != b.cn P.ladle_cupola l && b.planHz l == 0 && !b.planOn (b.cn P.ladle_cupola l)) 0x8231 P.ladle_cupola l)

/-! ## CLKOUT and FSYNC (R292, R294) -/

/-- The highest output frequency of a CLKOUT format (R292). -/
def clkLimit (fmt : Nat) : Nat := if fmt == 3 then 400000000 else if fmt == 4 then 250000000 else 125000000

/-- The rules of CLKOUT `i`: `dev.vddio_b` is 0 for 1.8 V and 1 for 3.3 V. -/
def clkoutRules (d : Dev) (i : Nat) : List Broken :=
  let fmt := d.cn P.clkout_format i
  let src := d.cn P.clkout_source i
  let hz := if src == 0x20 then 25000000 else d.cn P.ladle_freq_hz src
  broken ((fmt == 1 && d.sn P.dev_vddio_b 0 != 0) || (fmt == 2 && d.sn P.dev_vddio_b 0 == 0)) 0x8A07 P.clkout_format i ++
  broken (fmt != 0 && decide (clkLimit fmt * d.cn P.clkout_div i < hz)) 0x8A07 P.clkout_div i

/-- The rules of FSYNC output `i`. -/
def fsyncRules (d : Dev) (pk : List Nat) (i : Nat) : List Broken :=
  let s := d.cn P.fsync_source i
  let pos := d.cn P.fsync_position i
  let per := d.cn P.fsync_period i
  let w := d.cn P.fsync_width_us i
  let g := bits s 4 4
  let v := d.liveView
  match bits s 0 2 with
  | 1 =>
    broken (d.cn P.tg_enable g == 0) 0x8A08 P.fsync_source i ++
    broken (decide (v.vTotal g ≤ pos)) 0x8A08 P.fsync_position i ++
    broken (bits per 0 8 == 0) 0x8A08 P.fsync_period i ++
    broken (bits per 0 8 != 0 && decide (bits per 0 8 * v.hTotal g * v.vTotal g * 1000000 ≤ w * pk.getD g 0)) 0x8A08 P.fsync_width_us i
  | 2 =>
    broken (decide (99999 < pos)) 0x8231 P.fsync_position i ++
    broken (bits per 0 16 == 0 || bits per 16 8 == 0) 0x8A08 P.fsync_period i ++
    broken (bits per 16 8 != 0 && decide (bits per 0 16 * heatCycles / bits per 16 8 ≤ w * 800)) 0x8A08 P.fsync_width_us i
  | _ => []

/-! ## Audio (R300, R302, R304, R306, R310, R313, R315, R316, R318, R321, R322) -/

/-- Channels of a tundish in a projection. -/
def Dev.tunChannels (d : Dev) (i : Nat) : Nat := (d.tunMap i).length

/-- Whether a channel address names a present unit and channel (R300). -/
def addrOk (d : Dev) (a : Nat) : Bool :=
  let u := bits a 4 4
  let c := bits a 0 4
  match bits a 12 4 with
  | 0 => true
  | 1 => decide (u < 12) && decide (c < d.cn P.sap_slots u)
  | 2 => decide (u < 4) && decide (c < 2)
  | 3 => decide (c < d.tunChannels u)
  | 4 => decide (u < 8)
  | _ => false

/-- Whether every source of a map that is not silence lies in a domain. -/
def inDomain (d : Dev) (x : Option Domain) (l : List Nat) : Bool :=
  l.all (fun a => bits a 12 4 == 0 || d.addrDomain a == x)

/-- Whether ladle `l` runs a spread profile. -/
def Dev.spreads (d : Dev) (l : Nat) : Bool := bit (d.cn P.ladle_mode l) 1

/-- The rules of serial port `p`. -/
def sapRules (d : Dev) (p : Nat) : List Broken :=
  let fmt := bits (d.cn P.sap_format p) 0 2
  let slots := d.cn P.sap_slots p
  let l := bits (d.cn P.sap_clocking p) 8 5
  let map := mapAddrs (d.cb P.sap_tx_map p)
  let beyond (m : Nat) : Bool := decide (2 ^ slots ≤ m)
  broken (decide (fmt < 2) && slots != 2) 0x8B02 P.sap_slots p ++
  broken (decide (50000000 < d.sapBclk p)) 0x8B03 P.sap_rate_hz p ++
  broken (d.sapMaster p && (d.cn P.ladle_freq_hz l == 0 || d.spreads l || decide (d.sapRq p < 2 * 65536))) 0x8B03 P.sap_clocking p ++
  broken (beyond (d.cn P.sap_rx_mask p)) 0x8B04 P.sap_rx_mask p ++
  broken (beyond (d.cn P.sap_tx_mask p)) 0x8B04 P.sap_tx_mask p ++
  broken (!map.all (addrOk d)) 0x8B05 P.sap_tx_map p ++
  broken (map.all (addrOk d) && !inDomain d (some (d.sapDomain p)) map) 0x8B06 P.sap_tx_map p

/-- The rules of a PDM input that is enabled (R313): its clock and its decimation ratio. -/
def pdmRules (d : Dev) (i : Nat) : List Broken :=
  let c := d.cn P.pdm_clock i
  let f := d.cn P.ladle_freq_hz (bits c 0 5)
  let dv := bits c 8 8
  let r := pdmRate (d.cn P.pdm_rate i)
  broken (d.cn P.pdm_enable i == 1 && (decide (f < 1024000 * dv) || decide (4096000 * dv < f) ||
    !([32, 48, 64, 96, 128, 192, 256].any (fun m => f == m * r * dv)))) 0x8B08 P.pdm_clock i

/-- The ladle of a ladle domain. -/
def Domain.ladleOf : Domain → Option Nat
  | .ladle l _ => some l
  | _ => none

/-- The rules of tundish instance `i`, which is on while it has a map. -/
def tunRules (d : Dev) (i : Nat) : List Broken :=
  let map := d.tunMap i
  let ok := map.all (addrOk d)
  let src := d.mapDomain map
  let steady (x : Option Domain) : Bool := match x.bind Domain.ladleOf with | some l => !d.spreads l | none => false
  if map.isEmpty then []
  else
    broken (!ok) 0x8B05 P.tundish_map i ++
    broken (ok && !inDomain d src map) 0x8B06 P.tundish_map i ++
    (match d.tunDst i, src with
     | none, _ => [⟨0x8231, P.tundish_dst, i⟩]
     | some o, some a =>
       broken (decide (8 * d.domainRate o < d.domainRate a) || decide (8 * d.domainRate a < d.domainRate o)) 0x8B07 P.tundish_dst i ++
       broken (bit (d.cn P.tundish_ctrl i) 0 && !(steady (some o) && steady (some a))) 0x8B07 P.tundish_ctrl i
     | some _, none => [])

/-- At most 32 tundish channels in all (R315). -/
def tunTotal (d : Dev) : List Broken :=
  broken (decide (32 < ((List.range 16).map d.tunChannels).sum)) 0x8B07 P.tundish_map
    (((List.range 16).find? (fun i => d.tunChannels i != 0)).getD 0)

/-- Whether a transmit port would be burst-follow in a projection (R130), with the measured lane rate of a port in Up. -/
def burstPlanned (d : Dev) (o : Nat) : Bool :=
  let l := d.entriesOn.filter (fun x => bit x.2.2 o)
  match l with
  | [] => false
  | x :: _ =>
    let rx := seSrc x.2.1
    let r := if (d.rxp rx).state == .up then (d.rxp rx).rate else d.cn P.rxp_rate_kbps rx
    let kb := d.cn P.txp_lane_kbps o
    l.all (fun y => seKind y.2.1 == 0 && seSrc y.2.1 == rx) && d.rxDsi rx == d.txDsi o && d.cn P.rxp_lanes rx == d.cn P.txp_lanes o &&
      decide (r * 1000 ≤ kb * 1005) && decide (kb * 995 ≤ r * 1000)

/-- Whether embedded audio fits a source-1 port's raster (R322). `p`: the pixel clock. -/
def audioFits (d : Dev) (i o p : Nat) : Bool :=
  let c := d.cn P.eaud_ctrl i
  let ch := d.eaudC i
  let maxF := bits c 48 7
  let rate := codeRate (bits c 32 4)
  let v := d.liveView
  let hT := v.hTotal o
  let vT := v.vTotal o
  let lr := d.cn P.txp_lanes o * d.cn P.txp_lane_ratio o
  let b16 := ((d.drives o).map d.bpp16).getD 0
  let need := ceilDiv (d.cn P.tg_h_active o * b16) 128 + 6 + (if bit (d.cn P.txp_lp_ctrl o) 2 then 8 else 0) + 22 + maxF * ch * sampleSize (bits c 28 2)
  if bit c 36 then
    decide (5 * rate * hT * vT ≤ 4 * (vT - d.cn P.tg_v_active o) * maxF * p) && decide (5 * rate * hT * vT ≤ 4 * p * eaudCap ch)
  else
    decide (32000000000 * need + 600 * lr * p ≤ lr * hT * 1000000000) && decide (5 * rate * hT ≤ 4 * p * maxF)

/-- The rules of an inserter (R318, R321, R322). -/
def eaudRules (d : Dev) (pk : List Nat) (i : Nat) : List Broken :=
  let c := d.cn P.eaud_ctrl i
  let o := bits c 20 4
  let map := mapAddrs (d.cb P.eaud_map i)
  let ok := map.all (addrOk d)
  let clash := (List.range 8).any (fun k => let e := d.cn P.eaud_ctrl k
    k != i && bits e 0 2 == 2 && bits e 20 4 == o && bits e 16 4 == bits c 16 4)
  if d.eaudMode i != 2 then []
  else
    broken (d.txDsi o || (d.cn P.txp_source o == 2 && (burstPlanned d o || bit c 36))) 0x8B09 P.eaud_ctrl i ++
    broken ((d.cb P.eaud_map i).length != 2 * d.eaudC i) 0x8B09 P.eaud_map i ++
    broken (!ok) 0x8B05 P.eaud_map i ++
    broken (ok && !inDomain d (d.mapDomain map) map) 0x8B06 P.eaud_map i ++
    broken clash 0x8504 P.eaud_ctrl i ++
    broken (!d.txDsi o && decide (3 < bits c 16 4) && !bit (d.cn P.txp_protocol o) 2) 0x8505 P.eaud_ctrl i ++
    broken (!d.txDsi o && d.cn P.txp_source o == 1 && !audioFits d i o (pk.getD o 0)) 0x8B0A P.eaud_ctrl i

/-! ## Control, keys, pair, power (R44, R61, R329, R380, R451, R453) -/

/-- Whether an IPv4 address is unicast under a prefix length (R44). -/
def unicast (a prefixLen : Nat) : Bool :=
  let host := 2 ^ (32 - prefixLen)
  let top := a / 2 ^ 24
  decide (1 ≤ top) && decide (top ≤ 223) && top != 127 && a % host != 0 && a % host != host - 1

/-- The failure of a referenced key slot (R380). -/
def keyRef (d : Dev) (slot typ cls id : Nat) : List Broken :=
  let s := d.keySlot slot
  if !s.ready then [⟨0x8D0A, id, 0⟩] else broken (!(s.typ == typ && s.cls == cls)) 0x8D03 id 0

/-- The scene of an expiry entry belongs to the mould concerned (R61). -/
def expiryScene (d : Dev) (e : Bytes) : Bool :=
  let m := if rd e 0 1 == kMould then some (rd e 1 1) else if rd e 0 1 == kTx then d.drives (rd e 1 1) else none
  rd e 2 1 != 1 || rd e 3 1 == 0xFF || (match m with | some m => d.unleasedNames m (rd e 3 1) | none => false)

/-- The rules of the control block and the keys it names. -/
def ctlRules (d : Dev) : List Broken :=
  let pre := d.cn P.ctl_ipv4_prefix 0
  let addr (id : Nat) : List Broken := broken (d.cn id 0 != 0 && !unicast (d.cn id 0) pre) 0x8231 id 0
  addr P.ctl_ipv4_addr0 ++ addr P.ctl_ipv4_addr1 ++
  ((records 16 (d.cb P.ctl_partner_table 0)).flatMap (fun (e : Bytes) => keyRef d (rd e 8 1) 3 3 P.ctl_partner_table)).take 1 ++
  (if d.cn P.ctl_anchor_slot 0 == 0xFF then [] else keyRef d (d.cn P.ctl_anchor_slot 0) 5 1 P.ctl_anchor_slot) ++
  (if d.cn P.key_pair_slot 0 == 0xFF then [] else keyRef d (d.cn P.key_pair_slot 0) 3 3 P.key_pair_slot) ++
  broken (!(records 4 (d.cb P.ctl_expiry_table 0)).all (expiryScene d)) 0x8215 P.ctl_expiry_table 0

/-- The rules of the device, the Morcel link's cupola and GPIO. -/
def deviceRules (d : Dev) : List Broken :=
  let warn := d.cn P.dev_therm_warn_c 0
  let shed := d.cn P.dev_therm_shed_c 0
  let latch := d.cn P.dev_therm_latch_c 0
  let hyst := d.cn P.dev_therm_hyst_c 0
  let k := d.cn P.pair_mor_cupola 0
  broken (!(decide (warn + hyst < shed) && decide (shed + hyst < latch))) 0x8103 P.dev_therm_shed_c 0 ++
  broken (d.cn P.pair_mor_enable 0 == 1 && !(d.planOn k && d.planN k == 330)) 0x8C20 P.pair_mor_cupola 0 ++
  (List.range 32).flatMap (fun i =>
    let f := d.cn P.gpio_func i
    broken (decide (4 ≤ i) && decide (3 ≤ f) && decide (f ≤ 7)) 0x8104 P.gpio_func i ++
    broken ((f == 9 || f == 10) && decide (d.nTx ≤ bits (d.cn P.gpio_ctrl i) 4 4)) 0x8213 P.gpio_ctrl i)

/-- The rules of chapters 3 and 13 to 20. -/
def clockRules (d : Dev) (pk : List Nat) : List Broken :=
  (List.range 20).flatMap (ladleRules d) ++ (List.range 6).flatMap (clkoutRules d) ++ (List.range 8).flatMap (fsyncRules d pk) ++
  (List.range 12).flatMap (sapRules d) ++ (List.range 4).flatMap (pdmRules d) ++ (List.range 16).flatMap (tunRules d) ++ tunTotal d ++
  (List.range 8).flatMap (eaudRules d pk) ++ ctlRules d ++ deviceRules d

end Sys2Proof.Machine
end

