-- ==== Sys2Proof/Machine/Scanout.lean ====
section
/-!
DEFINITION. Timing generators and scan-out (chapter 11): the frame's events, the transfer at a latch line, reseats, idle refresh.
-/

namespace Sys2Proof.Machine

/-! ## Which values an output takes (R21, R89) -/

/-- Whether a parameter key belongs to output g: its generator, port and ladle, and the mould that drives it with its layers and
windows. A mould that leaves g for another generator takes its values there. -/
def Dev.keyOn (d : Dev) (g key : Nat) : Bool :=
  match coveredBy d.variant (key / 256) (key % 256) with
  | some (k, i) =>
    (k == kTx && i == g) ||
    ((k == kMould || k == kChk) &&
      (d.cn P.mould_output i == g || (d.cn P.mould_output i == 0xFF && d.ln P.mould_output i == g)))
  | none => false

/-- Whether a key of the dirty list is of output g, whichever mould drives it. -/
def Dev.keyTouches (d : Dev) (g key : Nat) : Bool :=
  match coveredBy d.variant (key / 256) (key % 256) with
  | some (k, i) =>
    (k == kTx && i == g) ||
    ((k == kMould || k == kChk) && (d.cn P.mould_output i == g || d.ln P.mould_output i == g))
  | none => false

/-- The committed raster values of the selected keys become live; a key nobody committed returns to its reset value. -/
def Dev.transfer (d : Dev) (p : Nat → Bool) : Dev :=
  let mine (kv : Nat × PVal) : Bool := rasterBound (kv.1 / 256) && p kv.1
  let kept : Store := d.par.live.filter (fun kv => !mine kv)
  let live : Store := (d.par.committed.filter mine).foldl (fun l kv => l.put kv.1 kv.2) kept
  { d with par := { d.par with live := live } }

/-- The `tg` and `txp` values of the scene shown stand over the committed ones of output g (R267). -/
def Dev.sceneValues (d : Dev) (g : Nat) : Dev :=
  let s := sceneRaster (d.rasterScene g) g
  let mine (k : Nat) : Bool := !(sceneRaster (some ⟨0, 0, 0, 0, [], 0, [(k, .num 0)]⟩) g).isEmpty
  let raster := s.filter (fun kv => rasterBound (kv.1 / 256))
  let heat := s.filter (fun kv => !rasterBound (kv.1 / 256))
  { d with par := { d.par with
      live := raster.foldl (fun l kv => l.put kv.1 kv.2) d.par.live
      overlay := heat.foldl (fun l kv => l.put kv.1 kv.2) (d.par.overlay.filter (fun kv => !mine kv.1)) } }

/-- A mould that leaves generator g for another is idle until that one restarts (R192). -/
def Dev.releaseMoulds (d : Dev) (g : Nat) : Dev :=
  (List.range 12).foldl (fun d m =>
    if d.ln P.mould_output m == g && d.cn P.mould_output m != g && d.cn P.mould_output m != 0xFF then
      (d.mouldIdle m).setL P.mould_output m (numVal 0xFF)
    else d) d

/-- Every shadow set of output g transfers (R237, R246). -/
def Dev.transferOutput (d : Dev) (g : Nat) : Dev := ((d.releaseMoulds g).transfer (d.keyOn g)).sceneValues g

/-- Raster values that no output waits for become live at the boundary: idle moulds, stopped outputs, standalone ladles, cupolas
without an output. -/
def Dev.transferIdle (d : Dev) : Dev :=
  let idleOut (g : Nat) : Bool := (d.tgen g).state == .stopped && !(d.tgen g).reseat
  let idle (key : Nat) : Bool :=
    match coveredBy d.variant (key / 256) (key % 256) with
    | some (k, i) =>
      if k == kTx then idleOut i
      else if k == kMould || k == kChk then
        let a := d.ln P.mould_output i
        let b := d.cn P.mould_output i
        (a == 0xFF || idleOut a) && (b == 0xFF || idleOut b)
      else if k == 0x07 then !(List.range d.nTx).any (fun g => d.ln P.ladle_cupola g == i && !idleOut g)
      else true
    | none => true
  let d := d.transfer idle
  { d with dirty := d.dirty.filter (fun x => !idle (x / 2)) }

/-! ## The latch line (R237, R154, R248) -/

/-- The keys the dirty list holds for output g: all of them, and the changed ones. -/
def Dev.dirtyOf (d : Dev) (g : Nat) : List Nat × List Nat :=
  let l := d.dirty.filter (fun x => d.keyTouches g (x / 2))
  (l.map (· / 2), (l.filter (fun x => x % 2 == 1)).map (· / 2))

/-- Whether a key is a parameter of layer k of mould m. -/
def layerKey (m k key : Nat) : Bool :=
  let id := key / 256
  key % 256 == layerInst m k && (if k < 3 then decide (0x0800 ≤ id ∧ id < 0x0900) else decide (0x0900 ≤ id ∧ id < 0x0A00))

/-- What the change of scene of a latch line does to the layers' policies (R206). -/
def Mould.sceneStep (x : Mould) (changed : Bool) : SceneStep :=
  if !changed then .none else if x.scene.isNone then .ends else if x.visible.isNone then .starts else .follows

/-- The mould's part of a latch line or restart point. `wrote`, `changed`: the keys that transfer; `scene`: the scene changed;
`touched`: a commit touched the mould. -/
def Dev.mouldLatch (d : Dev) (n : Now) (m : Nat) (latch reseat scene touched : Bool) (wrote changed alphas : List Nat) : Dev :=
  let was := (d.mould m).layers
  let onBefore := (d.mould m).on
  let step := (d.mould m).sceneStep scene
  let before (k : Nat) : Layer := was.getD k {}
  let d := layerCodes.foldl (fun d k => d.selectLayer n m k latch (reseat || wrote.any (layerKey m k)) step) d
  let v := d.mouldView m
  let d := d.onMould m (fun x => { x with on := v.layersOn m })
  let d := [0, 1, 2].foldl (fun d k => d.fadeStart m k (alphas.getD k 0) (v.num P.vl_alpha (layerInst m k))) d
  let common := changed.any (fun key => key == pkey P.mould_background m || key == pkey P.mould_zorder m)
  let moved := layerCodes.any (fun k => d.layerMoved m k (before k))
  let d := layerCodes.foldl (fun d k => d.unchangedStep m k (common || changed.any (layerKey m k))) d
  let d := d.ingotLatch n m onBefore
  let d := if touched then d.learnFails m else d
  let fading := [0, 1, 2].any (fun k => (d.layer m k).fade.isSome)
  if moved || scene || fading then d.tgChanged (v.num P.mould_output m) else d

/-- Whether the `tg.enable` that output g takes at its coming restart is 0. -/
def Dev.sceneStops (d : Dev) (g : Nat) : Bool :=
  match (sceneRaster (d.rasterScene g) g).look (pkey P.tg_enable g) with
  | some v => v.toNat == 0
  | none => d.par.committed.num P.tg_enable g == 0

/-- The transfer and the selections of output g (R237, R246): at a latch line, a test line that acts as one, or a restart point. A new pixel
clock waits for the heat boundary at a latch line, and is taken at once at a restart point (R244, R247). A mould that comes from another
output, or from none, shows its alphas at once. -/
def Dev.latchOutput (d : Dev) (n : Now) (g : Nat) (latch start : Bool) : Dev :=
  let (wrote, changed) := d.dirtyOf g
  let old := d.liveView.mouldOf g
  let alphas := match old with
    | some m => [0, 1, 2].map (fun k => (d.mouldView m).num P.vl_alpha (layerInst m k))
    | none => []
  let d := d.transferOutput g
  let d : Dev := { d with dirty := d.dirty.filter (fun x => !d.keyTouches g (x / 2)) }
  let d := if changed.isEmpty then d else d.tgChanged g
  let d := match d.liveView.mouldOf g with
    | none => d
    | some m =>
      let pour := (d.tgen g).next.toNat
      let d := (List.range 8).foldl (fun d w =>
        if changed.any (fun key => key % 256 == winInst m w && decide (0x0B00 ≤ key / 256 ∧ key / 256 < 0x0B03)) then d.winReset n m w pour
        else d) d
      let touched := wrote.any (fun key => coveredBy d.variant (key / 256) (key % 256) == some (kMould, m))
      let (d, scene, rs) := if latch || start then d.sceneLatch n m g touched else (d, false, false)
      let d := if rs && latch then d.onTg g (fun t => { t with reseat := true, stopping := t.stopping || d.sceneStops g }) else if rs then d.sceneValues g else d
      let alphas := if old == some m && !start then alphas
        else [0, 1, 2].map (fun k => (d.mouldView m).num P.vl_alpha (layerInst m k))
      let d := if start || old != some m then [0, 1, 2].foldl (fun d k => d.onLayer m k (fun l => { l with alpha := alphas.getD k 0 % 256, fade := none })) d else d
      d.mouldLatch n m latch (!latch) scene touched wrote changed alphas
  let hz := d.ln P.tg_pclk_hz g
  let l := d.ladle g
  if l.on && !l.dividing && d.ln P.txp_source g == 1 && l.target != hz then
    (if !latch then d.ladleSet g hz else if n.cycle == 0 then d.glideStart n g hz else d.onLadle g (fun l => { l with waiting := some hz }))
  else d

/-! ## The latch line's decisions (R29, R249) -/

/-- Whether idle refresh is off because the unit is mirrored (R251). -/
def Dev.idleOff (d : Dev) : Bool := d.pair.mirrored

/-- The idle decision of a latch line (R248, R249). -/
def Dev.idleLatch (d : Dev) (n : Now) (g : Nat) : Dev :=
  let l := d.ladle g
  let busy := (d.tgen g).changed || l.gliding.isSome || l.waiting.isSome
  let d := d.onTg g (fun t => { t with unchanged := if busy then 0 else min 65535 (t.unchanged + 1), changed := false })
  let t := d.tgen g
  let idle := d.cn P.tg_idle_pours g
  let go := idle != 0 && decide (idle ≤ t.unchanged) && !d.idleOff && !t.reseat && !t.stopping
  let d' := d.onTg g (fun t => { t with stretched := go, idleTold := go })
  if go && !t.idleTold then d'.raise n 0x0807 g (leBytes 2 (d.liveView.nIdle g)) else d'

/-- The lines of the frame in progress, once its latch line has made its decisions (R232, R237, R249): a stretched one has N_idle. -/
def Dev.frameTotal (d : Dev) (g : Nat) : Nat :=
  if (d.tgen g).stretched then d.liveView.nIdle g else d.frameLatch g + d.ln P.tg_v_fp g

/-- LATCH_LINE (R232, R237): once per frame, when its line has come. The lines sent are those before it; the latch line itself has the width in
force at its start. With a reseat pending the frame ends under the timing in force. The periodic deskew burst is counted in pours (R115). -/
def latchLine (x : DM) (n : Now) (g : Nat) : Dev :=
  let d := x.dev
  let t := d.tgen g
  if !(decide (g < d.nTx) && t.state == .running && !t.latched && d.atLine g n.abs (d.frameLatch g)) then d
  else
    let d := sendFrame x g
    let width := d.liveView.hTotal g
    let d := d.onTg g (fun t => { t with latched := true, latchAt := n.abs }.markStart n.abs (d.frameLatch g) (d.linePos g n.abs (d.frameLatch g)) width)
    let d := if t.reseat then d else d.latchOutput n g true false
    let d := if d.ln P.txp_source g == 1 then d.txFrameDeskew g else d
    let d := if t.reseat then d else d.idleLatch n g
    d.onTg g (fun t => { t with total := d.frameTotal g })

/-! ## Test lines (R250) -/

/-- A new complete slot in a LIVE layer's buffer, or data in a held slot (R250). -/
def Dev.layerNews (d : Dev) (t m : Nat) : Bool :=
  let v := d.mouldView m
  (v.layersOn m).any (fun k =>
    let l := d.layer m k
    let c := v.layer m k
    (c.sel == 0 && (d.newestSeq t c.handle).any (fun s => s != l.seq) && (l.shows == .source || l.shows == .ingot)) ||
      (l.hold.isSome && d.slotWritesOf m k != l.wrote))

/-- The cause of a pending change at a test line (R250). -/
def Dev.testCause (d : Dev) (at_ g : Nat) : Option Nat :=
  let t := d.tgen g
  if d.idleOff then some 5
  else if t.reseat || t.stopping then some 4
  else if !(d.dirtyOf g).1.isEmpty then some 1
  else match d.liveView.mouldOf g with
    | none => none
    | some m =>
      if d.layerNews at_ m then some 2
      else if d.sceneNext m != ((d.mould m).scene).bind d.scene || t.news == some 3 || (d.mould m).wins.any (fun w => w.owed || w.release.isSome && w.acting) then some 3
      else none

/-- TEST_LINE (R250): at the start of a line beyond `tg.v_fp` porch lines a pending change makes the line act as the latch line and end the
porch, so that the next line is the pour: 0x0808. -/
def testLine (d : Dev) (n : Now) (g : Nat) : Dev :=
  let t := d.tgen g
  let first := d.frameLatch g + d.ln P.tg_v_fp g
  if !(decide (g < d.nTx) && t.state == .running && t.stretched && d.atLine g n.abs first && !d.frameOver g n.abs) then d
  else match d.testCause n.abs g with
    | none => d
    | some c =>
      let line := (d.rasterAt g n.abs periodUnits).1
      let lines := line + 1 - d.frameLatch g
      let width := d.liveView.hTotal g
      let d := d.onTg g (fun t => { t with stretched := false, idleTold := false, unchanged := 0, news := none, total := line + 1 }.markStart
        n.abs line (d.linePos g n.abs line) width)
      let d := if c == 4 then d else d.latchOutput n g true false
      let d := d.onTg g (fun t => { t with unchanged := 0, changed := false })
      d.raise n 0x0808 g (leBytes 1 c ++ leBytes 1 0 ++ leBytes 2 lines)

/-! ## Pours (R28) -/

/-- The end of a frame of output g with mould m (R205, R261 to R265). -/
def Dev.frameEnd (d : Dev) (n : Now) (g m : Nat) : Dev :=
  let t := d.tgen g
  if !(d.mould m).composed then d
  else
    let d := d.reportsFor n g m t.pour.toNat (nowOf t.pourAt)
    let dig := d.checkDigest m
    let d := d.onMould m (fun x => { x with digest := dig, digestAt := n.abs, digestPour := t.pour.toNat })
    d.frameUnderruns m

/-- The ingot at a pour: the cache that goes is freed, and a dry ingot's frame is over (R227, R228). -/
def Dev.ingotPour (d : Dev) (m : Nat) : Dev :=
  let g := (d.mould m).ingot
  let d := d.onIngot m (fun g => { g with dry := false })
  if g.state == .inUse then d
  else match g.old with
    | some o => ((d.startClearing o).onIngot m (fun g => { g with old := none })).ingotGranules m
    | none => d

/-- What a layer's frame fetches in place, from a buffer of depth 1 (R156): the record of its lines as the frame begins. -/
def Dev.fetchNow (d : Dev) (m k : Nat) : Option Fetch :=
  let l := d.layer m k
  let c := (d.mouldView m).layer m k
  let pic := match l.shows with | .source => l.hold | .fallback => l.fb | _ => none
  match pic with
  | none => none
  | some (h, _) =>
    match d.buf h with
    | some b => if b.depth == 1 then some ⟨h, if l.shows == .source then c.src.y else 0, (b.slot 0).frames⟩ else none
    | none => none

/-- Whether the lines a frame fetched in place can be of two input frames (R156): its own lines, as they stood when it began and as they stand
now, name more than one. -/
def Dev.mixed (d : Dev) (m k : Nat) (f : Fetch) : Bool :=
  let h := ((d.mouldView m).layer m k).src.h
  let now := ((d.buf f.handle).map (fun b => (b.slot 0).frames)).getD []
  let lines := (f.frames.drop f.line).take h ++ (now.drop f.line).take h
  decide (2 ≤ (lines.filter (· != 0)).eraseDups.length)

/-- The tears of the frame that ends (R156): a layer counts that fetched in place, whose lines are of two input frames, and that met the second
while it fetched (`torn`, which the order of fetch and write decides). -/
def Dev.frameTears (d : Dev) (n : Now) (m : Nat) (torn : List Nat) : Dev :=
  layerCodes.foldl (fun d k =>
    match (d.layer m k).read with
    | some f => if has torn k && d.mixed m k f then tear d n (layerHolder m k) f.handle else d
    | none => d) d

/-- The mould's part of a pour (R194, R205, R207, R257, R260). `torn`: the layers that fetched lines of two input frames (R156). -/
def Dev.mouldPour (d : Dev) (n : Now) (m pour : Nat) (torn : List Nat) : Dev :=
  let q := d.quenched m
  let d := (d.frameTears n m torn).learnPour m
  let d := layerCodes.foldl (fun d k =>
    let d := if (d.layer m k).owed && (d.layer m k).shows != .off then
        (d.onLayer m k (fun l => { l with policy := true, owed := false })).selectLayer n m k false false .none
      else d
    let d := if k < 3 then d.fadeStep n m k else d
    if k < 3 && (d.layer m k).shows == .source then d.bumpField P.vl_stats (layerInst m k) 0 32 1 else d) d
  let d := ((List.range 8).foldl (fun d w => d.winPour n m w pour) d).winsFollow m
  let d := d.ingotPour m
  let d := layerCodes.foldl (fun d k => d.onLayer m k (fun l => { l with read := d.fetchNow m k })) (d.risersPour m)
  let d := d.onMould m (fun x => { x with
    composed := true, visible := x.scene, shown := if x.scene.isSome then x.shown + 1 else 0 })
  if d.quenched m != q then d.tgChanged ((d.mouldView m).num P.mould_output m) else d

/-- A frame starts (R28, R232), `pos` units into line 0, with the vertical widths in force from this pour (R237), and its frame start is sent (R111). -/
def Dev.frameStart (d : Dev) (n : Now) (g pos : Nat) (torn : List Nat) : Dev :=
  let p := (d.tgen g).next
  let v := d.liveView
  let d := d.onTg g (fun t => { t with
    state := .running, pour := p, started := true, latched := false, stretched := false, pourAt := n.abs, fresh := false
    head := v.num P.tg_v_sync g + v.num P.tg_v_bp g, total := v.vTotal g }.markStart n.abs 0 pos (v.hTotal g))
  let d := d.sendStart g
  let d : Dev := { d with pwr := { d.pwr with firstPour := some (d.pwr.firstPour.getD n.abs) } }
  match d.liveView.mouldOf g with
  | some m => d.mouldPour n m p.toNat torn
  | none => d

/-- POUR (R28): after the last line of a frame the next begins; a pending reseat or stop takes its place (R234, R246). -/
def pour (d : Dev) (n : Now) (g : Nat) (torn : List Nat) : Dev :=
  let t := d.tgen g
  if !(decide (g < d.nTx) && t.state == .running && d.frameOver g n.abs && !t.reseat && !t.stopping) then d
  else
    let d := d.sendPorch g
    let d := match d.liveView.mouldOf g with
      | some m => d.frameEnd n g m
      | none => d
    d.frameStart n g (d.linePos g n.abs t.total) torn

/-! ## Reseats (R234, R246, R247) -/

/-- The value a `tg`, `txp` or `ladle` parameter takes at the coming restart: the scene's or the committed one. -/
def Dev.comingVal (d : Dev) (id g : Nat) : Nat :=
  match (sceneRaster (d.rasterScene g) g).look (pkey id g) with
  | some v => v.toNat
  | none => d.par.committed.num id g

/-- The clock of output g is set for what follows the hold (R246): pixel clock, divider and cupola; a cupola whose divider changes
relocks. -/
def Dev.setClock (d : Dev) (n : Now) (g : Nat) : Dev :=
  let clock (key : Nat) : Bool :=
    let id := key / 256
    key % 256 == g && (id == P.tg_pclk_hz || id == P.tg_enable || id == P.txp_source || id == P.txp_lane_kbps || decide (0x0C40 ≤ id ∧ id < 0x0C60))
  let d := (d.transfer clock).sceneValues g
  let k := d.ln P.ladle_cupola g
  let d := d.transfer (fun key => key == pkey P.cupola_n k)
  let relock := k != 0 && (d.cup k).n != d.cupN k && (d.cup k).state != .off
  let d := d.cupRelock n k
  let d := d.onTg g (fun t => { t with relocked := t.relocked || relock })
  let d := d.ladleSet g (d.ladleWant g)
  d.profileFollow n g

/-- Output g enters the hold (R234, R246): stop state for `tg.reseat_hold_us`. -/
def Dev.enterHold (d : Dev) (n : Now) (g : Nat) (starting : Bool) : Dev :=
  let us := d.cn P.tg_reseat_hold_us g
  let d := d.setClock n g
  let d := d.onTg g (fun t =>
    let t : Tg := { t with
      state := .hold, holdEnd := n.abs + us * 800, starting := starting, stretched := false, idleTold := false, unchanged := 0 }
    match t.follow with
    | some (at_, p, num, den) =>
      let k := ceilDiv ((n.abs + us * 800 - at_) * den) (max 1 num)
      { t with holdEnd := at_ + k * num / max 1 den, pour := BitVec.ofNat 32 (p + k + 2 ^ 32 - 1), started := true, follow := none }
    | none => t)
  let st := (d.txp g).state
  let d := if st == .run || st == .deskew then d.txEnter n g (if d.ln P.txp_source g == 0 then .stop else .hold)
    else if st == .ulps && d.cn P.txp_enable g == 1 then d.txEnter n g .wake
    else d
  if starting then d
  else d.raise n 0x0802 g (leBytes 2 us ++ leBytes 2 0 ++ leBytes 4 (d.tgen g).pour.toNat)

/-- A reseat of output g becomes effective (R234, R246, R247): a running frame goes on to its end; a generator that has none starts
its hold at once; a reseat in a hold joins it; an output with nothing to hold takes its values at once. -/
def Dev.reseat (d : Dev) (n : Now) (g : Nat) : Dev :=
  let on := d.comingVal P.tg_enable g == 1 && !(d.tgen g).shed
  match (d.tgen g).state with
  | .running => d.onTg g (fun t => { t with reseat := true, stopping := t.stopping || !on })
  | .hold =>
    let d := d.setClock n g
    d.onTg g (fun t => { t with reseat := true, stopping := !on })
  | .stopped =>
    if on then (d.onTg g (fun t => { t with reseat := true, stopping := false })).enterHold n g true
    else if (d.txp g).state == .run && d.ln P.txp_source g == 2 then d.onTg g (fun t => { t with reseat := true })
    else d

/-- The mould's part of a hold: nothing is fetched, results are 4, captures go (R246, R256, R258). -/
def Dev.holdMould (d : Dev) (n : Now) (g : Nat) : Dev :=
  match d.liveView.mouldOf g with
  | some m => (((d.frameEnd n g m).winsIdle m).dropCaptures m).onMould m (fun x => { x with composed := false })
  | none => d

/-- Whether a reseating output has come to t_e (R114, R246): a running frame's last line is over; a source-2 port's forwarded frame has ended. -/
def Dev.holdReady (d : Dev) (n : Now) (g : Nat) : Bool :=
  ((d.tgen g).state != .running || d.frameOver g n.abs) && !(d.ln P.txp_source g == 2 && d.txBusy g)

/-- RESEAT_HOLD_START (R246): t_e of a reseating output that goes on. -/
def reseatHoldStart (d : Dev) (n : Now) (g : Nat) : Dev :=
  let t := d.tgen g
  if !(decide (g < d.nTx) && t.reseat && !t.stopping && t.state != .hold && d.holdReady n g) then d
  else
    let d := if t.state == .running then d.sendPorch g else d
    (d.holdMould n g).enterHold n g false

/-- The fresh pour of a restart (R28, R246): 0x0801 after a start, 0x0804 after a reseat. Its line 1 carries the PPS (R247). -/
def Dev.freshPour (d : Dev) (n : Now) (g : Nat) : Dev :=
  let t := d.tgen g
  let p := t.next
  let d := if t.starting then d.raise n 0x0801 g (leBytes 1 1 ++ leBytes 1 0 ++ leBytes 4 p.toNat)
    else d.raise n 0x0804 g (leBytes 4 p.toNat ++ leBytes 1 (b2n t.relocked))
  (d.onTg g (fun t => { t with relocked := false, starting := false, pps := some 1 })).frameStart n g 0 []

/-- The port of a restarting output starts to send: through the initial deskew burst where R114 requires it. A port whose generator does not
run has no source and enters Stop (R15, R234). -/
def Dev.portRestart (d : Dev) (n : Now) (g : Nat) : Dev :=
  let st := (d.txp g).state
  if d.cn P.txp_enable g == 1 && (st == .hold || st == .stop) && d.txSource g then d.txStart n g
  else if st == .hold then d.txEnter n g .stop
  else d

/-- A generator has stopped (R234): 0x0801; its mould fetches nothing, its ladle rests. -/
def Dev.stopped (d : Dev) (n : Now) (g : Nat) : Dev :=
  let d := match d.liveView.mouldOf g with | some m => d.mouldIdle m | none => d
  let p := (d.tgen g).pour.toNat
  let d := d.onTg g (fun t => { t with
    state := .stopped, reseat := false, stopping := false, stretched := false, latched := false, fresh := false, starting := false
    relocked := false, idleTold := false, unchanged := 0 })
  let d := if d.ln P.txp_source g == 2 then d else d.ladleSet g 0
  d.raise n 0x0801 g (leBytes 1 0 ++ leBytes 1 0 ++ leBytes 4 p)

/-- RESEAT_RESTART (R246): the hold is over; every shadow set transfers, the selections are made, and the fresh frame starts, after the
deskew burst if one is sent. -/
def reseatRestart (d : Dev) (n : Now) (g : Nat) : Dev :=
  let t := d.tgen g
  let c := (d.cup (d.ln P.ladle_cupola g)).state
  let settled : Bool := c == .locked || c == .flywheel || c == .holdover
  if !(decide (g < d.nTx) && t.state == .hold && !t.fresh && decide (t.holdEnd ≤ n.abs) && settled) then d
  else
    let d := d.onTg g (fun t => { t with reseat := false, stopping := false, state := .running, latched := true })
    let d := d.latchOutput n g false t.starting
    if d.ln P.tg_enable g == 1 && !t.shed then
      let d := d.portRestart n g
      if (d.txp g).state == .deskew then d.onTg g (fun t => { t with state := .hold, fresh := true }) else d.freshPour n g
    else
      let d := (d.onTg g (fun t => { t with state := .stopped })).stopped n g
      d.portRestart n g

/-- TX_DESKEW_DONE (R114): the burst is sent; Run, and the fresh pour where one waits (R246). -/
def deskewDone (d : Dev) (n : Now) (g : Nat) : Dev :=
  let burst := (d.txp g).state == .deskew
  let d := txDeskewDone d n g
  if burst && (d.tgen g).fresh then d.freshPour n g else d

/-- TG_STOP (R234): a generator that is to stop ends after the last line of its frame, in a hold at once: 0x0801; its port enters Stop and its
mould fetches nothing. -/
def tgStop (d : Dev) (n : Now) (g : Nat) : Dev :=
  let t := d.tgen g
  if !(decide (g < d.nTx) && t.stopping && t.state != .stopped && (t.state == .hold || d.frameOver g n.abs)) then d
  else
    let d := if t.state == .running then d.sendPorch g else d
    let d := d.holdMould n g
    let old := d.liveView.mouldOf g
    let d := if t.shed then d else d.transferOutput g
    let d : Dev := { d with dirty := d.dirty.filter (fun x => t.shed || !d.keyTouches g (x / 2)) }
    let d := match old with | some m => d.mouldIdle m | none => d
    let d := d.stopped n g
    let d := if (d.txp g).state == .hold then d.txEnter n g .stop else d
    d.txFollow n g

/-- `tg.status` (Table 11.7). -/
def Dev.tgStatus (d : Dev) (g t : Nat) : Nat :=
  let x := d.tgen g
  let st := match x.state with
    | .stopped => 0
    | .hold => 2
    | .running => if x.stretched then 3 else if (d.ladle g).gliding.isSome then 4 else 1
  let reached := d.cn P.tg_idle_pours g != 0 && decide (d.cn P.tg_idle_pours g ≤ x.unchanged)
  x.pour.toNat + d.lineOf g t * 2 ^ 32 + st * 2 ^ 48 + b2n reached * 2 ^ 51 + b2n d.idleOff * 2 ^ 52

/-- `vl.status` (Table 9.6). -/
def Dev.vlStatus (d : Dev) (i : Nat) : Nat :=
  let m := i / 3
  let l := d.layer m (i % 3)
  let v := d.mouldView m
  if l.shows == .off then 0
  else (v.taps d m (i % 3)).getD 0 + l.shows.code * 8 + b2n l.clamp.isSome * 64 + b2n l.fade.isSome * 128 + l.alpha * 256 +
    sat 8 l.run * 65536

/-- `gl.status` (Table 10.8): the counts since boot stand in its kept value. -/
def Dev.glStatus (d : Dev) (i : Nat) : Nat :=
  let l := d.layer (i / 5) (i % 5 + 3)
  l.shows.code + b2n l.clamp.isSome * 8 + sat 8 l.run * 256 + l.unchanged * 65536 + d.sn P.gl_status i / 2 ^ 32 * 2 ^ 32

/-- `mould.status` (Table 9.5). -/
def Dev.mouldStatus (d : Dev) (m : Nat) : Nat :=
  let v := d.mouldView m
  let g := v.num P.mould_output m
  let on := maskOf (layerCodes.filter (fun k => v.layerOn m k))
  (if g == 0xFF then 31 else g % 32) + b2n (g != 0xFF && (d.tgen g).state == .running) * 256 +
    b2n ((d.mould m).ingot.state == .inUse) * 512 + on * 65536 + (d.mould m).underLast * 2 ^ 24

/-- `mould.flask_status` (Table 9.5). -/
def Dev.flaskStatus (d : Dev) (m : Nat) : Nat :=
  let v := d.mouldView m
  let f := v.flaskSum m
  let r := v.riserSum m
  f + (192 - f) * 256 + r * 65536 + (96 - r) * 2 ^ 24

/-- `mould.fetch_rate` (R209): F × B in force, in MB/s, at the highest clock of a glide that waits or runs (R202). -/
def Dev.mouldRate (d : Dev) (m : Nat) : Nat :=
  let v := d.mouldView m
  let g := v.num P.mould_output m
  if g == 0xFF then 0 else v.mouldDemand d m (max (max (d.ln P.tg_pclk_hz g) (d.outHz g)) (d.ladle g).target) / 1000000

/-- `mould.ingot_status` (Table 9.5). -/
def Dev.ingotStatus (d : Dev) (m h : Nat) : Nat :=
  let g := (d.mould m).ingot
  let used := g.state == .inUse
  let reb := (g.rebuilds.filter (fun x => decide (h < x + 8000))).length
  (if used then maskOf (g.set.map (· - 3)) else 0) + sat 8 reb * 256 + (if used then sat 16 (ceilDiv (ingotSize g.box) 1024) else 0) * 65536

/-! ## FSYNC (R294) -/

/-- Whether a pulse of source 2 begins `c` cycles after an anchor boundary: pulse k of 0 to M − 1. -/
def heatPulse (nHeats m pos c : Nat) : Bool :=
  (List.range m).any (fun k => k * nHeats * heatCycles / m + pos == c)

/-- Whether an FSYNC output's schedule has a pulse now (R294): of source 1 within 2 core cycles after the start of its line. -/
def Dev.fsyncDue (d : Dev) (n : Now) (i : Nat) : Bool :=
  let src := d.cn P.fsync_source i
  let per := d.cn P.fsync_period i
  let pos := d.cn P.fsync_position i
  match bits src 0 2 with
  | 1 =>
    let g := bits src 4 4
    per % 256 != 0 && (d.tgen g).pour.toNat % (per % 256) == 0 && d.lineStarted g n.abs pos 2
  | 2 =>
    let k := bits per 0 16
    let m := bits per 16 8
    if k == 0 || m == 0 then false
    else
      let c := n.abs - n.heat / k * k * heatCycles
      heatPulse k m pos c || heatPulse k m pos (c + k * heatCycles)
  | _ => false

/-- FSYNC_PULSE (R294): the output begins a pulse once the last one has ended; one timed by a generator takes its V sync at the level `tg.polarity` gives (R235). -/
def fsyncPulse (d : Dev) (n : Now) (i : Nat) : Dev :=
  let src := d.cn P.fsync_source i
  let vsync := if bits src 0 2 == 1 then some (bit (d.ln P.tg_polarity (bits src 4 4)) 1) else none
  let us := d.cn P.fsync_width_us i
  let ctrl := d.cn P.fsync_ctrl i
  if i < 8 && d.fsyncDue n i && !d.pinsHeld 0 && decide (d.clk.fsyncEnd.getD i 0 ≤ n.abs) then
    let d : Dev := { d with clk := { d.clk with fsyncEnd := modAt d.clk.fsyncEnd i (fun _ => n.abs + us * 800) } }
    (d.say (.fsync i us (bit ctrl 0) (bit ctrl 1) vsync)).bump P.fsync_status i
  else d

/-! ## Embedded audio (R321) -/

/-- Whether the raster of output o stands where inserter i may send (R321): in an active line, or with vertical placement in a line from the
latch line to the last line of V back porch; at most one packet a line. -/
def Dev.audioLine (d : Dev) (n : Now) (i o : Nat) : Bool :=
  let line := d.lineOf o n.abs
  let active := decide ((d.tgen o).head ≤ line) && decide (line < d.frameLatch o)
  (d.tgen o).state == .running && active != bit (d.cn P.eaud_ctrl i) 36 && (d.eaud i).sentIn != some ((d.tgen o).pour.toNat, line)

/-- AUDIO_PACKET_SEND (R321): the formed packet leaves on the inserter's transmit port at its opportunity: in a line of a source-1 port's
raster; on a source-2 port after the end of the packet that is being sent, its bytes counted with those offered to the port (R322). -/
def audioSend (d : Dev) (n : Now) (i : Nat) : Dev :=
  let o := bits (d.cn P.eaud_ctrl i) 20 4
  match (d.eaud i).formed with
  | none => d
  | some pl =>
    let p := d.audioPacket i pl
    if d.eaudMode i != 2 || (d.txp o).state != .run then d
    else if d.ln P.txp_source o == 1 then
      if d.audioLine n i o then (((d.hsEntry o).say (.packet o p)).audioSent i (some ((d.tgen o).pour.toNat, d.lineOf o n.abs))) else d
    else if d.outOpen o then
      let d := d.drainOut n.abs o
      let dur := wireCycles (packetBytes p) (d.rOut o)
      let put (l : List Queued) : List Queued :=
        moveUp n.abs (l.filter (fun q => decide (q.start ≤ n.abs)) ++ [⟨128, p, n.abs, n.abs + 1, n.abs + 1 + dur⟩] ++
          l.filter (fun q => decide (n.abs < q.start)))
      let d := d.onOut o (fun r => { r with fifo := put r.fifo })
      let e := ((List.range 128).find? (fun e => seOn (d.stream e).e && (d.stream e).goes o)).getD 0
      ((d.offer n e o (packetBytes p)).drainOut n.abs o).audioSent i none
    else d

end Sys2Proof.Machine
end

