-- ==== Sys2Proof/Machine/Entries.lean ====
section
/-!
DEFINITION. Parameter entries (Table 4.1), Open transactions: STAGE and ABORT (R75, R78 to R80, R92), and the projected configuration
with the outputs that a transaction touches and their class (R82, R90, R243, R492).
-/

namespace Sys2Proof.Machine

/-! ## Entries (Table 4.1) -/

/-- An entry as it stands in a message. -/
structure RawEntry where
  id    : Nat
  inst  : Nat
  width : Nat
  val   : PVal
  deriving DecidableEq, Repr

/-- One entry at the head of some bytes, and what follows it; `none` when the bytes end inside it or a blob is over 3,968 bytes. -/
def takeEntry (b : Bytes) : Option (RawEntry × Bytes) :=
  let id := rd b 0 2
  let inst := rd b 2 1
  let width := rd b 3 1
  if b.length < 8 then none
  else if width == 1 then
    if b.length < 12 then none else some (⟨id, inst, width, numVal (rd b 4 8)⟩, b.drop 12)
  else if width == 2 then
    let len := rd b 4 2
    let all := 8 + ceilDiv len 4 * 4
    if decide (3968 < len) || decide (b.length < all) then none else some (⟨id, inst, width, .blob (slice b 8 len)⟩, b.drop all)
  else some (⟨id, inst, width, numVal (rd b 4 4)⟩, b.drop 8)

/-- Exactly `n` entries that fill some bytes. -/
def takeEntries : Nat → Bytes → Option (List RawEntry)
  | 0, b => if b.isEmpty then some [] else none
  | n + 1, b =>
    match takeEntry b with
    | none => none
    | some (e, rest) => (takeEntries n rest).map (fun l => e :: l)

/-- The bytes of an entry (Table 4.1). -/
def entryBytes (id inst width : Nat) (v : PVal) : Bytes :=
  leBytes 2 id ++ leBytes 1 inst ++ leBytes 1 width ++
    (match width with
    | 1 => leBytes 8 v.toNat
    | 2 => leBytes 2 v.bytes.length ++ leBytes 2 0 ++ pad4 v.bytes
    | _ => leBytes 4 v.toNat)

/-- An entry as the device keeps it: its reserved bits are ignored (R6, R75). -/
def RawEntry.entry (e : RawEntry) : Entry := ⟨e.id, e.inst, maskValue e.id e.val⟩

/-- The syntax failure of an entry (R79). -/
def RawEntry.syntaxCode (v : Variant) (e : RawEntry) : Option Nat := Machine.syntaxCode v e.id e.inst e.width

/-! ## Open transactions (R78 to R80) -/

/-- Stage one entry: a later entry for the same ID and instance replaces the earlier one (R79). -/
def stageEntry : List Entry → Entry → List Entry
  | [], e => [e]
  | x :: l, e => if x.id == e.id && x.inst == e.inst then e :: l else x :: stageEntry l e

/-- The entries staged across all sessions (R79). -/
def Dev.stagedCount (d : Dev) : Nat := ((d.ctl.slots.flatMap (·.txns)).map (fun (t : Txn) => t.entries.length)).sum

/-- The transaction ID after `n` (R78): 0 is skipped. -/
def nextTxnId (n : Nat) : Nat := if n == 0xFFFFFFFF then 1 else n + 1

/-- An Open transaction of a session. -/
def Session.txnOf (s : Session) (id : Nat) : Option Txn := s.txns.find? (fun t => t.id == id)

/-- Remove an Open transaction. -/
def Session.dropTxn (s : Session) (id : Nat) : Session := { s with txns := s.txns.filter (fun t => t.id != id) }

/-- STAGE (R79): opens a transaction or adds to an Open one; it fails as a whole. -/
def handleStage (d : Dev) (m : Msg) : Dev :=
  let p := m.j.payload
  let slot := slotOf m.j.session
  let s := d.slot slot
  let id := rd p 0 4
  let k := rd p 4 2
  if decide (p.length < 8) || k == 0 || decide (256 < k) then d.reject m 0x8206
  else match takeEntries k (p.drop 8) with
    | none => d.reject m 0x8206
    | some l =>
      let old := if id == 0 then some (⟨s.nextTxn, []⟩ : Txn) else s.txnOf id
      match old with
      | none => d.reject m 0x8233
      | some t =>
        match l.findSome? (RawEntry.syntaxCode d.variant) with
        | some c => d.reject m c
        | none =>
          let es := (l.map RawEntry.entry).foldl stageEntry t.entries
          if 4096 < es.length then d.reject m 0x8234
          else if (id == 0 && decide (4 ≤ s.txns.length)) || decide (16384 < d.stagedCount - t.entries.length + es.length) then d.reject m 0x8235
          else
            let t' : Txn := { t with entries := es }
            let d := d.onSlot slot (fun s =>
              if id == 0 then { s with txns := s.txns ++ [t'], nextTxn := nextTxnId s.nextTxn }
              else { s with txns := s.txns.map (fun x => if x.id == id then t' else x) })
            d.reply m 0 (leBytes 4 t'.id ++ leBytes 4 es.length)

/-- ABORT (R92): discards an Open transaction, or cancels a Pending commit of the session whose
shadow sets are not being written. -/
def handleAbort (d : Dev) (n : Now) (m : Msg) : Dev :=
  let p := m.j.payload
  let slot := slotOf m.j.session
  let id := rd p 0 4
  if p.length != 4 then d.reject m 0x8206
  else match (d.slot slot).txnOf id with
    | some _ =>
      (d.onSlot slot (fun s => s.dropTxn id)).reply m 0 []
    | none =>
      match d.pendingCommits.find? (fun c => c.session == m.j.session && c.txn == id && !c.isSet) with
      | none => d.reject m 0x8233
      | some c =>
        if c.writing then d.reject m 0x8238
        else (d.cancelCommits n 0 (fun x => x.acc == c.acc) true).reply m 0 []

/-! ## The projected configuration (R82) -/

/-- A projected configuration: the parameter values and each output's highest pixel clock (R202). -/
structure Proj where
  store : Store
  pk    : List Nat

/-- Entries written into a store. -/
def Store.write (s : Store) (es : List Entry) : Store := es.foldl (fun s e => s.put (pkey e.id e.inst) e.val) s

/-- The configuration in force, with what waits for the next start (R9). -/
def Dev.inForce (d : Dev) : Store := d.par.bootPending.foldl (fun s kv => s.put kv.1 kv.2) d.par.committed

/-- The highest pixel clock of output g now: what is committed, live, reached and glided to. -/
def Dev.peakNow (d : Dev) (g : Nat) : Nat :=
  let c := d.par.committed.num P.tg_pclk_hz g
  if (d.tgen g).state == .stopped then c
  else max (max c (d.ln P.tg_pclk_hz g)) (max (d.ladleHz g) (d.ladle g).target)

/-- The projection before any Pending commit. -/
def Dev.projNow (d : Dev) : Proj := ⟨d.inForce, (List.range 16).map d.peakNow⟩

/-- The outputs that entries touch (R90). `a`, `b`: the configurations before and after them. -/
def touchedOutputs (a b : Dev) (es : List Entry) : List Nat :=
  let res := es.filterMap (fun e => coveredBy a.variant e.id e.inst)
  let hit (g : Nat) : Bool := res.any (fun r =>
    (r.1 == kTx && r.2 == g) ||
    ((r.1 == kMould || r.1 == kChk) && (a.cn P.mould_output r.2 == g || b.cn P.mould_output r.2 == g)))
  (List.range a.nTx).filter hit

/-- The entries whose value differs from the one in force (R492). -/
def changedEntries (a : Dev) (es : List Entry) : List Entry := es.filter (fun e => a.par.committed.val e.id e.inst != e.val)

/-- A definition whose term is reseat. -/
def reseatTerm (id : Nat) : Bool := match paramDef id with | some p => p.takes == .reseat | none => false

/-- Whether a size moves by more than an eighth (R243). -/
def offEighth (old new : Nat) : Bool := decide (old < 8 * (new - old + (old - new)))

/-- R117: the lane rate of a source-1 port crosses 1,500,000 kb/s upward, or downward with `txp.deskew` bit 8 clear. -/
def crossesDeskew (a b : Dev) (g : Nat) : Bool :=
  let ra := a.cn P.tg_pclk_hz g * a.cn P.txp_lane_ratio g / 4
  let rb := b.cn P.tg_pclk_hz g * b.cn P.txp_lane_ratio g / 4
  b.cn P.txp_source g == 1 &&
    ((decide (ra ≤ 1500000000) && decide (1500000000 < rb)) ||
     (decide (1500000000 < ra) && decide (rb ≤ 1500000000) && !bit (b.cn P.txp_deskew g) 8))

/-- Whether changed entries are reseat class on output g (R243, R117). -/
def reseatClass (a b : Dev) (g : Nat) (changed : List Entry) : Bool :=
  let ofOutput (e : Entry) : Bool := match coveredBy a.variant e.id e.inst with
    | some (k, i) => (k == kTx && i == g) || (k == kMould && (a.cn P.mould_output i == g || b.cn P.mould_output i == g)) ||
        (k == 0x07 && (a.cn P.ladle_cupola g == i || b.cn P.ladle_cupola g == i))
    | none => false
  let timing := changed.any (fun e => e.inst == g &&
    has [P.tg_h_fp, P.tg_h_sync, P.tg_h_bp, P.tg_v_fp, P.tg_v_sync, P.tg_v_bp, P.tg_pclk_hz] e.id)
  let va := a.liveView
  let vb := b.liveView
  changed.any (fun e => reseatTerm e.id && ofOutput e) ||
    (timing && (offEighth (va.hTotal g) (vb.hTotal g) || offEighth (va.vTotal g) (vb.vTotal g) ||
      offEighth (a.cn P.tg_pclk_hz g) (b.cn P.tg_pclk_hz g) || crossesDeskew a b g))

/-- The running outputs of a cupola whose divider changes (R279). -/
def cupolaOutputs (a : Dev) (changed : List Entry) : List Nat :=
  (List.range a.nTx).filter (fun g =>
    (a.tgen g).state != .stopped && changed.any (fun e => e.id == P.cupola_n && a.cn P.ladle_cupola g == e.inst))

/-- The outputs that a set of entries reseats (R10, R243): with one reseat-class change, every output touched that has a raster or a
source to hold. -/
def reseatOutputs (a b : Dev) (es : List Entry) : List Nat :=
  let changed := changedEntries a es
  let l := touchedOutputs a b es
  let l := l ++ (cupolaOutputs a changed).filter (fun g => !has l g)
  if l.any (fun g => reseatClass a b g changed) then
    l.filter (fun g => (a.tgen g).state != .stopped || b.cn P.tg_enable g == 1 || a.cn P.txp_source g != 0 || b.cn P.txp_source g != 0)
  else []

/-- The projection after entries (R82, R202): a reseat sets an output's clock, a slew passes through both. -/
def Dev.projAdd (d : Dev) (p : Proj) (es : List Entry) : Proj :=
  let store := p.store.write es
  let a := d.projected p.store
  let b := d.projected store
  let rs := reseatOutputs a b es
  ⟨store, (List.range 16).map (fun g =>
    let new := b.cn P.tg_pclk_hz g
    if has rs g then new else max (p.pk.getD g 0) new)⟩

/-- One commit into a list in the order of effective boundary, then of acceptance (R82). -/
def orderCommit (c : Commit) : List Commit → List Commit
  | [] => [c]
  | x :: l => if decide (c.eff < x.eff) || (c.eff == x.eff && decide (c.acc < x.acc)) then c :: x :: l else x :: orderCommit c l

/-- The Pending commits in the order of R82. -/
def Dev.pendingOrder (d : Dev) : List Commit := d.pendingCommits.foldl (fun l c => orderCommit c l) []

end Sys2Proof.Machine
end

