-- ==== Sys2Proof/Machine/Predict.lean ====
section
/-!
DEFINITION. The timing of an output as projected (R34, R88, R241): which latch line is the first at or after an instant, when the latch
line before a pour starts, which pour follows. A raster is followed from latch line to frame end in the units of Machine/Raster.lean, along the
ramp of its clock, with the widths in force at each line's start (R237), idle refresh (R249, R250) and the changes of Pending commits.
-/

namespace Sys2Proof.Machine

/-- A generator's raster: H_total, the lines before the active ones, the active ones, the front porch, and the pixel clock. -/
structure Raster where
  hTot : Nat
  head : Nat
  act  : Nat
  fp   : Nat
  hz   : Nat
  deriving DecidableEq, Repr, Inhabited

/-- The raster of output g in a configuration. -/
def View.raster (v : View) (g : Nat) : Raster :=
  ⟨v.hTotal g, v.num P.tg_v_sync g + v.num P.tg_v_bp g, v.num P.tg_v_active g, v.num P.tg_v_fp g, v.num P.tg_pclk_hz g⟩

/-- The units of one line. -/
def Raster.line (r : Raster) : Nat := max 1 r.hTot * periodUnits

/-- A point of the projected timing, at core cycle `at_`: the units left until the latch line of frame `k`, or, once `latched`, until its end.
`latch`: when that frame's latch line started, or the restart point before it. `pend`: a clock that the next heat boundary takes up. `tests`:
the test lines of a stretched frame. `count`, `busy`: the unchanged count, and whether the next latch line clears it. `idle`, `nIdle`: the idle
refresh settings, 0 when it is off. -/
structure Walk where
  k       : Nat
  latched : Bool
  at_     : Nat
  need    : Nat
  latch   : Nat
  r       : Raster
  ramp    : Ramp
  pend    : Option Nat := none
  tests   : Nat := 0
  count   : Nat := 0
  busy    : Bool := false
  idle    : Nat := 0
  nIdle   : Nat := 0
  deriving DecidableEq, Repr, Inhabited

/-- A change to come: its boundary, whether it reseats, the raster after it, the hold of a reseat. -/
structure Change where
  at_    : Nat
  reseat : Bool
  dest   : Raster
  hold   : Nat
  deriving DecidableEq, Repr, Inhabited

/-- What is asked: the frame with the first latch line at or after an instant, frame k, or the frame in progress at an instant. -/
inductive Goal where
  | latchFrom (t : Nat) | frame (k : Nat) | endAfter (t : Nat)
  deriving DecidableEq, Repr

/-! ## Instants -/

/-- The least cycle of a heat by which a ramp has given so many units, by halving; `step` is the greatest power of two tried. -/
def Ramp.cycleOf (r : Ramp) (units : Nat) : Nat → Nat → Nat
  | 0, lo => lo
  | fuel + 1, lo => if r.units (lo + 2 ^ fuel - 1) < units then r.cycleOf units fuel (lo + 2 ^ fuel) else r.cycleOf units fuel lo

/-- A ramp at a heat boundary, when a new goal waits for it (R244, R245). `slew`: the step of a glide that starts at a frequency. -/
def Walk.takeUp (slew : Nat → Nat) (w : Walk) : Walk :=
  match w.pend with
  | some hz => { w with ramp := ⟨w.ramp.hz, hz, slew w.ramp.hz⟩, pend := none }
  | none => w

/-- The walk goes on until it needs nothing: heat by heat along a ramp, at once where the clock is steady. What the last cycle gives too much
is returned. -/
def Walk.run (slew : Nat → Nat) : Nat → Walk → Walk × Nat
  | 0, w => let hz := max 1 w.ramp.goal
            ({ w with at_ := w.at_ + ceilDiv w.need hz, need := 0, ramp := ⟨hz, hz, 1⟩ }, ceilDiv w.need hz * hz - w.need)
  | fuel + 1, w =>
    if w.ramp.steady && w.pend.isNone then
      let hz := max 1 w.ramp.hz
      ({ w with at_ := w.at_ + ceilDiv w.need hz, need := 0 }, ceilDiv w.need hz * hz - w.need)
    else
      let c := w.at_ % heatCycles
      let had := w.ramp.units c
      let rest := w.ramp.units heatCycles - had
      if w.need ≤ rest then
        let c' := w.ramp.cycleOf (had + w.need) 17 0
        ({ w with at_ := w.at_ - c + c', need := 0 }, w.ramp.units c' - had - w.need)
      else Walk.run slew fuel (({ w with at_ := w.at_ - c + heatCycles, need := w.need - rest, ramp := w.ramp.next } : Walk).takeUp slew)

/-- The most heats of a glide followed one by one. -/
abbrev glideFuel : Nat := 16384

/-- When the walk's next latch line or frame end comes. -/
def Walk.next (slew : Nat → Nat) (w : Walk) : Walk × Nat := w.run slew glideFuel

/-! ## Goals and changes -/

/-- The instant a goal asks about. -/
def Goal.time : Goal → Option Nat
  | .latchFrom t => some t
  | .endAfter t => some t
  | .frame _ => none

/-- Whether a latch line of frame `k` that starts at an instant answers the goal. -/
def Goal.latched : Goal → Nat → Nat → Bool
  | .latchFrom t, _, e => decide (t ≤ e)
  | .frame j, k, _ => decide (j ≤ k)
  | .endAfter _, _, _ => false

/-- Whether the end of a frame at an instant answers the goal. -/
def Goal.ended : Goal → Nat → Bool
  | .endAfter t, e => decide (t < e)
  | _, _ => false

/-- A glide to a new clock waits for the heat boundary at or after an instant (R244). -/
def Walk.glideTo (slew : Nat → Nat) (w : Walk) (hz : Nat) : Walk :=
  if hz == w.ramp.goal && w.pend.isNone then w
  else
    let w := { w with pend := some hz, count := 0 }
    if w.at_ % heatCycles == 0 then w.takeUp slew else w

/-- A latch line of the frame, where a slew transfers if one is due (R237); `spare` units are gone already. -/
def Walk.atLatch (slew : Nat → Nat) (w : Walk) (spare : Nat) (c : Option Change) : Walk :=
  let old := w.r.line
  let gliding := !w.ramp.steady || w.pend.isSome
  let w := { w with
    latched := true, latch := w.at_, r := (c.map Change.dest).getD w.r, count := if w.busy || gliding || c.isSome then 0 else w.count + 1
    busy := false }
  let w := match c with | some x => w.glideTo slew x.dest.hz | none => w
  let stretched := w.idle != 0 && decide (w.idle ≤ w.count)
  let lines := if stretched then w.nIdle - w.r.head - w.r.act else w.r.fp
  { w with need := old + (lines - 1) * w.r.line - spare, tests := lines - w.r.fp }

/-- The first test line of a stretched frame at or after an instant, as the point where it starts (R250). -/
def Walk.testAt (w : Walk) (t : Nat) : Option Walk :=
  let hz := max 1 w.ramp.hz
  let left := min (w.need - (t - w.at_) * hz) (w.tests * w.r.line)
  let m := left / w.r.line
  if m == 0 then none
  else some { w with at_ := w.at_ + ceilDiv (w.need - m * w.r.line) hz, need := 0, tests := 0 }

/-- The frame that follows a frame's end. -/
def Walk.frame (w : Walk) (spare : Nat) : Walk :=
  { w with k := w.k + 1, latched := false, tests := 0, need := (w.r.head + w.r.act) * w.r.line - spare }

/-- The fresh frame of a reseat (R246). -/
def Walk.restart (w : Walk) (c : Change) : Walk :=
  let w := { w with r := c.dest, at_ := w.at_ + c.hold, ramp := ⟨c.dest.hz, c.dest.hz, 1⟩, pend := none, count := 0, busy := false }
  { (w.frame 0) with latch := w.at_ }

/-- Frames without a change are passed at one go: as many as end before the instant `t`, or before frame `j`. -/
def Walk.skip (w : Walk) (t : Option Nat) (j : Nat) : Walk :=
  if w.latched || !w.ramp.steady || w.pend.isSome || w.busy then w
  else
    let all := w.idle != 0 && decide (w.idle ≤ w.count + 1)
    let len := (if all then w.nIdle else w.r.head + w.r.act + w.r.fp) * w.r.line
    let hz := max 1 w.ramp.hz
    let n := match t with
      | some t => (t - w.at_) * hz / max 1 len - 1
      | none => j - w.k - 1
    let n := if w.idle == 0 || all then n else min n (w.idle - w.count - 2)
    { w with k := w.k + n, count := w.count + n, at_ := w.at_ + n * len / hz, need := w.need + n * len % hz }

/-- The earliest instant that a goal or the first change asks about. -/
def soonest (g : Goal) (cs : List Change) : Option Nat :=
  match g.time, cs with
  | some t, c :: _ => some (min t c.at_)
  | some t, [] => some t
  | none, c :: _ => some c.at_
  | none, [] => none

/-- A goal's frame, and when the values that precede its pour transfer: its latch line's start, or a restart point. -/
def Walk.find (slew : Nat → Nat) : Nat → Walk → List Change → Goal → Nat × Nat
  | 0, w, _, _ => (w.k, w.latch)
  | fuel + 1, w, cs, g =>
    if g.latched w.k 0 && w.latched then (w.k, w.latch)
    else
      let w := match g, cs with
        | .frame j, c :: _ => if j ≤ (w.skip (some c.at_) 0).k then w.skip none j else w.skip (some c.at_) 0
        | .frame j, [] => w.skip none j
        | g, cs => w.skip (soonest g cs) 0
      if !w.latched then
        let (w, spare) := w.next slew
        if g.latched w.k w.at_ then (w.k, w.at_)
        else match cs with
          | [] => Walk.find slew fuel (w.atLatch slew spare none) [] g
          | c :: cs =>
            if !c.reseat && decide (c.at_ ≤ w.at_) then Walk.find slew fuel (w.atLatch slew spare (some c)) cs g
            else Walk.find slew fuel (w.atLatch slew spare none) (c :: cs) g
      else
        match (soonest g cs).bind (fun t => if w.tests == 0 then none else w.testAt t) with
        | some x =>
          if g.latched x.k x.at_ then (x.k, x.at_)
          else
            let line := { x with need := x.r.line, count := 0 }
            match cs with
            | [] => Walk.find slew fuel line [] g
            | c :: cs =>
              if !c.reseat && decide (c.at_ ≤ x.at_) then Walk.find slew fuel (({ line with r := c.dest }).glideTo slew c.dest.hz) cs g
              else Walk.find slew fuel line (c :: cs) g
        | none =>
          let (w, spare) := w.next slew
          if g.ended w.at_ then (w.k, w.at_)
          else match cs with
            | [] => Walk.find slew fuel (w.frame spare) [] g
            | c :: cs =>
              if c.reseat && decide (c.at_ < w.at_) then
                let x := w.restart c
                if g == Goal.frame w.k then (w.k, x.latch) else Walk.find slew fuel x cs g
              else Walk.find slew fuel (w.frame spare) (c :: cs) g

/-- The most latch lines and frame ends followed one by one. -/
abbrev walkFuel : Nat := 4096

/-! ## Outputs -/

/-- The hold of a reseat of output g. -/
def Dev.holdCycles (d : Dev) (g : Nat) : Nat := d.cn P.tg_reseat_hold_us g * 800

/-- The changes that Pending commits bring to output g: reseats, and slews of its raster. -/
def Dev.outChanges (d : Dev) (g : Nat) : Store → List Commit → List Change
  | _, [] => []
  | s, c :: cs =>
    let s' := s.write c.entries
    let a := d.projected s
    let b := d.projected s'
    let rs := has (reseatOutputs a b c.entries) g
    let l := d.outChanges g s' cs
    let r := b.liveView.raster g
    if rs || r != a.liveView.raster g then ⟨c.eff * heatCycles, rs, r, b.holdCycles g⟩ :: l else l

/-- Where the running raster of output g stands: the units until its frame's latch line, or until its end. -/
def Dev.walkRaster (d : Dev) (n : Now) (g : Nat) : Walk :=
  let t := d.tgen g
  let r := d.liveView.raster g
  let p := d.rasterAt g n.abs 0
  let width := if p.1 == t.markLine then t.width * periodUnits else r.line
  let upTo := if t.latched then t.total else d.frameLatch g
  let idle := if d.idleOff then 0 else d.cn P.tg_idle_pours g
  { k := 0, latched := t.latched, at_ := n.abs, need := if p.1 < upTo then width - p.2 + (upTo - p.1 - 1) * r.line else 0
    latch := t.latchAt, r := r, ramp := d.ramp g, pend := (d.ladle g).waiting
    tests := if t.stretched then t.total - d.frameLatch g - r.fp else 0, count := t.unchanged, busy := t.changed
    idle := idle, nIdle := d.liveView.nIdle g }

/-- A raster that starts at an instant. -/
def walkFresh (at_ : Nat) (r : Raster) : Walk :=
  { k := 1, latched := false, at_ := at_, need := (r.head + r.act) * r.line, latch := at_, r := r, ramp := ⟨r.hz, r.hz, 1⟩ }

/-- Where output g stands: its raster, and a reseat or values that wait for its latch line. -/
def Dev.walkNow (d : Dev) (n : Now) (g : Nat) : Walk × List Change :=
  let t := d.tgen g
  let com := (d.projected d.inForce).liveView.raster g
  match t.state with
  | .running =>
    let w := d.walkRaster n g
    (w, if t.reseat then [⟨0, true, com, d.holdCycles g⟩] else if com != w.r then [⟨0, false, com, 0⟩] else [])
  | .hold => (walkFresh (max t.holdEnd n.abs) com, [])
  | .stopped => (walkFresh (n.abs + d.holdCycles g) com, [])

/-- The frame of output g that meets a goal, after the given Pending commits: frames from now, and its latch line's start. -/
def Dev.predict (d : Dev) (n : Now) (g : Nat) (cs : List Commit) (goal : Goal) : Nat × Nat :=
  let (w, l) := d.walkNow n g
  if goal == Goal.frame 0 && w.k == 1 then (0, w.latch)
  else Walk.find (d.slewHz g) walkFuel w (l ++ d.outChanges g d.inForce cs) goal

/-- The pour that follows frame k from now (R28). -/
def Dev.pourAfter (d : Dev) (g k : Nat) : Nat := ((d.tgen g).next.toNat + k) % 2 ^ 32

/-- The pour after the first latch line at or after heat boundary `eff` (R30, R241). A stopped output has its next pour. -/
def Dev.pourFrom (d : Dev) (n : Now) (g : Nat) (cs : List Commit) (eff : Nat) : Nat :=
  if (d.tgen g).state == .stopped then (d.tgen g).next.toNat
  else d.pourAfter g (d.predict n g cs (.latchFrom (eff * heatCycles))).1

/-- The fresh pour of a reseat effective at heat boundary `eff` (R246). -/
def Dev.freshFrom (d : Dev) (n : Now) (g : Nat) (cs : List Commit) (eff : Nat) : Nat :=
  if (d.tgen g).state == .running then d.pourAfter g (d.predict n g cs (.endAfter (eff * heatCycles))).1
  else (d.tgen g).next.toNat

/-- The boundary of a KIND 2 target (R88): the latest at or before the latch line that precedes the pour, or the restart point that does. -/
def Dev.pourBoundary (d : Dev) (n : Now) (g : Nat) (cs : List Commit) (target : Nat) : Nat :=
  let dist := (target + 2 ^ 32 - (d.tgen g).next.toNat) % 2 ^ 32
  (d.predict n g cs (.frame dist)).2 / heatCycles

end Sys2Proof.Machine
end

