-- ==== Sys2Proof/Machine/Txn.lean ====
section
/-!
DEFINITION. The consistency check (R81 to R84), commit targets (R34, R85, R88), acceptance (R90) and the replies of Table 4.5.
-/

namespace Sys2Proof.Machine

/-! ## The rules on projections (R81, R82) -/

/-- Stages 3 and 4 on a projected configuration. -/
def Dev.rulesOn (d : Dev) (p : Proj) : List Broken :=
  let x := d.projected p.store
  videoRules x p.pk ++ mouldsRules x p.pk ++ clockRules x p.pk

/-- Stages 3 and 4 after a set of entries, with the change of a cupola in use that they make (R279). -/
def Dev.rulesAfter (d : Dev) (p : Proj) (es : List Entry) : List Broken :=
  let q := d.projAdd p es
  d.rulesOn q ++ cupolaChange (d.projected p.store) (d.projected q.store)

/-- Stages 3 and 4 at the boundaries of some commits in their order, each given as its boundary and its entries, and the projections gone
through: a boundary's projection is that after the last commit of it. -/
def Dev.rulesLater (d : Dev) : Proj → List (Nat × List Entry) → List Broken
  | _, [] => []
  | p, c :: cs =>
    let q := d.projAdd p c.2
    let here := match cs with
      | c' :: _ => c'.1 != c.1
      | [] => true
    (if here then d.rulesAfter p c.2 else cupolaChange (d.projected p.store) (d.projected q.store)) ++ d.rulesLater q cs

/-- The projection after some commits. -/
def Dev.projAll (d : Dev) (p : Proj) (cs : List Commit) : Proj := cs.foldl (fun p c => d.projAdd p c.entries) p

/-- Whether a commit enters the projection ahead of one with boundary `eff` and acceptance number `acc` (R82). -/
def Commit.ahead (eff acc : Nat) (c : Commit) : Bool := decide (c.eff < eff) || (c.eff == eff && decide (c.acc < acc))

/-- The projection that a commit with boundary `eff` and acceptance number `acc` meets (R82). -/
def Dev.projBefore (d : Dev) (eff acc : Nat) (order : List Commit) : Proj := d.projAll d.projNow (order.filter (Commit.ahead eff acc))

/-- Every failure of stages 3 and 4 with some entries at boundary `eff` under acceptance number `acc` (R82): at that boundary and at those
of the commits that come after. -/
def Dev.projectionFails (d : Dev) (eff acc : Nat) (order : List Commit) (es : List Entry) : List Broken :=
  d.rulesLater (d.projBefore eff acc order)
    ((eff, es) :: (order.filter (fun c => !c.ahead eff acc)).map (fun c => (c.eff, c.entries)))

/-- The moulds that entries touch, with the first entry that does: by lease, or through the generator or port of their output. -/
def touchedMoulds (b : Dev) (es : List Entry) : List (Nat × Entry) :=
  let hit (m : Nat) (e : Entry) : Bool := match coveredBy b.variant e.id e.inst with
    | some (k, i) => ((k == kMould || k == kChk) && i == m) || (k == kTx && b.cn P.mould_output m == i)
    | none => false
  (List.range b.nMould).filterMap (fun m => (es.find? (hit m)).map (fun e => (m, e)))

/-- A commit that would make a fallback scene of a touched mould invalid (R271): 0x8909. -/
def Dev.sceneFails (d : Dev) (p : Proj) (es : List Entry) : List Broken :=
  let q := d.projAdd p es
  (touchedMoulds (d.projected q.store) es).flatMap (fun x =>
    (d.scenesOf x.1).flatMap (fun s =>
      let shown (r : Proj) : Proj := ⟨s.values.foldl (fun st kv => st.put kv.1 kv.2) r.store, r.pk⟩
      let before := d.rulesOn (shown p)
      broken ((d.rulesOn (shown q)).any (fun b => !before.any (· == b))) 0x8909 x.2.id x.2.inst))

/-! ## Stage 2: authority (R86, R87) -/

/-- Whether a mode accepts commits of a class (R87): the exception for a Maintainer is read as that of all three modes it follows (DEDUCED,
assumption 68). -/
def Mode.commits (m : Mode) (cls : Nat) : Bool :=
  match m with
  | .latched | .provisioning | .maintenance => cls == 3
  | .standby => false
  | _ => true

/-- The codes of the rules that hold, each once. -/
def allCodes (l : List (Bool × Nat)) : List Nat := ((l.filter (·.1)).map (·.2)).eraseDups

/-- What an entry lacks by class, lease and owner (R58, R86), every code (R81). `before`: a mould's output before the transaction. -/
def Dev.authority (d : Dev) (t slot cls : Nat) (before : Nat → Nat) (e : Entry) : List Nat :=
  let v := e.val.toNat
  let low := match governs d.variant e.id e.inst with
    | .lease _ _ => false
    | .maintainer => cls != 3
    | .safety => decide (cls < 2)
  let free := match governs d.variant e.id e.inst with
    | .lease k i => !d.holds t slot k i
    | _ => false
  allCodes [
    (low, 0x8205),
    (e.id == P.stream_dest && bits v 32 8 != 0 && cls != 3, 0x8205),
    (e.id == P.gpio_func && decide (3 ≤ v) && decide (v ≤ 7) && cls != 3, 0x8205),
    (free, 0x8214),
    ((namedSinks before e).any (fun r => !d.holds t slot r.1 r.2), 0x8214),
    (e.id == P.sprue_target && (match d.buf v with | some b => !(b.owner == slot || b.owner == 0xFF) | none => false), 0x8608)]

/-- What a write that acts at once needs (R172, R441, R465). -/
def Dev.actionCodes (d : Dev) (e : Entry) : List Nat :=
  let v := e.val.toNat
  allCodes [
    (e.id == P.cru_ecc_inject && d.pwr.mode != .maintenance, 0x8239),
    (e.id == P.flt_inject && d.pwr.mode != .maintenance, 0x8239),
    (e.id == P.flt_inject && !has [0, 1, 2, 3, 4, 5, 6, 7, 9, 10, 12, 13, 17] (bits v 0 5), 0x8F01),
    (e.id == P.dev_script_run && v != 0xFF && !d.pwr.scripts.any (fun s => s.no == v && bit s.mask 2), 0x8106)]

/-- Stage 2 for an entry: every code (R81), that of the mode first so that R87's code is the STATUS. -/
def Dev.stage2 (d : Dev) (t slot cls : Nat) (before : Nat → Nat) (e : Entry) : List Nat :=
  ((if d.pwr.mode.commits cls then [] else [0x8239]) ++ d.authority t slot cls before e ++ d.actionCodes e).eraseDups

/-! ## Targets (R34, R85, R88, R359) -/

/-- A commit's boundaries: the one its target asks for and the one it is planned for; whether a KIND 2 is handled as KIND 0. -/
structure Plan where
  planned  : Nat
  eff      : Nat
  degraded : Bool
  deriving DecidableEq, Repr, Inhabited

/-- A malformed target (R85). -/
def Dev.targetCode (d : Dev) (kind output : Nat) : Option Nat :=
  if 2 < kind then some 0x8237
  else if kind != 2 then none
  else if 15 < output then some 0x8237
  else if d.nTx ≤ output then some 0x8213
  else if (d.tgen output).state == .stopped then some 0x8237
  else none

/-- Whether a pour is in the future (R28). -/
def Dev.pourAhead (d : Dev) (g pour : Nat) : Bool :=
  let dist := (pour + 2 ^ 32 - (d.tgen g).next.toNat) % 2 ^ 32
  decide (dist < 2 ^ 31 - 1)

/-- The first boundary at which a KIND 0 commit whose check completes now can be effective (R88, R359). `slow`: its shadow sets are
not finished in this message window. -/
def Dev.earliest (d : Dev) (n : Now) (slow : Bool) : Nat := if slow || d.pair.mirrored then n.heat + 2 else n.heat + 1

/-- The boundary of a commit with a target boundary `b` (R88, R32, R359): shadow sets are written in the hard window of the heat
before it. -/
def Plan.at (n : Now) (b : Nat) : Plan := ⟨b, max b (n.heat + 2), false⟩

/-- The boundary of a commit (R88), or the rejection of its target (R34). -/
def Dev.plan (d : Dev) (n : Now) (kind output target : Nat) (slow : Bool) : Except Nat Plan :=
  let e := d.earliest n slow
  let horizon := d.cn P.time_horizon_heats 0
  if kind == 0 then .ok ⟨e, e, false⟩
  else if kind == 1 then
    let b := target % 2 ^ 48
    if b ≤ n.heat then .error 0x8301
    else if n.heat + horizon < b then .error 0x8302
    else .ok (Plan.at n b)
  else
    let p := target % 2 ^ 32
    if !d.pourAhead output p then .error 0x8301
    else
      let b := d.pourBoundary n output d.pendingOrder p
      if n.heat + horizon < b then .error 0x8302
      else if b ≤ n.heat then .ok ⟨b, e, true⟩
      else .ok (Plan.at n b)

/-! ## The result of a check -/

/-- What a check finds: the STATUS, its boundaries, failures, adjustments, and the outputs with their expected and predicted pours and
whether they are reseated. -/
structure CheckResult where
  status  : Nat
  plan    : Plan
  fails   : List Failure
  adjusts : List Adjust
  outs    : List (Nat × Nat × Nat × Bool)
  deriving DecidableEq, Repr

/-- The entry a failure is recorded against: its own, else the first of the same resource, else the first of the same group. -/
def failIndex (v : Variant) (es : List Entry) (id inst : Nat) : Nat :=
  let own (e : Entry) : Bool := e.id == id && e.inst == inst
  let same (e : Entry) : Bool := (coveredBy v id inst).isSome && coveredBy v e.id e.inst == coveredBy v id inst
  let base (i : Nat) : Option Nat := (groupOf i).map (·.base)
  (((es.findIdx? own).or (es.findIdx? same)).or (es.findIdx? (fun e => base e.id == base id))).getD 0xFFFF

/-- Whether a failure stands at something the transaction writes: the parameter, or the block. -/
def Broken.touched (v : Variant) (es : List Entry) (b : Broken) : Bool :=
  es.any (fun e => (e.id == b.id && e.inst == b.inst) ||
    ((groupOf e.id).map (·.base) == (groupOf b.id).map (·.base) && e.inst == b.inst) ||
    ((coveredBy v b.id b.inst).isSome && coveredBy v e.id e.inst == coveredBy v b.id b.inst))

/-- The codes of a clash between two parameters, which is recorded against those the transaction writes. -/
abbrev clashCodes : List Nat := [0x8502, 0x8503, 0x8504, 0x860B, 0x8701]

/-- A list without repeats. -/
def Broken.distinct : List Broken → List Broken
  | [] => []
  | b :: l => b :: (Broken.distinct l).filter (fun x => x != b)

/-- The failures of stages 3 and 4 that the transaction is answered with: those it brings about or touches. -/
def Dev.stage34 (d : Dev) (eff acc : Nat) (order : List Commit) (es bad : List Entry) : List Broken :=
  let good := es.filter (fun e => !bad.any (· == e))
  let before := d.projectionFails eff acc order []
  let found := d.projectionFails eff acc order es
  let found := if bad.isEmpty then found else
    let less := d.projectionFails eff acc order good
    found.filter (fun b => less.any (· == b))
  let p := d.projBefore eff acc order
  let found := found.filter (fun b => !before.any (· == b) || b.touched d.variant es) ++ d.sceneFails p good
  let staged (b : Broken) : Bool := es.any (fun e => e.id == b.id && e.inst == b.inst)
  Broken.distinct (found.filter (fun b =>
    !has clashCodes b.code || staged b || (b.code != 0x8503 && !found.any (fun x => x.code == b.code && staged x))))

/-- Failures into entry order, the earlier stage first. -/
def insertFailure (f : Failure) : List Failure → List Failure
  | [] => [f]
  | x :: l => if f.index < x.index then f :: x :: l else x :: insertFailure f l

/-- The adjustments of the transaction's projection (R82, R201): the taps of the touched moulds' layers. -/
def Dev.adjustsOf (d : Dev) (p : Proj) (es : List Entry) : List Adjust :=
  let x := d.projected (d.projAdd p es).store
  (((touchedMoulds x es).flatMap (fun m => x.tapAdjusts m.1)).map (fun a => (⟨P.vl_taps, a.1, 0x0710, a.2⟩ : Adjust))).take 32

/-- The records of the outputs touched: expected pour (R241), predicted pour and whether reseated. -/
def Dev.outPlan (d : Dev) (n : Now) (kind output target : Nat) (pl : Plan) (order : List Commit) (es : List Entry) :
    List (Nat × Nat × Nat × Bool) :=
  let before := order.filter (fun c => decide (c.eff ≤ pl.eff))
  let s := (d.projAll d.projNow before).store
  let a := d.projected s
  let b := d.projected (s.write es)
  let rs := reseatOutputs a b es
  (touchedOutputs a b es).map (fun g =>
    let expect :=
      if kind == 2 && g == output then target % 2 ^ 32
      else if kind == 0 || pl.degraded then (d.tgen g).next.toNat
      else d.pourFrom n g before pl.planned
    let shown := if has rs g then d.freshFrom n g before pl.eff else d.pourFrom n g before pl.eff
    (g, expect, shown, has rs g))

/-- The check of a job's entries at the moment it completes (R81, R82): every entry goes through every stage, but 0x8230 and 0x8213 leave no
value that another code could apply to (R3). -/
def Dev.checkNow (d : Dev) (n : Now) (slow : Bool) (j : CheckJob) : CheckResult :=
  let v := d.variant
  let es := j.entries
  let cls := (d.slot j.slot).cls
  let order := d.pendingOrder
  let target := (match d.targetCode j.kind j.output with
    | some c => .error c
    | none => d.plan n j.kind j.output j.target slow : Except Nat Plan)
  let pl := match target with | .ok p => p | .error _ => ⟨d.earliest n slow, d.earliest n slow, false⟩
  let stage1 (e : Entry) : Option Nat := j.flaw.or (rangeCode v e)
  let bad := es.filter (fun e => (stage1 e).isSome)
  let p := d.projAll d.projNow (order.filter (fun c => decide (c.eff ≤ pl.eff)))
  let out (m : Nat) : Nat := p.store.num P.mould_output m
  let s1 : List Broken := bad.filterMap (fun e => (stage1 e).map (fun c => ⟨c, e.id, e.inst⟩))
  let known (e : Entry) : Bool := stage1 e != some 0x8230 && stage1 e != some 0x8213
  let s2 : List Broken := (es.filter known).flatMap (fun e => (d.stage2 n.abs j.slot cls out e).map (fun c => ⟨c, e.id, e.inst⟩))
  let all := s1 ++ s2 ++ d.stage34 pl.eff d.txn.nextAcc order es bad
  let fails := (all.map (fun b => (⟨b.id, b.inst, b.code, failIndex v es b.id b.inst⟩ : Failure))).foldl (fun l f => insertFailure f l) []
  let fails := fails.take 32
  let status := match target with
    | .error c => c
    | .ok _ => ((fails.head?).map (·.code)).getD 0
  ⟨status, pl, fails, d.adjustsOf p es, if status == 0 then d.outPlan n j.kind j.output j.target pl order es else []⟩

/-! ## Replies (Table 4.5) -/

/-- An output record's bytes. -/
def outBytes (output flags pour : Nat) : Bytes := leBytes 1 output ++ leBytes 1 flags ++ leBytes 2 0 ++ leBytes 4 pour

/-- A failure record's bytes. -/
def Failure.bytes (f : Failure) : Bytes := leBytes 2 f.id ++ leBytes 1 f.inst ++ leBytes 1 0 ++ leBytes 2 f.code ++ leBytes 2 f.index

/-- An adjustment record's bytes. -/
def Adjust.bytes (a : Adjust) : Bytes := leBytes 2 a.id ++ leBytes 1 a.inst ++ leBytes 1 0 ++ leBytes 2 a.code ++ leBytes 2 0 ++ leBytes 4 a.value

/-- The reply data of CHECK, COMMIT and SET (Table 4.5). -/
def txnReply (txn eff cycles : Nat) (outs : List Bytes) (fails : List Failure) (adjs : List Adjust) : Bytes :=
  leBytes 4 txn ++ leBytes 8 (eff % 2 ^ 48) ++ leBytes 4 cycles ++ leBytes 1 outs.length ++ leBytes 1 fails.length ++
    leBytes 1 adjs.length ++ leBytes 1 0 ++ outs.flatten ++ fails.flatMap Failure.bytes ++ adjs.flatMap Adjust.bytes

/-- FLAGS of an output record (Table 4.5). -/
def outFlags (late reseat beyond : Bool) : Nat := b2n late + 2 * b2n reseat + 4 * b2n beyond

/-- The reply of a rejected check. -/
def CheckJob.rejection (j : CheckJob) (r : CheckResult) : Bytes := txnReply (if j.isSet then 0 else j.txn) 0 j.cost [] r.fails r.adjusts

/-- The reply of a CHECK that passes. -/
def CheckJob.prediction (j : CheckJob) (r : CheckResult) : Bytes :=
  let beyond := j.kind != 0 && decide (r.plan.planned < r.plan.eff)
  txnReply j.txn r.plan.eff j.cost (r.outs.map (fun o => outBytes o.1 (outFlags (newer o.2.2.1 o.2.1) o.2.2.2 beyond) o.2.2.1)) [] r.adjusts

/-- The reply of an applied commit (R90). -/
def Commit.answer (c : Commit) : Bytes :=
  txnReply (if c.isSet then 0 else c.txn) c.eff c.cycles (c.outs.map (fun o => outBytes o.output (outFlags o.late o.reseat o.beyond) o.pour)) []
    c.adjusts

/-! ## Acceptance (R90, R91) -/

/-- The accepted commit of a job that passed. `done`: its shadow sets are complete. -/
def CheckJob.commit (j : CheckJob) (acc : Nat) (r : CheckResult) (done : Bool) : Commit :=
  { acc := acc, slot := j.slot, session := j.session, txn := if j.isSet then 0 else j.txn, isSet := j.isSet, entries := j.entries
    kind := j.kind, output := j.output, target := j.target, eff := r.plan.eff, planned := r.plan.planned, shadow := done
    writing := done || j.kind == 0 || r.plan.degraded, state := .pending, recheck := false, route := j.msg.route, reqSeq := j.msg.j.seq
    cycles := j.cost, outs := [], adjusts := r.adjusts, jseq := none, expect := r.outs.map (fun o => (o.1, o.2.1)), learn := j.learn }

/-- The DETAIL of 0x0230 and 0x0231. -/
def Commit.heatDetail (c : Commit) : Bytes := c.detail ++ leBytes 6 (c.eff % 2 ^ 48)

/-- The adjustment events of an accepted commit (R91): requested and used taps, flask KiB. -/
def Dev.adjustEvents (d : Dev) (n : Now) (s : Store) (l : List Adjust) : Dev :=
  l.foldl (fun d a => d.raise n 0x0710 a.inst
    (leBytes 1 (s.num P.vl_taps a.inst) ++ leBytes 1 a.value ++ leBytes 1 (s.num P.vl_flask_kib a.inst))) d

/-- A passed COMMIT or SET becomes Pending (R78, R84, R90): the transaction is no longer Open; a paused check of another session
repeats stage 4. -/
def Dev.accept (d : Dev) (n : Now) (slow : Bool) (j : CheckJob) (r : CheckResult) : Dev :=
  let now := j.kind == 0 || r.plan.degraded
  let c := j.commit d.txn.nextAcc r (now && !slow)
  let store := (d.projAll d.projNow (d.pendingOrder.filter (fun x => decide (x.eff ≤ c.eff)))).store.write c.entries
  let d : Dev := { d with txn := { d.txn with
    commits := d.txn.commits ++ [c], nextAcc := c.acc + 1
    paused := d.txn.paused.map (fun (p : CheckJob) => if p.again then p else { p with again := true, left := p.left + 2000, cost := p.cost + 2000 }) } }
  let d := if j.isSet then d else d.onSlot j.slot (fun s => s.dropTxn j.txn)
  (d.raiseTo n j.slot 0x0230 whole c.heatDetail).adjustEvents n store r.adjusts

/-- A commit of the device itself at the next boundary (R60 step 3). -/
def Dev.deviceCommit (d : Dev) (n : Now) (es : List Entry) : Dev :=
  if es.isEmpty then d
  else
    let c : Commit :=
      { acc := d.txn.nextAcc, slot := 32, session := 0, txn := 0, isSet := false, entries := es, kind := 0, output := 0, target := 0
        eff := n.heat + 1, planned := n.heat + 1, shadow := true, writing := true, state := .pending, recheck := false
        route := ⟨0, 0, 0⟩, reqSeq := 0, cycles := 0, outs := [], adjusts := [], jseq := none }
    { d with txn := { d.txn with commits := d.txn.commits ++ [c], nextAcc := c.acc + 1 } }

/-! ## Re-checks (R93) -/

/-- One Pending commit's stages 3 and 4 at its place in the order (R82), against the projection without it. -/
def Dev.recheckFails (d : Dev) (c : Commit) : Bool :=
  !(d.stage34 c.eff c.acc (d.pendingOrder.filter (fun x => x.acc != c.acc)) c.entries []).isEmpty

/-- The re-check of a message window (R93): each marked commit in the order of R82; one that fails is cancelled with 0x0212. -/
def Dev.recheckAll (d : Dev) (n : Now) : Dev :=
  let step (d : Dev) (acc : Nat) : Dev :=
    match d.txn.commits.find? (fun c => c.acc == acc && c.state == .pending && c.recheck) with
    | none => d
    | some c =>
      if decide (c.slot < 32) && d.recheckFails c then d.cancelCommits n 0x0212 (fun x => x.acc == acc) true
      else { d with txn := { d.txn with commits := d.txn.commits.map (fun x => if x.acc == acc then { x with recheck := false } else x) } }
  (d.pendingOrder.map (·.acc)).foldl step d

end Sys2Proof.Machine
end

