-- ==== Sys2Proof/Machine/PairLink.lean ====
section
/-!
DEFINITION. The session between the units of a pair (R48, R372, R394, R424, R425): keys, sequence, the messages' envelope, state
versions.
-/

namespace Sys2Proof.Machine

/-! ## The running images (R403) -/

/-- Where a firmware slot lies in flash (Table 18.1). -/
def fwSlotBase (slot : Nat) : Nat := if slot == 0 then 0x100000 else 0x900000

/-- Where a pattern slot lies in flash (Table 18.1). -/
def patSlotBase (slot : Nat) : Nat := if slot == 0 then 0x1100000 else 0x1500000

/-- A field of the running firmware's header. -/
def Dev.fwField (d : Dev) (off n : Nat) : Nat := leNat (d.flashBytes (fwSlotBase d.upd.fwRun + off) n)

/-- A field of the running pattern's header. -/
def Dev.patField (d : Dev) (off n : Nat) : Nat := leNat (d.flashBytes (patSlotBase d.upd.patRun + off) n)

/-- The highest mirrored-state version the running firmware produces (R424). -/
def Dev.ownVer (d : Dev) : Nat := d.fwField 36 2

/-- The lowest it accepts. -/
def Dev.ownMinVer (d : Dev) : Nat := d.fwField 38 2

/-! ## Keys and envelope -/

/-- Change the pair's state. -/
def Dev.onPair (d : Dev) (f : Pair → Pair) : Dev := { d with pair := f d.pair }

/-- Whether pair operation is on (R347). -/
def Dev.pairOn (d : Dev) : Bool := d.cn P.pair_enable 0 == 1

/-- The pair secret, if its slot holds a usable one (R394). -/
def Dev.pairSecret (d : Dev) : Option Bytes :=
  let i := d.cn P.key_pair_slot 0
  let s := d.keySlot i
  if decide (i < 64) && s.ready && s.typ == 3 then some s.key else none

/-- U: the UNIT_ID of Cope, then that of Drag (R394). -/
def Dev.pairIds (d : Dev) (peer : Nat) : Bytes :=
  if d.pair.drag then leBytes 8 peer ++ leBytes 8 d.otp.unitId else leBytes 8 d.otp.unitId ++ leBytes 8 peer

/-- The key that tags PAIR_KEY (R394). -/
def Dev.helloKey (d : Dev) (secret : Bytes) (peer : Nat) : Bytes := kdf secret (ascii "morcel-pair-hello") (d.pairIds peer) 128

/-- 0x0D0C, once for each link up: cause 1 no usable pair key, 2 the tag of PAIR_KEY failed. -/
def Dev.pairKeyFail (d : Dev) (n : Now) (cause : Nat) : Dev :=
  if d.key.pairTold then d
  else ({ d with key := { d.key with pairTold := true } } : Dev).raise n 0x0D0C whole (leBytes 1 cause)

/-- Send a pair message under the link key (R372, R394). -/
def Dev.pairSend (d : Dev) (typ : Nat) (payload : Bytes) : Dev :=
  if d.key.kOut.isEmpty || !d.mor.up then d
  else
    let j : Jorek := ⟨1, typ, 0xFFFE, d.pair.seqOut, 2, payload, []⟩
    (d.onPair (fun p => { p with seqOut := p.seqOut + 1 })).morMessage 0 ({ j with tag := j.tagOf d.key.kOut } : Jorek).encode

/-- PAIR_KEY goes out as the link comes up, with SEQ 1 and a fresh nonce (R394). -/
def Dev.pairHello (d : Dev) (n : Now) : Dev :=
  match d.pairSecret with
  | none => d.pairKeyFail n 1
  | some secret =>
    let (v, d) := d.draw
    let nonce := freeBytes 16 v
    let j : Jorek := ⟨1, 0x0D10, 0xFFFE, 1, 2, leBytes 8 d.otp.unitId ++ nonce ++ leBytes 8 0, []⟩
    let j : Jorek := { j with tag := j.tagOf (d.helloKey secret Config.peerUnitId.toNat) }
    let d : Dev := { d with key := { d.key with ownNonce := some nonce } }
    (d.onPair (fun p => { p with seqOut := 2 })).morMessage 0 j.encode

/-- Once both PAIR_KEY messages have been exchanged the link keys are those of R394; IMAGE_INFO follows (R425). -/
def Dev.pairKeys (d : Dev) (secret : Bytes) : Dev :=
  match d.key.ownNonce, d.key.peerNonce with
  | some a, some b =>
    let ctx := d.pairIds d.key.peerId ++ (if d.pair.drag then b ++ a else a ++ b)
    let k := kdf secret (ascii "morcel-pair-v1") ctx 256
    let fromCope := slice k 0 16
    let fromDrag := slice k 16 16
    let d : Dev := { d with key := { d.key with
      kOut := if d.pair.drag then fromDrag else fromCope, kIn := if d.pair.drag then fromCope else fromDrag } }
    d.pairSend 0x0E20 (leBytes 2 d.ownVer ++ leBytes 2 d.ownMinVer ++ leBytes 4 (d.fwField 16 4) ++ leBytes 4 0 ++ leBytes 8 0)
  | _, _ => d

/-- PAIR_KEY (R394): the peer's hello gives its nonce; the link keys follow, or 0x0D0C. -/
def pairKeyReceive (d : Dev) (n : Now) (b : Bytes) : Dev :=
  match Jorek.parse b with
  | none => d
  | some j =>
    if !(d.mor.up && j.typ == 0x0D10 && j.session == 0xFFFE && j.seq == 1 && j.payload.length == 32 && d.key.peerNonce.isNone) then d
    else match d.pairSecret with
      | none => d.pairKeyFail n 1
      | some secret =>
        let peer := rd j.payload 0 8
        if !bit j.flags 1 || j.tagOf (d.helloKey secret peer) != j.tag then d.pairKeyFail n 2
        else
          let d : Dev := { d with key := { d.key with peerNonce := some (slice j.payload 8 16), peerId := peer } }
          (d.onPair (fun p => { p with seqIn := 1, taken := [1] })).pairKeys secret

/-- The payload of a pair message of a type that passes the envelope's tests: the link keys exist, the tag verifies, the SEQ is new
(R41, R372, R394). -/
def Dev.pairOpen (d : Dev) (typ : Nat) (b : Bytes) : Option (Bytes × Dev) :=
  match Jorek.parse b with
  | none => none
  | some j =>
    if d.mor.up && !d.key.kIn.isEmpty && j.version == 1 && j.typ == typ && j.session == 0xFFFE && bit j.flags 1 && j.tag == j.tagOf d.key.kIn &&
        decide (d.pair.seqIn < j.seq + 64) && !has d.pair.taken j.seq then
      some (j.payload, d.onPair (fun p =>
        { p with seqIn := max p.seqIn j.seq, taken := j.seq :: p.taken.filter (fun s => decide (max p.seqIn j.seq < s + 64)) }))
    else none

/-! ## State versions (R371, R424, R425) -/

/-- The V that both units produce. -/
def Dev.commonVer (d : Dev) : Nat := match d.pair.peerVer with | some v => min d.ownVer v.1 | none => d.ownVer

/-- IMAGE_INFO's payload. -/
def Dev.imageInfo (d : Dev) (switch : Nat) : Bytes :=
  leBytes 2 d.ownVer ++ leBytes 2 d.ownMinVer ++ leBytes 4 (d.fwField 16 4) ++ leBytes 4 0 ++ leBytes 8 (switch % 2 ^ 48)

/-- A unit with no peer image range known produces its own STATE_VER (R424). -/
def Dev.ownVersion (d : Dev) : Dev := if d.pair.peerVer.isNone then d.onPair (fun p => { p with ver := d.ownVer }) else d

/-- Whether the images' ranges meet (R424): V is not below the higher MIN_VER. -/
def Dev.rangesMeet (d : Dev) : Bool := d.pair.peerVer.all (fun v => decide (max d.ownMinVer v.2 ≤ min d.ownVer v.1))

/-- The active unit names the boundary at which a changed V is produced (R425): 3 heats ahead (DESIGN CHOICE, assumption 67), in IMAGE_INFO. -/
def Dev.nameSwitch (d : Dev) (n : Now) : Dev :=
  if d.pair.role == .active && d.mor.up && !d.key.kOut.isEmpty && d.pair.switchV.isNone && d.pair.peerVer.isSome && d.commonVer != d.pair.ver then
    (d.onPair (fun q => { q with switchV := some (n.heat + 3, d.commonVer) })).pairSend 0x0E20 (d.imageInfo (n.heat + 3))
  else d

/-- IMAGE_INFO (R425): the peer's range; when V changes the active unit names a boundary and the standby takes it. -/
def imageInfoReceive (d : Dev) (n : Now) (b : Bytes) : Dev :=
  match d.pairOpen 0x0E20 b with
  | none => d
  | some (p, d) =>
    if p.length != 20 then d
    else
      let d := d.onPair (fun q => { q with peerVer := some (rd p 0 2, rd p 2 2) })
      let v := d.commonVer
      let switch := rd p 12 8 % 2 ^ 48
      if d.pair.role == .active then d.nameSwitch n
      else if v != d.pair.ver && switch != 0 then d.onPair (fun q => { q with switchV := some (switch, v) })
      else d

/-- V changes at its boundary (R425): 0x0E0A. The answer tells whether it did. -/
def Dev.verBoundary (d : Dev) (n : Now) : Dev × Bool :=
  let d := d.nameSwitch n
  match d.pair.switchV with
  | some (h, v) =>
    if h ≤ n.heat then
      ((d.onPair (fun q => { q with ver := v, switchV := none })).raise n 0x0E0A whole (leBytes 2 d.pair.ver ++ leBytes 2 v), true)
    else (d, false)
  | none => (d, false)

end Sys2Proof.Machine
end

