-- ==== Sys2Proof/Machine/Pair.lean ====
section
/-!
DEFINITION. The units of a pair (chapter 16): ownership, the alive watchdog, mirroring, the configuration digest, the heartbeat,
divergence and resynchronisation.
-/

namespace Sys2Proof.Machine

/-! ## Ownership and the alive watchdog (R347 to R349) -/

/-- The time in which the peer counts as alive (R349, R364). -/
abbrev aliveLimit : Nat := 198400

/-- Whether the unit sees PAIR_ALIVE_IN (R349). -/
def Dev.aliveSeen (d : Dev) (t : Nat) : Bool := d.pair.aliveAt.any (fun a => decide (t ≤ a + aliveLimit))

/-- Whether a valid heartbeat arrived in time (R364). -/
def Dev.hbSeen (d : Dev) (t : Nat) : Bool := d.pair.hbAt.any (fun a => decide (t ≤ a + aliveLimit))

/-- Modes in which the active controller pair checks in (R349). -/
def Mode.checksIn (m : Mode) : Bool := !(m == .reset || m == .boot || m == .banked || m == .latched)

/-- The hard window checks in (R349); a unit that is active or alone then drives OWN_OUT high (R347, R348), unless a fault holds it low. -/
def Dev.checkIn (d : Dev) : Dev :=
  if !d.pwr.mode.checksIn || d.flt.halted.isSome then d
  else d.onPair (fun p => { p with
    checkedIn := true, expired := p.forcedLow
    ownOut := if p.forcedLow || d.flt.holdOwn.isSome then false else p.ownOut || p.role == .active || p.role == .single })

/-- A heat boundary: PAIR_ALIVE_OUT toggles after a heat with a check-in (R349). -/
def Dev.aliveHeat (d : Dev) : Dev :=
  d.onPair (fun p =>
    if p.checkedIn && !p.expired then { p with checkedIn := false, missed := 0, alivePin := !p.alivePin }
    else { p with checkedIn := false, missed := p.missed + 1 })

/-- ALIVE_WATCHDOG_EXPIRY (R349): two heats without a check-in. -/
def aliveExpiry (d : Dev) : Dev := if decide (2 ≤ d.pair.missed) then d.onPair (fun p => { p with expired := true, ownOut := false }) else d

/-- PAIR_ALIVE_IN_EDGE (R349). -/
def aliveEdge (d : Dev) (n : Now) : Dev := d.onPair (fun p => { p with aliveAt := some n.abs, aliveTold := false })

/-- PAIR_ALIVE_IN_LOST (R365): no edge for 248 µs while heartbeats continue: 0x0C03. -/
def aliveLost (d : Dev) (n : Now) : Dev :=
  if d.pairOn && d.pair.aliveAt.isSome && !d.aliveSeen n.abs && d.hbSeen n.abs && !d.pair.aliveTold then
    (d.onPair (fun p => { p with aliveTold := true })).raise n 0x0C03 whole []
  else d

/-! ## The mirrored set and its digest (R351, R356) -/

/-- Groups outside the mirrored set. -/
def unmirroredGroups : List Nat := [group_dev.base, group_ctl.base, group_pair.base, group_key.base, group_upd.base, group_flt.base]

/-- Whether a definition belongs to the mirrored set (R351). -/
def mirroredId (id : Nat) : Bool :=
  match groupOf id, paramDef id with
  | some g, some p =>
    p.takes != .immediate && p.range != .readOnly && !has unmirroredGroups g.base && (g.base != group_time.base || id == P.time_epoch_ns)
  | _, _ => false

/-- The mirrored parameters of a variant, ascending by ID and then instance. -/
def mirroredKeys (v : Variant) : List (Nat × Nat) :=
  paramGroups.flatMap (fun g => ((List.range g.defs.length).map (· + g.base)).flatMap (fun id =>
    if mirroredId id then (List.range (g.count v)).map (fun i => (id, i)) else []))

/-- The WIDTH code of a definition (Table 4.1). -/
def widthOf (id : Nat) : Nat :=
  match paramDef id with
  | some p => (match p.width with | .w64 => 1 | .blob => 2 | .w32 => 0)
  | none => 0

/-- The entry of a parameter with the value GET returns. -/
def Dev.entryOf (d : Dev) (id inst : Nat) : Bytes := entryBytes id inst (widthOf id) (d.par.committed.val id inst)

/-- Bytes 0 to 7 of SHA-256, little-endian. -/
def term64 (b : Bytes) : Nat := leNat ((sha256 b).take 8)

/-- The configuration digest (R356). -/
def Dev.configDigest (d : Dev) : BitVec 64 :=
  let ps := ((mirroredKeys d.variant).map (fun k => term64 (d.entryOf k.1 k.2))).sum
  let bs := (d.cru.bufs.map (fun b => term64 (leBytes 2 b.handle ++ b.descriptor.take 12))).sum
  BitVec.ofNat 64 (ps + bs)

/-! ## Mirroring (R351) -/

/-- The conditions of R351, with heartbeats arriving (R365). -/
def Dev.mirrorHolds (d : Dev) (t : Nat) : Bool :=
  let p := d.pair
  d.pairOn && (p.role == .active || p.role == .standby || p.role == .takeover) && d.mor.up && !d.key.kIn.isEmpty && d.work.aligned && p.accepted && p.snapped &&
    p.resync.isNone && !p.stopped && d.hbSeen t

/-- Running outputs. -/
def Dev.runningOutputs (d : Dev) : List Nat := (List.range d.nTx).filter (fun g => (d.tgen g).state != .stopped)

/-- Mirroring begins or ends (R351): the porches in a stretch end with cause 5 (R251); without it, decisions wait for no release (R358)
and records go no further. -/
def Dev.mirrorEval (d : Dev) (n : Now) : Dev :=
  let on := d.mirrorHolds n.abs
  if on == d.pair.mirrored then d
  else if on then
    let d := d.onPair (fun p => { p with mirrored := true, unmirroredAt := none })
    let d := d.undegrade 2
    (List.range 16).foldl (fun d g => if (d.tgen g).stretched then d.onTg g (fun t => { t with news := t.news.or (some 5) }) else d) d
  else
    let d := d.onPair (fun p => { p with
      mirrored := false, ready := false, unmirroredAt := some n.heat, journal := if p.role == .active then [] else p.journal })
    if d.pair.role == .active then
      { d with
        pwr := { d.pwr with bankAt := d.pwr.bankAt.map (fun b => (b.1, min b.2 (n.heat + 1))) }
        txn := { d.txn with commits := d.txn.commits.map (fun (c : Commit) => { c with jseq := none }) }
        ctl := { d.ctl with expiries := d.ctl.expiries.map (fun (e : Expiry) => { e with due := min e.due (n.heat + 1) }) }
        moulds := d.moulds.map (fun (m : Mould) =>
          { m with pendCmds := m.pendCmds.map (fun (c : SceneCmd) => { c with due := min c.due (n.heat + 1) }) }) }
    else d

/-- The standby is ready while it is mirrored and every running output matched at its last common pour (R356): 0x0C04. -/
def Dev.readyEval (d : Dev) (n : Now) : Dev :=
  if d.pair.role != .standby then d
  else
    let on := d.pair.mirrored && d.runningOutputs.all (fun g => (d.pair.common.getD g {}).ok)
    let was := d.pair.ready
    let d := d.onPair (fun p => { p with ready := on })
    if on && !was then d.raise n 0x0C04 whole (leBytes 4 d.pair.epoch.toNat) else d

/-- The outputs ready (`pair.status` bits 31:16). -/
def Dev.outsReady (d : Dev) : Nat :=
  if d.pair.mirrored then maskOf (d.runningOutputs.filter (fun g => (d.pair.common.getD g {}).ok)) else 0

/-! ## Divergence and resynchronisation (R361, R363) -/

/-- A resynchronisation begins (R361, R363): the standby asks, the active unit captures at the next boundary; 0x0C07. -/
def Dev.startResync (d : Dev) (n : Now) (reason : Nat) : Dev :=
  if d.pair.stopped || d.pair.resync.isSome then d
  else
    let d := d.bumpField P.pair_resync_stats 0 0 16 1
    let d := d.onPair (fun p => { p with
      resync := some (n.heat, reason), snapAt := n.heat, snapIn := none, since := []
      capture := if p.role == .active then some reason else none, snapId := if p.role == .active then (p.snapId + 1) % 2 ^ 32 else p.snapId })
    let d := d.raise n 0x0C07 whole (leBytes 1 reason ++ leBytes 4 d.pair.snapId)
    (if d.pair.role == .standby then d.pairSend 0x0C03 (leBytes 1 reason ++ leBytes 3 0) else d).mirrorEval n

/-- A divergence (R361): counted; with `pair.ctrl` bit 0 a resynchronisation begins. -/
def Dev.diverge (d : Dev) (n : Now) (reason : Nat) : Dev :=
  let d := d.bumpField P.pair_resync_stats 0 32 16 1
  if bit (d.cn P.pair_ctrl 0) 0 then d.startResync n reason else d

/-- Whether a fault of the yield path is active (R459): a unit that yielded rejoins only once it is not. -/
def Dev.faulty (d : Dev) : Bool := d.flt.active.any (fun a => bit (d.cn P.flt_yield_mask 0) a.1)

/-- The standby asks for its first snapshot once the link, the keys and the alignment stand (R361, R370): reason 5 on joining, 4 after a
link loss. -/
def Dev.joinResync (d : Dev) (n : Now) : Dev :=
  if d.pairOn && d.pair.role == .standby && !d.faulty && d.mor.up && !d.key.kIn.isEmpty && d.work.aligned && d.pair.accepted && !d.pair.snapped &&
      d.pair.resync.isNone && !d.pair.stopped then
    d.diverge n (if d.pair.snapId == 0 then 5 else 4)
  else d

/-! ## Check digests (R355, R356, R361) -/

/-- One common pour of an output is compared (R356, R361). -/
def Dev.chkCompare (d : Dev) (n : Now) (a b : ChkRec) : Dev :=
  let g := a.output
  let c := d.pair.common.getD g {}
  let ok := a.digest == b.digest
  let c : ChkCommon := { c with pour := a.pour, own := a.digest, peer := b.digest, ok := ok, fails := if ok then 0 else c.fails + 1 }
  let hit := !ok && decide (d.cn P.pair_chk_diverge_n 0 ≤ c.fails)
  let may := c.asked.all (fun h => decide (h + 8000 ≤ n.heat))
  let run := c.fails
  let c : ChkCommon := { c with asked := if hit && may then some n.heat else c.asked, fails := if hit then 0 else c.fails }
  let d := d.onPair (fun p => { p with common := modAt p.common g (fun _ => c) })
  if hit then
    let d := d.raise n 0x0C06 g (leBytes 4 a.pour ++ leBytes 1 run)
    if may then d.diverge n 2 else d.bumpField P.pair_resync_stats 0 32 16 1
  else d

/-- The records of one output and pour that both units have. -/
def Pair.chkPairs (p : Pair) : List (ChkRec × ChkRec) :=
  p.chkOwn.flatMap (fun a => (p.chkPeer.filter (fun b => b.output == a.output && b.pour == a.pour)).map (fun b => (a, b)))

/-- Own and peer records of the same output and pour are compared and go. -/
def Dev.chkMatch (d : Dev) (n : Now) : Dev :=
  let l := d.pair.chkPairs
  let done (l2 : List (ChkRec × ChkRec)) (x : ChkRec) : Bool := l2.any (fun q => q.1.output == x.output && q.1.pour == x.pour)
  let d := d.onPair (fun p => { p with
    chkOwn := (p.chkOwn.filter (fun x => !done l x)).take 64, chkPeer := (p.chkPeer.filter (fun x => !done l x)).take 64 })
  (l.foldl (fun d q => if d.pair.mirrored then d.chkCompare n q.1 q.2 else d) d).readyEval n

/-- The check records of the previous heat (R262, R355). -/
def Dev.chkRecords (d : Dev) (n : Now) : List ChkRec :=
  (List.range d.nTx).filterMap (fun g =>
    match d.liveView.mouldOf g with
    | none => none
    | some m =>
      let x := d.mould m
      if decide ((n.heat - 1) * heatCycles ≤ x.digestAt) && decide (x.digestAt < n.heat * heatCycles) && decide (0 < x.digestAt) then
        let flags := b2n x.visible.isSome + 2 * b2n (d.quenched m) + 4 * b2n (x.wins.any (·.wrong))
        some ⟨g, flags, x.digestPour, x.digest.toNat⟩
      else none)

/-! ## The heartbeat (R355) -/

/-- ROLE of HEARTBEAT (Table 16.2). -/
def Dev.roleByte (d : Dev) : Nat :=
  let p := d.pair
  b2n p.drag + 2 * b2n (p.role == .active) + 4 * b2n p.mirrored + 8 * b2n (p.role == .standby && p.ready) + 16 * b2n d.upd.trialFlag +
    32 * b2n p.resync.isSome

/-- The sequences to carry: those changed since they were last carried, up to 32 (R355). -/
def Pair.selDue (p : Pair) : List (Nat × Nat) := (p.selNow.filter (fun x => !p.sel.any (· == x))).take 32

/-- HEARTBEAT is built and sent (R355). `apply`: the records released for the next boundary. -/
def Dev.sendHeartbeat (d : Dev) (n : Now) (apply : List Nat) : Dev :=
  let chk := (d.chkRecords n).take 16
  let sel := if d.pair.role == .active then d.pair.selDue else []
  let payload := leBytes 8 (n.heat % 2 ^ 48) ++ leBytes 1 d.pwr.mode.code ++ leBytes 1 d.roleByte ++ leBytes 2 d.pair.ver ++ leBytes 2 d.ownMinVer ++
    leBytes 2 0 ++ leBytes 4 d.pair.epoch.toNat ++ leBytes 8 d.pair.digest.toNat ++ leBytes 1 apply.length ++ leBytes 1 sel.length ++
    leBytes 1 chk.length ++ [0#8] ++ apply.flatMap (fun s => leBytes 4 s) ++ sel.flatMap (fun s => leBytes 2 s.1 ++ leBytes 2 0 ++ leBytes 4 s.2) ++
    chk.flatMap (fun c => leBytes 1 c.output ++ leBytes 1 c.flags ++ leBytes 2 0 ++ leBytes 4 c.pour ++ leBytes 4 c.digest)
  let d := d.onPair (fun p => { p with
    sel := p.sel.filter (fun x => !sel.any (fun y => y.1 == x.1)) ++ sel, chkOwn := chk ++ p.chkOwn })
  (d.pairSend 0x0C01 payload).chkMatch n

/-- A unit becomes standby (R364, R370): OWN_OUT falls, the mode follows at a boundary. -/
def Dev.becomeStandby (d : Dev) : Dev :=
  (d.onPair (fun p => { p with role := .standby, ownOut := false, forcedLow := false, bootWait := none, ready := false })).askMode
    (if d.pwr.mode == .boot || d.pwr.mode == .banked then 6 else 14)

/-- A unit becomes active at a start (R370). -/
def Dev.becomeActive (d : Dev) (n : Now) : Dev :=
  (d.onPair (fun p => { p with
    role := .active, bootWait := none, unmirroredAt := some n.heat, ownOut := !p.expired && !p.forcedLow })).askMode
    (if d.pwr.mode == .banked then 18 else 5)

/-- Which unit is active is settled by what a heartbeat says of the peer (R370). -/
def Dev.settleRole (d : Dev) (n : Now) (peerActive : Bool) (peerEpoch : Nat) : Dev :=
  let p := d.pair
  if p.role == .joining then
    if peerActive then d.becomeStandby
    else if b2n p.drag == d.cn P.pair_role 0 then d.becomeActive n
    else d.becomeStandby
  else if p.role == .active && peerActive then
    if p.epoch.toNat < peerEpoch || (p.epoch.toNat == peerEpoch && p.drag) then
      (d.becomeStandby.onPair (fun p => { p with snapped := false })).raise n 0x0C0C whole (leBytes 4 peerEpoch)
    else d
  else d

/-- The versions of a heartbeat (R371, R424): 0x0C0A when the peer's is not accepted. -/
def Dev.checkVer (d : Dev) (n : Now) (ver : Nat) : Dev :=
  let ok : Bool := decide (d.ownMinVer ≤ ver) && decide (ver ≤ d.ownVer) && d.rangesMeet
  let was := d.pair.accepted
  let d := d.onPair (fun p => { p with accepted := ok })
  if !ok && was then d.raise n 0x0C0A whole (leBytes 2 ver ++ leBytes 2 d.ownMinVer ++ leBytes 2 d.ownVer) else d

/-- Whether a heartbeat's length is what its counts give. -/
def hbOk (p : Bytes) : Bool :=
  decide (32 ≤ p.length) && decide (rd p 28 1 ≤ 32) && decide (rd p 29 1 ≤ 32) && decide (rd p 30 1 ≤ 16) &&
    p.length == 32 + 4 * rd p 28 1 + 8 * rd p 29 1 + 12 * rd p 30 1

/-- HEARTBEAT (R355, R356, R361, R370, R371). -/
def heartbeatReceive (d : Dev) (n : Now) (b : Bytes) : Dev :=
  match d.pairOpen 0x0C01 b with
  | none => d
  | some (p, d) =>
    if !hbOk p || !d.pairOn then d
    else
      let heat := rd p 0 8 % 2 ^ 48
      let role := rd p 9 1
      let na := rd p 28 1
      let ns := rd p 29 1
      let apply := (List.range na).map (fun i => rd p (32 + 4 * i) 4)
      let sel := (List.range ns).map (fun i => (rd p (32 + 4 * na + 8 * i) 2, rd p (36 + 4 * na + 8 * i) 4))
      let o := 32 + 4 * na + 8 * ns
      let chk : List ChkRec := (List.range (rd p 30 1)).map (fun i =>
        ⟨rd p (o + 12 * i) 1, rd p (o + 1 + 12 * i) 1, rd p (o + 4 + 12 * i) 4, rd p (o + 8 + 12 * i) 4⟩)
      let fell := d.pair.role == .standby && bit (rd d.pair.peer 9 1) 2 && !bit role 2 && d.pair.resync.isNone
      let d := d.onPair (fun q => { q with hbAt := some n.abs, hbTold := false, peer := p, snapped := q.snapped && !fell })
      let d := (d.checkVer n (rd p 10 2)).settleRole n (bit role 1) (rd p 16 4)
      let d : Dev := if d.pair.role == .active then { d with work := { d.work with aligned := heat == n.heat } } else d
      let standby := d.pair.role == .standby
      let d := d.onPair (fun q => { q with
        apply := if standby then apply else q.apply, since := if standby then q.since ++ apply else q.since
        sel := if standby then q.sel.filter (fun x => !sel.any (fun y => y.1 == x.1)) ++ sel else q.sel
        chkPeer := chk ++ q.chkPeer, ready := if standby then q.ready else q.mirrored && bit role 3 })
      -- The active unit sees its snapshot applied.
      let done := d.pair.role == .active && bit role 2 && d.pair.captured.any (fun s => decide (s + 2 ≤ heat))
      let d := if done then d.onPair (fun q => { q with snapped := true, resync := none, captured := none, resyncFails := 0 }) else d
      let d := (d.mirrorEval n).chkMatch n
      let differs := d.pair.mirrored && bit role 2 && heat == d.pair.digestAt && rd p 20 8 != d.pair.digest.toNat
      if differs then (d.raise n 0x0C05 whole (leBytes 6 heat)).diverge n 1 else d.joinResync n

/-- HEARTBEAT_LOST (R365): no heartbeat for 248 µs; the unit runs unmirrored with 0x0C02. -/
def heartbeatLost (d : Dev) (n : Now) : Dev :=
  if d.pairOn && d.pair.hbAt.isSome && !d.hbSeen n.abs && !d.pair.hbTold then
    let cause := if d.aliveSeen n.abs then 1 else 2
    ((d.onPair (fun p => { p with hbTold := true })).raise n 0x0C02 whole (leBytes 1 cause)).mirrorEval n
  else d

/-- PAIR_BOOT_WAIT_END (R370): `pair.boot_wait_ms` after the watch began without a heartbeat. -/
def bootWaitEnd (d : Dev) (n : Now) : Dev :=
  match d.pair.bootWait with
  | none => d
  | some t =>
    if decide (n.abs < t + d.cn P.pair_boot_wait_ms 0 * msCycles) then d
    else if d.aliveSeen n.abs && b2n d.pair.drag != d.cn P.pair_role 0 then d.becomeStandby
    else d.becomeActive n

/-- The pair at a boundary (R354, R356, R365): the sequences carried, the digest after this boundary's transfers, time unmirrored. -/
def Dev.pairHeat (d : Dev) (n : Now) : Dev :=
  if !d.pairOn then d
  else
    let now := d.cru.bufs.filterMap (fun b => b.newest.map (fun i => (b.handle, (b.slot i).seq)))
    let dig := if d.mor.up then d.configDigest else d.pair.digest
    let d := d.onPair (fun p => { p with
      selPrev := p.sel, selNow := if p.role == .active then now else p.selNow, digest := dig, digestAt := n.heat })
    let d := d.mirrorEval n
    let ms := d.cn P.pair_degraded_ms 0
    if d.pair.role == .active && ms != 0 && d.pair.unmirroredAt.any (fun h => decide (h + 8 * ms ≤ n.heat)) then d.degrade 2 else d

/-! ## Alignment of heats (R35, R36) -/

/-- The measured offset in core cycles of a pulse that comes so many ps after the unit's own boundary: less `time.pair_sync_delay_ps` (R35),
to the nearest cycle (the rounding is a DESIGN CHOICE, assumption 69). -/
def Dev.syncOffset (d : Dev) (ps : Int) : Int := (2 * (ps - d.cn P.time_pair_sync_delay_ps 0) + 1250) / 2500

/-- PAIR_SYNC_PULSE's part in the time base (R35, R36): a follower that is not aligned takes the master's heat number at its next
boundary, which it places on the pulse; an aligned one corrects an offset above one cycle by one cycle, once per heat;
an offset beyond `time.pair_align_tol` ends the alignment with 0x0303 and is a divergence. A positive offset is a pulse later than the
boundary, and lengthens a heat; a negative one shortens it (the sign is a DESIGN CHOICE, assumption 69). -/
def Dev.syncPulse (d : Dev) (n : Now) (ps : Int) : Dev :=
  if !(d.pair.role == .standby || d.pair.role == .joining) then d
  else
    let offset := d.syncOffset ps
    let d := d.setSN P.time_pair_offset 0 (unsigned 32 offset)
    let d : Dev := { d with work := { d.work with missedPulses := 0, pulseMissing := false } }
    if !d.work.aligned then
      if d.hbSeen n.abs && !d.pair.peer.isEmpty && d.work.step.isNone then
        let h := ((rd d.pair.peer 0 8 % 2 ^ 48) / 8 + 1) * 8
        { d with work := { d.work with step := some h } }
      else d
    else if decide (d.cn P.time_pair_align_tol 0 < offset.natAbs) then
      let d : Dev := { d with work := { d.work with aligned := false, lostAlign := true } }
      (d.raise n 0x0303 whole []).diverge n 3
    else if decide (1 < offset.natAbs) && d.work.correctedAt != some n.heat then
      { d with work := { d.work with correction := if offset < 0 then -1 else 1, correctedAt := some n.heat } }
    else d

/-- PAIR_SYNC_MISSING (R36): 3 consecutive pulses missing end the alignment. -/
def syncMissing (d : Dev) (n : Now) : Dev :=
  if !(d.pair.role == .standby) then d
  else
    let d : Dev := { d with work := { d.work with missedPulses := d.work.missedPulses + 1, pulseMissing := true } }
    if d.work.aligned && decide (3 ≤ d.work.missedPulses) then
      let d : Dev := { d with work := { d.work with aligned := false, lostAlign := true } }
      (d.raise n 0x0303 whole []).diverge n 3
    else d

/-- The heat number of a boundary and the device after it (R25, R35): one more, or the master's; with 0x0304 where an alignment that was
lost returns (R36). -/
def Dev.nextHeat (d : Dev) (heat : Nat) : Nat × Dev :=
  let d : Dev := { d with work := { d.work with correction := 0 } }
  match d.work.step with
  | some h =>
    let lost := d.work.lostAlign
    let d : Dev := { d with work := { d.work with step := none, aligned := true, lostAlign := false } }
    (h % 2 ^ 48, if lost then d.raise ⟨h % 2 ^ 48, 0⟩ 0x0304 whole [] else d)
  | none => ((heat + 1) % 2 ^ 48, d)

/-! ## Ladle phases (R291) -/

/-- The segment, from index `k`, and the place in it so many cycles into a loop. -/
def segAt : List (Int × Nat) → Nat → Nat → Nat × Nat
  | [], k, t => (k, t)
  | s :: l, k, t => if t < s.2 then (k, t) else segAt l (k + 1) (t - s.2)

/-- A ladle's state as LADLE_SYNC carries it (Table 16.6), as it will be at core cycle `t`, 8 heats on. -/
def Dev.ladleRecord (d : Dev) (t l acc dv : Nat) : Bytes :=
  let x := d.ladle l
  let base := match x.gliding with
    | some f0 => approach x.base (d.targetRot l) (d.glideStep l f0 * 8)
    | none => x.base
  let p := profSegs x.profile
  let (seg, pos) := segAt p 0 ((t - x.profAt) % max 1 (profLoop p))
  leBytes 1 l ++ leBytes 1 seg ++ leBytes 2 x.d ++ leBytes 4 (unsigned 32 (base / 65536)) ++ leBytes 4 (unsigned 32 (x.ssc t / 65536)) ++
    leBytes 4 pos ++ leBytes 4 acc ++ leBytes 2 dv ++ leBytes 2 0

/-- The ladles that are phase-synchronised. -/
def Dev.syncedLadles (d : Dev) : List Nat := (List.range 20).filter (fun l => (d.ladle l).on && bit (d.cn P.ladle_mode l) 2)

/-- The time master tells the follower the state its ladles will have at the pulse one millisecond on (R291). `phases`: what the
hardware holds then (ladle, accumulator, divider count). -/
def Dev.sendLadles (d : Dev) (n : Now) (phases : List (Nat × Nat × Nat)) : Dev :=
  let l := phases.filter (fun x => has d.syncedLadles x.1)
  if d.pair.role == .active && n.heat % 8 == 0 && !l.isEmpty && d.work.aligned then
    let at_ := (n.heat + 8) * heatCycles
    d.pairSend 0x0C04 (leBytes 8 ((n.heat + 8) % 2 ^ 48) ++ leBytes 1 l.length ++ leBytes 3 0 ++ l.flatMap (fun x => d.ladleRecord at_ x.1 x.2.1 x.2.2))
  else d

/-- LADLE_SYNC (R291): the states wait for their pulse. -/
def ladleSync (d : Dev) (b : Bytes) : Dev :=
  match d.pairOpen 0x0C04 b with
  | none => d
  | some (p, d) =>
    let k := rd p 8 1
    if p.length != 12 + 24 * k || !(d.pair.role == .standby) then d
    else (List.range k).foldl (fun d i =>
      let r := slice p (12 + 24 * i) 24
      d.onLadle (rd r 0 1) (fun x => { x with pulse := some (rd p 0 8 % 2 ^ 48, r) })) d

/-- A ladle takes a state sent to it (R291, Table 16.6): D, ROT_base, the place in its profile, the accumulator and the divider count. -/
def Ladle.load (x : Ladle) (t : Nat) (r : Bytes) : Ladle :=
  let before := ((profSegs x.profile).take (rd r 1 1)).map (·.2)
  { x with synced := true, d := rd r 2 2, base := signed 32 (rd r 4 4) * 65536, acc := rd r 16 4, cnt := rd r 20 2
           profAt := if x.profile.isEmpty then x.profAt else t - (before.sum + rd r 12 4) }

/-- A ladle at a PAIR_SYNC pulse (R291): its phase is latched; the follower loads the state that waits for this pulse when it is not
synchronised or its divider count is more than 1 away, the latter with 0x0A08. -/
def Dev.ladlePulse (d : Dev) (n : Now) (l acc dv : Nat) : Dev :=
  let d := d.setSN P.ladle_phase l (acc / 65536 % 65536 + dv % 8192 * 65536)
  let x := d.ladle l
  match x.pulse with
  | none => d
  | some (h, r) =>
    if h != n.heat || !bit (d.cn P.ladle_mode l) 2 then d
    else
      let diff := if rd r 20 2 ≤ dv then dv - rd r 20 2 else rd r 20 2 - dv
      let d := d.onLadle l (fun x => { x with pulse := none })
      if x.synced && decide (diff ≤ 1) then d
      else
        let d := (d.onLadle l (fun x => x.load n.abs r)).bumpField P.ladle_stats l 48 16 1
        if x.synced then d.raise n 0x0A08 l (leBytes 2 diff) else d

/-- PAIR_SYNC_PULSE (R35, R36, R291). `phases`: the accumulator and divider count each ladle's hardware latches. -/
def pairSyncPulse (d : Dev) (n : Now) (ps : Int) (phases : List (Nat × Nat × Nat)) : Dev :=
  let d := if d.work.aligned && !(d.pair.role == .active) then phases.foldl (fun d x => if x.1 < 20 then d.ladlePulse n x.1 x.2.1 x.2.2 else d) d else d
  d.syncPulse n ps

/-- RELOCK (R284): the master's relock heat and error. -/
def relockReceive (d : Dev) (b : Bytes) : Dev :=
  match d.pairOpen 0x0C05 b with
  | none => d
  | some (p, d) =>
    if p.length != 16 || !(d.pair.role == .standby) || !d.clk.ref.lost then d
    else d.onRef (fun r => { r with relockAt := some (rd p 0 8 % 2 ^ 48), err := signed 32 (rd p 8 4) })

/-- The time master sends RELOCK once it has planned a relock (R284). -/
def Dev.sendRelock (d : Dev) (was : Option Nat) : Dev :=
  match d.clk.ref.relockAt with
  | some h =>
    if was.isNone && d.pair.role == .active && d.pairOn then
      d.pairSend 0x0C05 (leBytes 8 (h % 2 ^ 48) ++ leBytes 4 (unsigned 32 d.clk.ref.err) ++ leBytes 4 0)
    else d
  | none => d

end Sys2Proof.Machine
end

