-- ==== Sys2Proof/Machine/Journal.lean ====
section
/-!
DEFINITION. The journal of a mirrored pair (R357 to R359): what the active unit records of a command's decisions, how records are
released and applied, and what the standby does with them. A decision that waits for its release has a due heat of 2⁶⁰ plus its JSEQ.
-/

namespace Sys2Proof.Machine

/-- A due heat that stands for "when record `seq` is released". -/
def heldDue (seq : Nat) : Nat := 2 ^ 60 + seq

/-! ## Recording (R357) -/

/-- The pieces of a body: at most 4,136 bytes, at least one. -/
def bodyPieces : Nat → Bytes → List Bytes
  | 0, b => [b]
  | fuel + 1, b => if b.length ≤ 4136 then [b] else b.take 4136 :: bodyPieces fuel (b.drop 4136)

/-- The frames of a record (Table 16.3). -/
def JRec.frames (r : JRec) : List Bytes :=
  let l := bodyPieces (r.body.length / 4136) r.body
  (List.range l.length).map (fun i =>
    leBytes 4 r.seq ++ leBytes 1 r.kind ++ leBytes 1 (b2n (i == 0) + 2 * b2n (i + 1 == l.length) + 4 * (i % 64)) ++ leBytes 2 0 ++
      leBytes 8 (r.heat % 2 ^ 48) ++ leBytes 8 r.partner ++ l.getD i [])

/-- Whether records of a kind wait for release (R358). -/
def releasedKind (k : Nat) : Bool := k == 1 || k == 3 || k == 6

/-- A record is made and sent (R357). -/
def Dev.jPush (d : Dev) (t kind heat partner : Nat) (body : Bytes) : Dev :=
  let r : JRec := { seq := d.pair.nextJseq, kind := kind, heat := heat, partner := partner, body := body }
  let (d, last) := d.morQueue1 t r.frames
  let d := d.onPair (fun p => { p with
    nextJseq := (p.nextJseq + 1) % 2 ^ 32, journal := if releasedKind kind then p.journal ++ [{ r with last := last }] else p.journal })
  d.bumpField P.pair_journal_stats 0 0 32 1

/-- The body of a commit's record. -/
def Commit.jBody (c : Commit) : Bytes :=
  leBytes 4 c.txn ++ leBytes 2 c.entries.length ++ leBytes 2 0 ++ c.entries.flatMap (fun e => entryBytes e.id e.inst (widthOf e.id) e.val)

/-- The PARTNER_ID of a slot's session; 0 for the device. -/
def Dev.slotPartner (d : Dev) (slot : Nat) : Nat := if slot < 32 then (d.slot slot).partner else 0

/-- New commits are recorded (kind 1). -/
def Dev.jCommits (d : Dev) (t : Nat) : Dev :=
  (d.txn.commits.filter (fun c => c.state == .pending && c.jseq.isNone && decide (c.slot ≤ 32))).foldl (fun d c =>
    let s := d.pair.nextJseq
    let d := d.jPush t 1 c.eff (d.slotPartner c.slot) c.jBody
    { d with txn := { d.txn with commits := d.txn.commits.map (fun (x : Commit) => if x.acc == c.acc then { x with jseq := some s } else x) } }) d

/-- Commits cancelled by the command are recorded (kind 2), and their records go. -/
def Dev.jCancels (d0 d : Dev) (t : Nat) : Dev :=
  (d0.txn.commits.filter (fun c => c.state == .pending && c.jseq.isSome && !d.txn.commits.any (fun x => x.acc == c.acc))).foldl (fun d c =>
    let s := c.jseq.getD 0
    (d.jPush t 2 0 (d.slotPartner c.slot) (leBytes 4 s)).onPair (fun p => { p with journal := p.journal.filter (fun r => r.seq != s) })) d

/-- A 16-byte lease entry (Table 16.3). -/
def leaseEntry (kind idx event policy deadline : Nat) : Bytes :=
  leBytes 1 kind ++ leBytes 1 idx ++ leBytes 1 event ++ leBytes 1 policy ++ (nowOf deadline).stamp

/-- Lease events between two states: (PARTNER_ID, kind, index, entry). -/
def leaseEvents (d0 d : Dev) (t : Nat) : List (Nat × Nat × Nat × Bytes) :=
  let policy (l : Lease) : Nat := (d.expiryOf l.kind l.idx).1
  let at0 (l : Lease) : Option Lease := d0.leaseOn l.kind l.idx
  d.ctl.leases.filterMap (fun l => match at0 l with
    | some l0 =>
      if l0.deadline == l.deadline && l0.session == l.session then none
      else some (d.leasePartner l, l.kind, l.idx, leaseEntry l.kind l.idx (if l0.session == l.session then 0 else 3) (policy l) l.deadline)
    | none => some (d.leasePartner l, l.kind, l.idx, leaseEntry l.kind l.idx 0 (policy l) l.deadline)) ++
  d0.ctl.leases.filterMap (fun l =>
    if (d.leaseOn l.kind l.idx).isSome then none
    else some (d0.leasePartner l, l.kind, l.idx, leaseEntry l.kind l.idx (if l.deadline ≤ t then 2 else 1) (policy l) l.deadline))

/-- Grants, renewals, releases, lapses and inheritance are recorded (kind 3), a record for each partner; expiry policies wait for theirs. -/
def Dev.jLeases (d0 d : Dev) (n : Now) : Dev :=
  let ev := leaseEvents d0 d n.abs
  let ps := (ev.map (·.1)).foldl (fun l p => if has l p then l else l ++ [p]) []
  ps.foldl (fun d p =>
    let mine := ev.filter (fun e => e.1 == p)
    let s := d.pair.nextJseq
    let d := d.jPush n.abs 3 (n.heat + 2) p (leBytes 2 mine.length ++ leBytes 2 0 ++ mine.flatMap (fun e => e.2.2.2))
    { d with ctl := { d.ctl with expiries := d.ctl.expiries.map (fun (x : Expiry) =>
        if decide (x.due < 2 ^ 60) && mine.any (fun e => e.2.1 == x.kind && e.2.2.1 == x.idx) then { x with due := heldDue s } else x) } }) d

/-- Created, deleted and passed buffers are recorded (kind 4). -/
def Dev.jBufs (d0 d : Dev) (t : Nat) : Dev :=
  let rec4 (d : Dev) (op : Nat) (b : Buf) (partner : Nat) : Dev :=
    d.jPush t 4 0 partner (leBytes 1 op ++ [0#8] ++ leBytes 2 b.handle ++ b.descriptor)
  let d := (d0.cru.bufs.filter (fun b => (d.buf b.handle).isNone)).foldl (fun d b => rec4 d 2 b (d0.bufPartner b)) d
  d.cru.bufs.foldl (fun d b => match d0.buf b.handle with
    | none => rec4 d 1 b (d.bufPartner b)
    | some b0 => if b0.owner != b.owner then rec4 d 3 b (d.bufPartner b) else d) d

/-- Accepted uploads are recorded (kind 5), as their payload. -/
def Dev.jUploads (d0 d : Dev) (t : Nat) : Dev :=
  (d.cru.uploads.drop d0.cru.uploads.length).foldl (fun d u =>
    let first := match d0.buf u.handle with
      | some b => !((b.slot u.slot).state == .writing && (b.slot u.slot).byUpload)
      | none => true
    d.jPush t 5 0 (d.slotPartner u.reply.slot) (leBytes 2 u.handle ++ leBytes 1 u.slot ++ leBytes 1 u.plane ++
      leBytes 1 (b2n first + 2 * b2n u.last + 4) ++ leBytes 3 0 ++ leBytes 4 u.offset ++ u.data)) d

/-- SCENE commands are recorded (kind 6); they wait for their release. -/
def Dev.jScenes (d : Dev) (n : Now) : Dev :=
  (List.range 12).foldl (fun d m =>
    ((d.mould m).pendCmds.filter (fun c => decide (c.due < 2 ^ 60))).foldl (fun d c =>
      let s := d.pair.nextJseq
      let d := d.jPush n.abs 6 (n.heat + 2) (d.slotPartner c.reply.slot)
        (leBytes 2 0x0904 ++ leBytes 2 0 ++ leBytes 1 m ++ leBytes 1 c.op ++ leBytes 1 c.scene ++ [0#8])
      d.onMould m (fun x => { x with pendCmds := x.pendCmds.map (fun (y : SceneCmd) => if y == c then { y with due := heldDue s } else y) })) d) d

/-- A CHK_CLEAR that the active unit accepts while mirrored is recorded (kind 6). -/
def Dev.jChkClear (d : Dev) (n : Now) (m : Msg) : Dev :=
  if d.pair.mirrored && (d.chkClearCode n m).isNone then
    d.jPush n.abs 6 (n.heat + 2) (d.slotPartner (slotOf m.j.session)) (leBytes 2 0x0905 ++ leBytes 2 0 ++ m.j.payload.take 4)
  else d

/-- Trigger decisions (R268, R353) are recorded as kind 6 with message type 0: the scenes of lost sources and the moulds of mismatches. -/
def Dev.jTriggers (d : Dev) (n : Now) : Dev :=
  let now := (d.integ.lossEval, d.integ.chkEval)
  if now == d.pair.trigTold then d
  else
    (d.jPush n.abs 6 (n.heat + 2) 0 (leBytes 2 0 ++ leBytes 2 0 ++ leBytes 1 now.1.length ++ leBytes 1 now.2.length ++
      (now.1 ++ now.2).flatMap (leBytes 1))).onPair (fun p => { p with trigTold := now })

/-- Whether the active unit journals: it is mirrored, or has captured a snapshot that the peer is to apply. -/
def Dev.journals (d : Dev) : Bool := d.pairOn && d.pair.role == .active && (d.pair.mirrored || d.pair.captured.isSome)

/-- What a command decided is recorded (R357): the states before and after it are compared. -/
def Dev.journal (d0 d : Dev) (n : Now) : Dev :=
  if !d.journals then d
  else
    let d := (d0.jCancels d n.abs).jCommits n.abs
    let d := d0.jLeases d n
    let d := d0.jBufs d n.abs
    (d0.jUploads d n.abs).jScenes n

/-! ## Release (R358) -/

/-- A record's commit. -/
def Dev.jCommit (d : Dev) (s : Nat) : Option Commit := d.txn.commits.find? (fun c => c.jseq == some s && c.state == .pending)

/-- Release for the boundary to come (R358): acknowledged records whose heat has come, at most 32, in order; the others wait one heat more,
with 0x0231. The answer lists what APPLY carries. -/
def Dev.jRelease (d : Dev) (n : Now) : Dev × List Nat :=
  let h := n.heat + 1
  let due := d.pair.journal.filter (fun r => !r.released && decide (r.heat ≤ h))
  let go := ((due.filter (fun r => !newer r.last d.mor.acked)).take 32).map (·.seq)
  let wait := (due.map (·.seq)).filter (fun s => !has go s)
  let d := d.onPair (fun p => { p with journal := p.journal.map (fun (r : JRec) =>
    if has go r.seq then { r with released := true, heat := h } else if has wait r.seq then { r with heat := h + 1 } else r) })
  let d : Dev := { d with txn := { d.txn with commits := d.txn.commits.map (fun (c : Commit) => match c.jseq with
    | some s => if has go s then { c with jseq := none, eff := h } else if has wait s then { c with eff := h + 1 } else c
    | none => c) } }
  let d := wait.foldl (fun d s =>
    let d := d.bumpField P.pair_journal_stats 0 32 16 1
    match d.jCommit s with
    | some c => d.raise n 0x0231 whole c.heatDetail
    | none => d.raise n 0x0231 whole (leBytes 6 0 ++ leBytes 6 (h + 1))) d
  (d, go)

/-! ## Applying at a boundary (R358) -/

/-- The active unit's decisions that waited for record `s` take effect at this boundary. -/
def Dev.jEffect (d : Dev) (n : Now) (s : Nat) : Dev :=
  { d with
    ctl := { d.ctl with expiries := d.ctl.expiries.map (fun (x : Expiry) => if x.due == heldDue s then { x with due := n.heat } else x) }
    moulds := d.moulds.map (fun (m : Mould) =>
      { m with pendCmds := m.pendCmds.map (fun (c : SceneCmd) => if c.due == heldDue s then { c with due := n.heat } else c) }) }

/-- A kind 6 record takes effect: CHK_CLEAR and the triggers on both units, SCENE on the standby, whose sessions get no reply. -/
def Dev.jCommand (d : Dev) (n : Now) (standby : Bool) (b : Bytes) : Dev :=
  let typ := rd b 0 2
  let p := b.drop 4
  if typ == 0x0905 then d.chkClear (rd p 0 1)
  else if typ == 0x0904 then
    if standby then d.onMould (rd p 0 1) (fun x => { x with
      pendCmds := x.pendCmds ++ [⟨⟨32, 0, 0x0904, 0, ⟨0, 0, 0⟩, 0, []⟩, rd p 2 1, rd p 1 1, n.heat⟩] })
    else d
  else if typ == 0x0101 then
    { d with pwr := { d.pwr with bankAt := some ((d.pwr.bankAt.map (·.1)).getD 3, n.heat) } }
  else if typ == 0 then
    let a := (List.range (rd p 0 1)).map (fun i => rd p (2 + i) 1)
    let c := (List.range (rd p 1 1)).map (fun i => rd p (2 + rd p 0 1 + i) 1)
    { d with integ := { d.integ with lossIn := a, chkIn := c } }
  else d

/-- A mirrored lease stands in the lease table without a session (R368). -/
def Dev.mirrorLease (d : Dev) (kind idx deadline partner : Nat) : Dev :=
  let l : Lease := ⟨kind, idx, 32, 0, (Config.mirroredTimeout kind idx).toNat, deadline⟩
  let d := d.dropLease kind idx
  ({ d with ctl := { d.ctl with leases := d.ctl.leases ++ [l] } } : Dev).onPair (fun p =>
    { p with partners := ((kind, idx), partner) :: p.partners.filter (fun q => q.1 != (kind, idx)) })

/-- A lease entry on the standby: the lease stands or goes; a release or lapse brings its expiry policy, but revert, which comes as a
commit of its own. -/
def Dev.jLease (d : Dev) (n : Now) (partner : Nat) (e : Bytes) : Dev :=
  let kind := rd e 0 1
  let idx := rd e 1 1
  let event := rd e 2 1
  let deadline := (rd e 4 8 % 2 ^ 48) * heatCycles + rd e 12 4 % 2 ^ 17
  if event == 0 || event == 3 then d.mirrorLease kind idx deadline partner
  else
    let d := d.dropLease kind idx
    let policy := rd e 3 1
    if policy == 1 || policy == 2 then
      { d with ctl := { d.ctl with expiries := d.ctl.expiries ++ [⟨kind, idx, policy, (d.expiryOf kind idx).2, n.heat⟩] } }
    else d

/-- The entries of a commit's record. -/
def jEntries (b : Bytes) : List Entry :=
  ((takeEntries (rd b 4 2) (b.drop 8)).getD []).map (fun e => (⟨e.id, e.inst, e.val⟩ : Entry))

/-- The standby's commit for a kind 1 record: it applies at this boundary. -/
def Dev.jApplyCommit (d : Dev) (n : Now) (r : JRec) : Dev :=
  let c : Commit :=
    { acc := d.txn.nextAcc, slot := 33, session := 0, txn := rd r.body 0 4, isSet := false, entries := jEntries r.body, kind := 0, output := 0
      target := 0, eff := n.heat, planned := n.heat, shadow := true, writing := true, state := .pending, recheck := false
      route := ⟨0, 0, 0⟩, reqSeq := 0, cycles := 0, outs := [], adjusts := [], jseq := none }
  { d with txn := { d.txn with commits := d.txn.commits ++ [c], nextAcc := c.acc + 1 } }

/-- The standby applies a released record. -/
def Dev.jApply (d : Dev) (n : Now) (r : JRec) : Dev :=
  if r.kind == 1 then d.jApplyCommit n r
  else if r.kind == 3 then (List.range (rd r.body 0 2)).foldl (fun d i => d.jLease n r.partner (slice r.body (4 + 16 * i) 16)) d
  else d.jCommand n true r.body

/-- The journal at a boundary, before commits transfer (R358): released records take effect and go. -/
def Dev.jBoundary (d : Dev) (n : Now) : Dev :=
  if d.pair.role == .standby || d.pair.role == .takeover then
    let l := d.pair.journal.filter (fun r => has d.pair.apply r.seq)
    let apply := d.pair.apply
    if !d.pair.mirrored && !(d.pair.role == .takeover && d.pair.snapped) then d.onPair (fun p => { p with apply := [] })
    else
      let d := d.onPair (fun p => { p with apply := [], journal := p.journal.filter (fun r => !has apply r.seq) })
      l.foldl (fun d r => d.jApply n r) d
  else if d.pair.role == .active && d.pair.mirrored then
    let l := d.pair.journal.filter (fun r => r.released && decide (r.heat ≤ n.heat))
    let d := d.onPair (fun p => { p with journal := p.journal.filter (fun r => !(r.released && decide (r.heat ≤ n.heat))) })
    l.foldl (fun d r => if r.kind == 3 then d.jEffect n r.seq
      else if r.kind == 6 then (d.jCommand n false r.body).jEffect n r.seq else d) d
  else d

/-! ## Receiving (R358) -/

/-- A buffer as the journal or a snapshot names it: its handle and descriptor. -/
def Dev.mirrorBuf (d : Dev) (handle counter partner : Nat) (desc : Bytes) : Dev :=
  let r := createReq desc
  let d := d.onPair (fun p => { p with bufOwners := (handle, partner) :: p.bufOwners.filter (fun q => q.1 != handle) })
  let owner := if rd desc 19 1 == 0xFF then 0xFF else if rd desc 19 1 == 0xFE then 0xFE else 0xFD
  match d.buf handle with
  | some _ => d.onBuf handle (fun b => { b with owner := owner })
  | none =>
    match strideOf r.fmt r.width r.stride with
    | none => d
    | some stride =>
      match allocSlots d.usedGranules r.retained (ceilDiv (slotBytes r.fmt r.height stride) 4096) r.depth with
      | none => d
      | some slots =>
        let b : Buf := { index := handle % 1024, gen := handle / 1024, fmt := r.fmt, retained := r.retained, owner := owner, depth := r.depth
                         width := r.width, height := r.height, stride := stride, slots := slots, counter := counter }
        { d with cru := { d.cru with
          bufs := d.cru.bufs.filter (fun x => x.index != b.index) ++ [b]
          gens := (b.index, b.gen) :: d.cru.gens.filter (fun p => p.1 != b.index) } }

/-- A kind 4 record on receipt. -/
def Dev.jBuf (d : Dev) (n : Now) (r : JRec) : Dev :=
  let op := rd r.body 0 1
  let handle := rd r.body 2 2
  if op == 2 then (match d.buf handle with | some b => d.deleteBuf n b 1 | none => d)
  else d.mirrorBuf handle 0 r.partner (r.body.drop 4)

/-- A kind 5 record on receipt: the data waits for background class. -/
def Dev.jUpload (d : Dev) (n : Now) (p : Bytes) : Dev :=
  let handle := rd p 0 2
  let i := rd p 2 1
  let flags := rd p 4 1
  match d.buf handle with
  | none => d
  | some b =>
    let map := if bit flags 0 then d.mapAtWrite b.depth (b.slot i) else (b.slot i).map
    let d := d.onBufSlot handle i (fun s => { s with
      state := .writing, byUpload := true, lastUpload := n.heat, map := map, damaged := if bit flags 0 then false else s.damaged, upCrc := none })
    { d with cru := { d.cru with uploads := d.cru.uploads ++
        [⟨handle, i, rd p 3 1, rd p 8 4, bit flags 1, p.drop 12, ⟨32, 0, 0x0603, 0, ⟨0, 0, 0⟩, 0, []⟩⟩] } }

/-- A whole record on the standby (R358): kinds 2, 4 and 5 at once, the others wait for APPLY. -/
def Dev.jTake (d : Dev) (n : Now) (r : JRec) : Dev :=
  let d := d.bumpField P.pair_journal_stats 0 0 32 1
  let d := d.onPair (fun p => { p with nextJseq := (r.seq + 1) % 2 ^ 32 })
  if r.kind == 2 then d.onPair (fun p => { p with journal := p.journal.filter (fun x => x.seq != rd r.body 0 4) })
  else if r.kind == 4 then d.jBuf n r
  else if r.kind == 5 then d.jUpload n r.body
  else if releasedKind r.kind then d.onPair (fun p => { p with journal := p.journal.filter (fun x => x.seq != r.seq) ++ [r] })
  else d

/-- A channel-1 payload (Table 16.3): the fragments of a record come in order. -/
def Dev.jReceive (d : Dev) (n : Now) (b : Bytes) : Dev :=
  let frag := rd b 5 1
  let r : JRec := { seq := rd b 0 4, kind := rd b 4 1, heat := rd b 8 8 % 2 ^ 48, partner := rd b 16 8, body := b.drop 24 }
  if decide (b.length < 24) || !(d.pairOn && d.pair.role == .standby) then d
  else
    let whole' : Option JRec := if bit frag 0 then some r
      else match d.pair.part with
        | some q => if q.seq == r.seq then some { q with body := q.body ++ r.body } else none
        | none => none
    match whole' with
    | none => d.onPair (fun p => { p with part := none })
    | some q => if bit frag 1 then (d.onPair (fun p => { p with part := none })).jTake n q else d.onPair (fun p => { p with part := some q })

end Sys2Proof.Machine
end

