-- ==== Sys2Proof/Machine/Sessions.lean ====
section
/-!
DEFINITION. Partners and sessions (chapter 3): opening, proving, replacing and closing a session, arrival of messages,
mailboxes, events out, announce.
-/

namespace Sys2Proof.Machine

/-! ## Close (R56) -/

/-- Send CLOSE with a reason to the session's partner (R56), tagged (R40). -/
def Dev.sendClose (d : Dev) (slot reason : Nat) : Dev :=
  d.sendIn slot (d.slot slot).route 0x0205 2 (leBytes 1 reason ++ leBytes 3 0)

/-- A freed slot keeps only its generation. -/
def Session.freed (s : Session) : Session := { gen := s.gen }

/-- Close a session (R56): leases released unless inherited, staged transactions aborted, queue and mailbox discarded, keys
erased, slot freed, 0x0202. Buffers pass to `heir` or become orphans (R163). -/
def Dev.closeSession (d : Dev) (n : Now) (slot reason : Nat) (heir : Option Nat) : Dev :=
  let s := d.slot slot
  let id := s.id slot
  let d := if reason == 1 || reason == 4 || reason == 5 then d.sendClose slot reason else d
  let d := match heir with
    | some h => d.passBufs n slot id h ((d.slot h).id h)
    | none => (d.releaseAll n slot).orphanBufs n slot id
  let d := d.onSlot slot Session.freed
  let d := { d with ctl := { d.ctl with held := d.ctl.held.filter (fun h => h.session != id) }
                    txn := { d.txn with paused := d.txn.paused.filter (fun (j : CheckJob) => j.session != id) } }
  d.raise n 0x0202 whole (leBytes 2 id ++ leBytes 1 reason)

/-- Close every open session for which `p` holds, with reason 5 (Table 3.7). -/
def Dev.closeAll (d : Dev) (n : Now) (p : Session → Bool) : Dev :=
  (List.range 32).foldl (fun d i =>
    if (d.slot i).state != .free && p (d.slot i) then d.closeSession n i 5 none else d) d

/-! ## Open (R52 to R54) -/

/-- Free session slots. -/
def Dev.freeSlots (d : Dev) : List Nat := (List.range 32).filter (fun i => (d.slot i).state == .free)

/-- Handshakes in progress. -/
def Dev.handshakes (d : Dev) : Nat := (d.ctl.slots.filter (fun s => s.state == .handshake)).length

/-- Since when a session that holds no lease now has held none and has sent nothing (Table 3.7 reason 1). -/
def Dev.idleSince (d : Dev) (slot : Nat) : Nat :=
  let s := d.slot slot
  ((d.ctl.leases.filter (fun l => l.slot == slot)).map (·.deadline)).foldl max (max s.lastArrival s.leaseEnd)

/-- The time in ms at which the earliest slot could free by timeout, clamped (R54). -/
def Dev.retryMs (d : Dev) (n : Now) : Nat :=
  let left (deadline : Nat) : Nat := ceilDiv (deadline - n.abs) msCycles
  let l := (List.range 32).filterMap (fun i =>
    let s := d.slot i
    match s.state with
    | .handshake => some (left (s.openedAt + d.cn P.ctl_open_timeout_heats 0 * heatCycles))
    | .open => if d.ctl.leases.any (fun l => l.slot == i && l.live n.abs) then none
        else some (left (d.idleSince i + d.cn P.ctl_session_idle_s 0 * 1000 * msCycles))
    | .free => none)
  match l with
  | [] => 60000
  | x :: xs => min 60000 (max 100 (xs.foldl min x))

/-- Answer BUSY (R54). -/
def Dev.busy (d : Dev) (n : Now) (m : Msg) : Dev :=
  let used := 32 - d.freeSlots.length
  let pend := d.handshakes
  let d := d.send m.route ⟨1, 0x0204, 0, 0, 1,
    replyPrefix 0x8203 m.j.seq ++ leBytes 2 (d.retryMs n) ++ leBytes 1 used ++ leBytes 1 pend, []⟩
  (d.bump P.ctl_busy_count 0).raise n 0x0203 whole (leBytes 1 used ++ leBytes 1 pend)

/-- Whether the conditions of R54 answer an OPEN with BUSY. -/
def Dev.openBusy (d : Dev) (cls : Nat) : Bool :=
  let free := d.freeSlots
  free.isEmpty || decide (d.cn P.ctl_open_max_pending 0 ≤ d.handshakes) ||
    (d.cn P.ctl_reserve_slot 0 == 1 && free == [31] && decide (cls ≤ 1))

/-- Safety sessions that hold slots, handshakes included (R54). -/
def Dev.safetySessions (d : Dev) : Nat := (d.ctl.slots.filter (fun s => s.state != .free && s.cls == 2)).length

/-- The `ctl.partner_table` entry of a partner: key slot, class mask, CAN node (Table 3.14). -/
def Dev.partnerEntry (d : Dev) (id : Nat) : Option (Nat × Nat × Nat) :=
  let t := d.cb P.ctl_partner_table 0
  (List.range (t.length / 16)).findSome? (fun i =>
    if rd t (16 * i) 8 == id then some (rd t (16 * i + 8) 1, rd t (16 * i + 9) 1, rd t (16 * i + 10) 1) else none)

/-- The partner checks of method 1 (R52): the pre-shared key of a listed partner whose mask allows the class. -/
def Dev.pskCheck (d : Dev) (partner cls : Nat) : Option Bytes :=
  match d.partnerEntry partner with
  | some (slot, mask, _) =>
    if bit mask cls && (d.keySlot slot).ready && !d.pwr.maintOnly then some (d.keySlot slot).key else none
  | none => none

/-- Whether a certificate's partner and signature fit under a trust anchor's key (R52). -/
def certFits (key : Bytes) (partner : Nat) (pub signed' sig : Bytes) : Bool :=
  Config.ecdsaVerify (fit 64 key) (sha256 signed') sig && leNat ((sha256 pub).take 8) == partner

/-- The trust anchor of a unit with no acceptable pattern (R437): OWNER_PUB of the running firmware's header, or Crathal's service key. -/
def Dev.rescueAnchor (d : Dev) : Bytes :=
  if d.otp.owners.isEmpty then beBytes 64 Config.serviceKey.toNat
  else d.flashBytes ((if d.upd.fwRun == 0 then 0x100000 else 0x900000) + 96) 64

/-- The partner checks of method 2 (R52): the certificate's public key, if it is signed by the anchor, not denied, its partner identifier
matches and the class is granted. With no acceptable pattern only a Maintainer under the rescue anchor passes (R437). -/
def Dev.certCheck (d : Dev) (partner cls : Nat) (cert : Bytes) : Option Bytes :=
  match Config.certFields cert with
  | none => none
  | some (pub, serial, signed', sig) =>
    if d.pwr.maintOnly then if cls == 3 && certFits d.rescueAnchor partner pub signed' sig then some pub else none
    else
      let anchor := d.cn P.ctl_anchor_slot 0
      let deny := d.cb P.ctl_cert_deny 0
      let denied := (List.range (deny.length / 20)).any (fun i => slice deny (20 * i) 20 == fit 20 serial)
      if anchor != 0xFF && (d.keySlot anchor).ready && certFits (d.keySlot anchor).key partner pub signed' sig && !denied &&
          bit (d.cn P.ctl_anchor_class_mask 0) cls then some pub else none

/-- Whether an OPEN payload is well formed (R52, Table 3.6, R491). -/
def openWellFormed (p : Bytes) : Bool :=
  let method := rd p 0 1
  decide (rd p 1 1 ≤ 3) &&
  ((method == 1 && p.length == 28) ||
   (method == 2 && decide (94 ≤ p.length) && decide (1 ≤ rd p 92 2) && decide (rd p 92 2 ≤ 768) && p.length == 94 + rd p 92 2))

/-- A failed handshake's count and event (R52). -/
def Dev.authFail (d : Dev) (n : Now) (method partner : Nat) : Dev :=
  (d.bump P.ctl_auth_fail_count 0).raise n 0x0204 whole (leBytes 1 method ++ leBytes 3 0 ++ leBytes 8 partner)

/-- The generation after `g` of a session slot (R50). -/
def nextSessGen (g : Nat) : Nat := if g ≥ 2046 then 1 else g + 1

/-- The slot an OPEN takes: the lowest free one; slot 31 only for Safety and Maintainer while it is reserved (R54,
assumption 4). -/
def Dev.openSlot (d : Dev) : Nat := d.freeSlots.headD 0

/-- Allocate a slot for an OPEN that passed its tests, and reply (R52 step 2, R53). -/
def Dev.startHandshake (d : Dev) (m : Msg) (psk certKey : Bytes) : Dev :=
  let p := m.j.payload
  let method := rd p 0 1
  let slot := d.openSlot
  let gen := nextSessGen (d.slot slot).gen
  let id := gen * 32 + slot
  let (nv, d) := d.draw
  let nonce := freeBytes 16 nv
  let (ev, d) := if method == 2 then d.draw else (0, d)
  let priv := p256Private (freeBytes 32 ev)
  let fixed := replyPrefix 0 m.j.seq ++ leBytes 2 id ++ leBytes 2 0 ++ nonce
  let body := if method == 2 then fixed ++ p256Public priv ++ leBytes 2 400 ++ d.certChain else fixed
  let transcript := sha256 (p ++ body)
  let (sigv, d) := if method == 2 then d.draw else (0, d)
  let sig := if method == 2 then
      beBytes 64 (Config.ecdsaSign (aliasKey d.rs d.key.m d.key.bootId) transcript sigv).toNat else []
  let secret := if method == 2 then beBytes 32 (Config.ecdhX priv (slice p 28 64)).toNat else psk
  let keys := kdf secret (ascii "jorek-session-v1") (leBytes 2 id ++ slice p 12 16 ++ nonce) 384
  let s : Session := { state := .handshake, gen := gen, cls := rd p 1 1, method := method, partner := rd p 4 8
                       keys := ⟨true, slice keys 0 16, slice keys 16 16, slice keys 32 16, transcript, certKey⟩
                       route := m.route, openedAt := m.arrival, lastArrival := m.arrival }
  (d.onSlot slot (fun _ => s)).send m.route ⟨1, 0x0202, 0, 0, 1, body ++ sig, []⟩

/-- Whether a mode lets a session of a class open (Table 1.7). -/
def Mode.admits (m : Mode) (cls : Nat) : Bool := if m == .provisioning || m == .maintenance then cls == 3 else true

/-- OPEN (R52): tests in the order of step 1, then the handshake starts. A class that the mode does not admit is rejected with 0x8205 before
the partner checks (DESIGN CHOICE, assumption 68). -/
def handleOpen (d : Dev) (n : Now) (m : Msg) : Dev :=
  let p := m.j.payload
  let cls := rd p 1 1
  let partner := rd p 4 8
  let reject (d : Dev) (c : Nat) : Dev := d.replyUntagged m.route 0x0202 0 m.j.seq c []
  if !openWellFormed p then reject d 0x8206
  else if d.openBusy cls then d.busy n m
  else if cls == 2 && decide (d.cn P.ctl_safety_max 0 ≤ d.safetySessions) then reject d 0x8208
  else if !d.pwr.mode.admits cls then reject d 0x8205
  else if rd p 0 1 == 1 then
    match d.pskCheck partner cls with
    | some k => d.startHandshake m k []
    | none => reject (d.authFail n 1 partner) 0x8204
  else
    match d.certCheck partner cls (p.drop 94) with
    | some pub => d.startHandshake m [] pub
    | none => reject (d.authFail n 2 partner) 0x8204

/-- The older open session of a partner (R55). -/
def Dev.olderSession (d : Dev) (slot partner : Nat) : Option Nat :=
  (List.range 32).find? (fun i => i != slot && (d.slot i).state == .open && (d.slot i).partner == partner)

/-- Whether a session holds a lease at an instant. -/
def Dev.holdsAny (d : Dev) (t slot : Nat) : Bool := d.ctl.leases.any (fun l => l.slot == slot && l.live t)

/-- A reopened partner replaces its older session (R55): leases and buffers pass when `ctl.lease_inherit` is 1; nothing passes from a session
that held no lease. -/
def Dev.replaceSession (d : Dev) (n : Now) (slot arrival : Nat) : Dev :=
  match d.olderSession slot (d.slot slot).partner with
  | none => d
  | some old =>
    if d.cn P.ctl_lease_inherit 0 == 1 && d.holdsAny arrival old then
      let oldId := (d.slot old).id old
      let d := d.passLeases n old oldId slot ((d.slot slot).id slot) arrival
      (d.releaseAll n old).closeSession n old 3 (some slot)
    else d.closeSession n old 3 none

/-- Whether a message carries the session's tag from partner to device (R40). -/
def Session.tagged (s : Session) (j : Jorek) : Bool := bit j.flags 1 && s.keys.usable && j.tag == j.tagOf s.keys.kP2d

/-- The length of a session's PROVE payload (R52, R491). -/
def Session.proveLength (s : Session) : Nat := if s.method == 2 then 96 else 32

/-- Whether a PROVE proves the handshake (R52): SEQ 1, its tag under k_p2d, the transcript hash, and for method 2 the
signature by the certified key. A good tag with another SEQ or another hash proves nothing: it fails as a bad tag does (DESIGN CHOICE,
assumption 67). -/
def Session.proves (s : Session) (m : Msg) : Bool :=
  let p := m.j.payload
  m.j.seq == 1 && s.tagged m.j && p.length == s.proveLength && p.take 32 == s.keys.transcript &&
  (s.method != 2 || Config.ecdsaVerify s.keys.certKey (p.take 32) (p.drop 32))

/-- The handled request that a message repeats with SEQ and tag (R41). -/
def Session.repeats (s : Session) (j : Jorek) : Option Handled := s.handled.find? (fun h => h.seq == j.seq && h.tag == j.tag)

/-- The stored reply to a repeated request goes out again under a new SEQ and tag (R41); nothing while the reply does not exist yet. -/
def Dev.resend (d : Dev) (slot : Nat) (r : Route) (h : Handled) : Dev :=
  match h.reply with
  | some payload => d.sendIn slot r h.typ 3 payload
  | none => d

/-- A tagged reply in a session whose handshake is not finished (R40). -/
def Dev.replyProve (d : Dev) (slot : Nat) (m : Msg) (status : Nat) : Dev := d.sendIn slot m.route 0x0203 3 (replyPrefix status m.j.seq)

/-- PROVE (R52): the session becomes authenticated, or its slot is freed with 0x8204. A tagged one of another length is malformed and leaves
the handshake as it was (R491); in an authenticated session a retransmission gets its reply again and any other 0x8206. -/
def handleProve (d : Dev) (n : Now) (m : Msg) : Dev :=
  let slot := slotOf m.j.session
  let s := d.slot slot
  if s.state == .free || s.id slot != m.j.session then d
  else if s.state == .open then
    match s.repeats m.j with
    | some h => d.resend slot m.route h
    | none => d.replyProve slot m 0x8206
  else if s.tagged m.j && m.j.payload.length != s.proveLength then d.replyProve slot m 0x8206
  else if s.proves m then
    let d := d.onSlot slot (fun s => { s with
      state := .open, highSeq := 1, accepted := [1], lastArrival := m.arrival, route := m.route
      ev := { mask := d.cn P.ctl_event_default_mask 0 }
      handled := [⟨1, m.j.tag, 0x0203, none⟩] })
    let d := (d.replaceSession n slot m.arrival).attachLeases n slot m.arrival true
    let d := d.raise n 0x0201 whole
      (leBytes 2 m.j.session ++ leBytes 1 s.cls ++ leBytes 1 m.route.transport ++ leBytes 8 s.partner)
    d.reply m 0 []
  else
    let d := d.replyProve slot m 0x8204
    (d.onSlot slot Session.freed).authFail n s.method s.partner

/-! ## Requests of a session (R56, R62, R63) -/

/-- CLOSE from the partner (R56, R491). -/
def handleClose (d : Dev) (n : Now) (m : Msg) : Dev :=
  if m.j.payload.length != 4 then d.reject m 0x8206
  else (d.reply m 0 []).closeSession n (slotOf m.j.session) 0 none

/-- SUBSCRIBE (R62, R491): the mask is replaced. -/
def handleSubscribe (d : Dev) (m : Msg) : Dev :=
  if m.j.payload.length != 4 then d.reject m 0x8206
  else (d.onSlot (slotOf m.j.session) (fun s => { s with ev := { s.ev with mask := rd m.j.payload 0 2 } })).reply m 0 []

/-- Whether event number `e` is at or before `a` modulo 2³² (R62). -/
def atOrBefore (e a : Nat) : Bool := decide ((a + 2 ^ 32 - e % 2 ^ 32) % 2 ^ 32 < 2 ^ 31)

/-- EVENT_ACK (R63): every sent entry numbered at or before the given number is removed. -/
def handleEventAck (d : Dev) (m : Msg) : Dev :=
  if m.j.payload.length != 4 then d.reject m 0x8206
  else
    let a := rd m.j.payload 0 4
    (d.onSlot (slotOf m.j.session) (fun s => { s with ev := { s.ev with
      entries := s.ev.entries.filter (fun e => !(e.sentAt.isSome && atOrBefore e.number a)) } })).reply m 0 []

/-! ## Events out (R62, R63) -/

/-- A 32-byte event entry (Table 3.12). -/
def QEvent.bytes (e : QEvent) : Bytes :=
  leBytes 2 e.code ++ leBytes 2 e.inst ++ leBytes 2 e.count ++ leBytes 2 (b2n e.coalesced) ++ e.time.stamp ++ fit 12 e.detail

/-- The payload of an EVENT that carries entries (R62). -/
def eventPayload (lost : Nat) (l : List QEvent) : Bytes :=
  leBytes 4 ((l.map (·.number)).headD 0) ++ leBytes 2 l.length ++ leBytes 2 lost ++ l.flatMap QEvent.bytes

/-- Send one EVENT with the entries `p` selects, unless one has gone in this heat already (R62); they are then sent. -/
def Dev.sendEvents (d : Dev) (n : Now) (slot : Nat) (p : QEvent → Bool) : Dev :=
  let s := d.slot slot
  let l := s.ev.entries.filter p
  if s.state != .open || l.isEmpty || s.ev.sentHeat == some n.heat then d
  else
    let d := d.sendIn slot s.route 0x0207 2 (eventPayload s.ev.lost l)
    d.onSlot slot (fun s => { s with ev := { s.ev with
      sentHeat := some n.heat, lost := 0
      entries := s.ev.entries.map (fun e => if p e then { e with sentAt := some n.heat } else e) } })

/-- Each session's unsent entries go out (R62). -/
def Dev.sendAllEvents (d : Dev) (n : Now) : Dev :=
  (List.range 32).foldl (fun d i => d.sendEvents n i (fun e => e.sentAt.isNone)) d

/-- EVENT_RESEND_TIMEOUT (R63): entries sent `ctl.event_resend_heats` ago and not acknowledged go out again under their
numbers. It is work of the controllers (R22), as the two timeouts that follow are. -/
def eventResend (d : Dev) (n : Now) (slot : Nat) : Dev :=
  let k := d.cn P.ctl_event_resend_heats 0
  if d.fwRuns then d.sendEvents n slot (fun e => match e.sentAt with | some h => decide (h + k ≤ n.heat) | none => false) else d

/-! ## Timeouts (R52, R56) -/

/-- HANDSHAKE_TIMEOUT (R52): an unfinished handshake's slot is freed with close reason 2. -/
def handshakeTimeout (d : Dev) (n : Now) (slot : Nat) : Dev :=
  let s := d.slot slot
  if d.fwRuns && s.state == .handshake && decide (s.openedAt + d.cn P.ctl_open_timeout_heats 0 * heatCycles ≤ n.abs) then
    d.closeSession n slot 2 none
  else d

/-- SESSION_IDLE_TIMEOUT (R56): a session that has held no lease and sent no authenticated message for `ctl.session_idle_s` closes with
reason 1. -/
def sessionIdle (d : Dev) (n : Now) (slot : Nat) : Dev :=
  if d.fwRuns && (d.slot slot).state == .open && !d.holdsAny n.abs slot &&
      decide (d.idleSince slot + d.cn P.ctl_session_idle_s 0 * 1000 * msCycles ≤ n.abs) then
    d.closeSession n slot 1 none
  else d

/-- The SEQ at which a session closes (R41). -/
abbrev seqLimit : Nat := 0xFFFFFF00

/-- Sessions whose outbound SEQ has reached the limit close with reason 4 (R41): it is tested at the end of each message window (DESIGN
CHOICE, assumption 67). -/
def Dev.closeExhausted (d : Dev) (n : Now) : Dev :=
  (List.range 32).foldl (fun d i =>
    if (d.slot i).state == .open && decide (seqLimit ≤ (d.slot i).seqOut) then d.closeSession n i 4 none else d) d

/-! ## Arrival (R41, R42, R67) -/

/-- A message that comes to a full mailbox is discarded and counted (R67): in `ctl.rx_drop_count` and for this heat's 0x0209. -/
def Dev.overflow (d : Dev) (n : Now) (session : Nat) : Dev :=
  let d := d.bump P.ctl_rx_drop_count 0
  { d with ctl := { d.ctl with overflow := d.ctl.overflow.note n (leBytes 2 session) } }

/-- 0x0209 for the heat that ends (R67): the session of the last message dropped and how many were. -/
def Dev.tellOverflow (d : Dev) : Dev :=
  let t := d.ctl.overflow
  ({ d with ctl := { d.ctl with overflow := {} } } : Dev).tell t 0x0209 whole (t.last ++ t.bytes)

/-- A message for a session enters its mailbox of 32 (R67). -/
def Dev.toInbox (d : Dev) (n : Now) (slot : Nat) (m : Msg) : Dev :=
  if (d.slot slot).inbox.length < 32 then d.onSlot slot (fun s => { s with inbox := s.inbox ++ [m] })
  else d.overflow n m.j.session

/-- The acceptance rule of R41: SEQ above the highest accepted minus 64, and not accepted before. -/
def Session.acceptsSeq (s : Session) (seq : Nat) : Bool := decide (s.highSeq < seq + 64) && !has s.accepted seq

/-- Take a SEQ as accepted; SEQs out of the window are forgotten. -/
def Session.takeSeq (s : Session) (seq : Nat) : Session :=
  let high := max s.highSeq seq
  { s with highSeq := high, accepted := (seq :: s.accepted).filter (fun q => decide (high < q + 64)) }

/-- A tag failure in a session (R42): counted, also for this heat's 0x0206. -/
def Dev.tagFailure (d : Dev) (n : Now) (slot : Nat) : Dev :=
  (d.bump P.ctl_tag_fail_count 0).onSlot slot (fun s => { s with tagFails := s.tagFails.note n [] })

/-- 0x0206 to each session with tag failures in the heat that ends (R42): their number. -/
def Dev.tellTagFails (d : Dev) : Dev :=
  (List.range 32).foldl (fun d i =>
    let t := (d.slot i).tagFails
    if t.count == 0 then d
    else (d.onSlot i (fun s => { s with tagFails := {} })).raiseTo t.first i 0x0206 whole (leBytes 4 t.count)) d

/-- A message with a good tag in an authenticated session (R41, R42, R45, R59, R67). Where the spec leaves the order of the tests open
(DESIGN CHOICE, assumption 67): an OPEN is answered before its SEQ is looked at and takes no SEQ; a SEQ below the window counts as a
replay though it was never accepted; the message whose SEQ reaches the limit of R41 closes the session on arrival and is not handled. -/
def Dev.acceptTagged (d : Dev) (n : Now) (slot : Nat) (m : Msg) : Dev :=
  let d := (d.renewLeases slot n.abs).onSlot slot (fun s => { s with route := m.route, lastArrival := n.abs })
  let s := d.slot slot
  if m.j.typ == 0x0202 then d.reject m 0x8206
  else match s.repeats m.j with
    | some h => d.resend slot m.route h
    | none =>
      if !s.acceptsSeq m.j.seq then d.bump P.ctl_replay_count 0
      else
        let d := d.onSlot slot (fun s => s.takeSeq m.j.seq)
        if seqLimit ≤ m.j.seq then d.closeSession n slot 4 none else d.toInbox n slot m

/-- An untagged 0x8207 to an unknown session, at most one per transport per heat (R42). -/
def Dev.unknownSession (d : Dev) (n : Now) (m : Msg) : Dev :=
  let tr := m.route.transport
  if d.ctl.unknownHeat.getD tr none == some n.heat then d
  else
    let d := { d with ctl := { d.ctl with unknownHeat := modAt d.ctl.unknownHeat tr (fun _ => some n.heat) } }
    d.replyUntagged m.route m.j.typ m.j.session m.j.seq 0x8207 []

/-- Whether the transports take messages in a mode: not in Reset, Boot and Banked (Table 1.7). -/
def Mode.takesMessages : Mode → Bool
  | .reset | .boot | .banked => false
  | _ => true

/-- A whole Jorek message arrives at a transport engine (R42). -/
def Dev.arrive (d : Dev) (n : Now) (r : Route) (b : Bytes) : Dev :=
  if !d.pwr.mode.takesMessages then d
  else match Jorek.parse b with
    | none => d.bump P.ctl_rx_drop_count 0
    | some j =>
      let m : Msg := ⟨j, r, n.abs⟩
      let slot := slotOf j.session
      let s := d.slot slot
      if j.version != 1 then
        (if j.typ == 0x0202 then d.replyUntagged r j.typ j.session j.seq 0x8201 [] else d)
      else if j.session == 0 then
        if j.typ != 0x0202 then d
        else if d.ctl.pre.length < 8 then { d with ctl := { d.ctl with pre := d.ctl.pre ++ [m] } }
        else d.overflow n 0
      else if s.state == .free || s.id slot != j.session then d.unknownSession n m
      else if s.state == .handshake then
        (if j.typ == 0x0203 then d.toInbox n slot m else d.bump P.ctl_rx_drop_count 0)
      else if s.tagged j then d.acceptTagged n slot m
      else d.tagFailure n slot

/-! ## Announce (R49) -/

/-- The group addresses an Ethernet port announces to (R44, R49): the IPv4 group where it has an IPv4 address, ff02::1 where it has an IPv6
one; none while it is not enabled or has no MAC address. -/
def Dev.announceGroups (d : Dev) (port : Nat) : List Nat :=
  if !d.ethOn port then []
  else (if d.ipv4 port == 0 then [] else [d.cn P.ctl_mcast_group 0]) ++ (if d.ipv6On port then [0xFF02 * 2 ^ 112 + 1] else [])

/-- Whether ANNOUNCE is sent in a mode: from Autonomous onward except Banked (R49). -/
def Mode.announces : Mode → Bool
  | .reset | .boot | .provisioning | .banked => false
  | _ => true

/-- The ANNOUNCE payload (Table 3.5), given the pair facts and the running versions. -/
def Dev.announcePayload (d : Dev) (n : Now) (drag active trial : Bool) (fwVer patVer : Nat) : Bytes :=
  let free := d.freeSlots
  let reserved := d.cn P.ctl_reserve_slot 0 == 1
  let general := if reserved then free.filter (fun i => i != 31) else free
  let state := b2n drag + 2 * b2n active + 4 * b2n trial + 8 * b2n (d.cn P.ctl_ipv6_en 0 == 1) +
    16 * b2n (d.cn P.ctl_anchor_slot 0 != 0xFF) + 32 * b2n (reserved && has free 31)
  leBytes 2 d.variant.hwType ++ leBytes 1 d.otp.stepping ++ leBytes 1 d.pwr.mode.code ++ leBytes 1 state ++
    leBytes 1 general.length ++ leBytes 2 (d.cn P.ctl_udp_port 0) ++ leBytes 8 d.otp.unitId ++ leBytes 4 fwVer ++
    leBytes 4 patVer ++ n.stamp

/-- Whether the period of ANNOUNCE is over (R49). -/
def Dev.announceDue (d : Dev) (t : Nat) : Bool :=
  match d.ctl.announcedAt with
  | some a => decide (a + d.cn P.ctl_announce_ms 0 * msCycles ≤ t)
  | none => true

/-- ANNOUNCE on one port: to the UDP port it is sent from, which the spec names alone (DEDUCED, assumption 66). -/
def Dev.announceOn (d : Dev) (j : Jorek) (port : Nat) : Dev :=
  (d.announceGroups port).foldl (fun d g => (d.say (.announce port g j)).sendUdp port g (d.cn P.ctl_udp_port 0) j.encode) d

/-- ANNOUNCE goes out on each port that speaks, every `ctl.announce_ms` (R49). -/
def Dev.announce (d : Dev) (n : Now) (payload : Bytes) : Dev :=
  if d.cn P.ctl_announce_ms 0 == 0 || !d.pwr.mode.announces || !d.announceDue n.abs then d
  else
    let j : Jorek := ⟨1, 0x0201, 0, 0, 0, payload, []⟩
    let d : Dev := { d with ctl := { d.ctl with announcedAt := some n.abs } }
    (d.announceOn j 0).announceOn j 1

end Sys2Proof.Machine
end

