-- ==== Sys2Proof/Machine/Net.lean ====
section
/-!
DEFINITION. The transports below Jorek (R44 to R48): Ethernet, IPv4 reassembly, CAN FD segmentation; and the I²C/I3C
controllers with the XFER tunnel (R68 to R70).
-/

namespace Sys2Proof.Machine

/-! ## Ethernet (R44) -/

/-- Whether a frame's VLAN tag is accepted (R44): untagged or priority-tagged, and with `ctl.vlan` enabled also its VID. -/
def Dev.vlanOk (d : Dev) (v : Option Nat) : Bool :=
  match v with
  | none => true
  | some id => id == 0 || (bit (d.cn P.ctl_vlan 0) 15 && id == bits (d.cn P.ctl_vlan 0) 0 12)

/-- Byte `i` of a datagram from its pieces. -/
def pieceByte (l : List (Nat × Bytes)) (i : Nat) : Option Byte :=
  l.findSome? (fun p => if p.1 ≤ i then p.2[i - p.1]? else none)

/-- The whole datagram, once every byte to its total has arrived. -/
def Reassembly.whole (r : Reassembly) : Option Bytes :=
  match r.total with
  | none => none
  | some t => (List.range t).mapM (fun i => pieceByte r.pieces i)

/-- Change Ethernet port `i`. -/
def Dev.onEth (d : Dev) (i : Nat) (f : EthPort → EthPort) : Dev :=
  { d with ctl := { d.ctl with eth := modAt d.ctl.eth i f } }

/-- A UDP datagram over IPv4 for the port's address: Jorek when it is to `ctl.udp_port` (R44). -/
def Dev.udpIn (d : Dev) (n : Now) (port src : Nat) (dg : Bytes) : Dev :=
  let sport := beNat (slice dg 0 2)
  let dport := beNat (slice dg 2 2)
  let len := beNat (slice dg 4 2)
  if dport == d.cn P.ctl_udp_port 0 && decide (8 ≤ len) then d.arrive n ⟨port, src, sport⟩ ((dg.drop 8).take (len - 8)) else d

/-- An IPv4 fragment enters reassembly; up to 8 datagrams per port are held (R44). -/
def Dev.fragment (d : Dev) (n : Now) (port src dst ident off : Nat) (more : Bool) (data : Bytes) : Dev :=
  let e := d.ctl.eth.getD port {}
  let same (r : Reassembly) : Bool := r.src == src && r.dst == dst && r.ident == ident
  let total := if more then none else some (off + data.length)
  match e.frags.find? same with
  | some r =>
    let r := { r with pieces := r.pieces ++ [(off, data)], total := if more then r.total else total }
    match r.whole with
    | some dg => (d.onEth port (fun e => { e with frags := e.frags.filter (fun x => !same x) })).udpIn n port src dg
    | none => d.onEth port (fun e => { e with frags := e.frags.map (fun x => if same x then r else x) })
  | none =>
    if off == 0 && !more then d.udpIn n port src data
    else if e.frags.length < 8 then
      d.onEth port (fun e => { e with frags := e.frags ++ [⟨src, dst, ident, [(off, data)], total, n.heat⟩] })
    else d

/-- ETH_FRAME_RECEIVE (R44). -/
def ethFrame (d : Dev) (n : Now) (port : Nat) (f : EthFrame) : Dev :=
  if !d.pwr.mode.takesMessages || !d.ethOn port || !d.vlanOk f.vlan then d
  else
    let ip := d.ipv4 port
    match f.body with
    | .arpRequest target mac sip => if ip != 0 && target == ip then d.say (.arpReply port d.vlanTag mac sip) else d
    | .icmpEcho dst src p =>
      if ip != 0 && dst == ip && d.cn P.ctl_icmp_en 0 == 1 then d.say (.icmpReply port d.vlanTag src p) else d
    | .ipv4 dst src ident off more data => if ip != 0 && dst == ip then d.fragment n port src dst ident off more data else d
    | .ipv6 dstOk src sport dport p =>
      if d.ipv6On port && dstOk && dport == d.cn P.ctl_udp_port 0 then d.arrive n ⟨port, src, sport⟩ p else d
    | .other => d

/-- FRAG_TIMEOUT (R44): datagrams incomplete after `ctl.frag_timeout_heats` are discarded. -/
def fragTimeout (d : Dev) (n : Now) (port : Nat) : Dev :=
  let k := d.cn P.ctl_frag_timeout_heats 0
  d.onEth port (fun e => { e with frags := e.frags.filter (fun r => decide (n.heat < r.since + k)) })

/-- `ctl.eth_status`: bits 1:0 link up per port, bits 3:2 speed per port (Table 3.14). -/
def Dev.ethStatus (d : Dev) : Nat :=
  let p0 := d.ctl.eth.getD 0 {}
  let p1 := d.ctl.eth.getD 1 {}
  b2n p0.up + 2 * b2n p1.up + 4 * b2n p0.fast + 8 * b2n p1.fast

/-- ETH_LINK_CHANGE (R73): 0x0207. -/
def ethLink (d : Dev) (n : Now) (port : Nat) (up fast : Bool) : Dev :=
  let d := d.onEth port (fun e => { e with up := up, fast := fast })
  d.raise n 0x0207 whole (leBytes 1 d.ethStatus)

/-- A port's link follows its bit of `ctl.eth_speed` (Table 3.14): it restarts when the bit changes, and 0x0207 tells of a link that was
up. -/
def Dev.ethPortFollow (d : Dev) (n : Now) (port : Nat) : Dev :=
  let e := d.ctl.eth.getD port {}
  let want := bit (d.cn P.ctl_eth_speed 0) port
  if e.tuned == want then d
  else
    let d := d.onEth port (fun e => { e with up := false, fast := want, tuned := want })
    if e.up then d.raise n 0x0207 whole (leBytes 1 d.ethStatus) else d

/-- Both Ethernet links follow `ctl.eth_speed`. -/
def Dev.ethFollow (d : Dev) (n : Now) : Dev := (d.ethPortFollow n 0).ethPortFollow n 1

/-! ## CAN FD (R46, R47) -/

/-- The nodes of `ctl.partner_table` on CAN FD. -/
def Dev.canNode (d : Dev) (node : Nat) : Bool :=
  let t := d.cb P.ctl_partner_table 0
  (List.range (t.length / 16)).any (fun i => rd t (16 * i + 10) 1 == node && node != 0xFF)

/-- Whether a frame's identifier is the device's to receive (R46, Table 3.8). -/
def Dev.canAccepts (d : Dev) (ctl ident : Nat) : Bool :=
  d.canOn ctl && bits ident 12 17 == bits (d.cn P.ctl_can_id_base 0) 12 17 && !bit ident 11 &&
    d.canNode (bits ident 5 6)

/-- Change CAN FD controller `i`. -/
def Dev.onCan (d : Dev) (i : Nat) (f : CanCtl → CanCtl) : Dev :=
  { d with ctl := { d.ctl with can := modAt d.ctl.can i f } }

/-- A node's partial message is abandoned and counted (R47). -/
def Dev.canAbandon (d : Dev) (ctl node : Nat) : Dev :=
  (d.onCan ctl (fun c => { c with partials := c.partials.filter (fun p => p.node != node) })).bump P.ctl_can_seg_abort_count 0

/-- The message in reassembled bytes: its end is found from LENGTH and TAG (R47). -/
def canMessage (b : Bytes) : Bytes := b.take (16 + rd b 10 2 + (if bit (rd b 12 2) 1 then 8 else 0))

/-- CAN_FRAME_RECEIVE (R46, R47). -/
def canFrame (d : Dev) (n : Now) (ctl ident : Nat) (data : Bytes) : Dev :=
  if !d.pwr.mode.takesMessages || !d.canAccepts ctl ident || data.isEmpty then d
  else
    let node := bits ident 5 6
    let h := rd data 0 1
    let start := bit h 7
    let last := bit h 6
    let ctr := bits h 0 6
    let part := data.drop 1
    let old := (d.ctl.can.getD ctl {}).partials.find? (fun p => p.node == node)
    let finish (d : Dev) (b : Bytes) : Dev :=
      (d.onCan ctl (fun c => { c with partials := c.partials.filter (fun p => p.node != node) })).arrive n
        ⟨2 + ctl, node, 0⟩ (canMessage b)
    let keep (d : Dev) (b : Bytes) : Dev :=
      d.onCan ctl (fun c => { c with partials := c.partials.filter (fun p => p.node != node) ++ [⟨node, ctr, b, n.heat⟩] })
    if start then
      let d := if old.isSome then d.canAbandon ctl node else d
      if ctr != 0 then d else if last then finish d part else keep d part
    else match old with
      | none => d
      | some p =>
        if ctr != (p.counter + 1) % 64 then d.canAbandon ctl node
        else if last then finish d (p.bytes ++ part) else keep d (p.bytes ++ part)

/-- CAN_SEG_TIMEOUT (R47): no frame of a partial message for 8 heats. -/
def canSegTimeout (d : Dev) (n : Now) (ctl node : Nat) : Dev :=
  if (d.ctl.can.getD ctl {}).partials.any (fun p => p.node == node && decide (p.last + 8 ≤ n.heat)) then d.canAbandon ctl node
  else d

/-- CAN_STATE_CHANGE (R73): 0x0208. A controller that is bus-off stays so until it is disabled, unless it recovers by itself (Table 3.14). -/
def canState (d : Dev) (n : Now) (ctl st tec : Nat) : Dev :=
  if (d.ctl.can.getD ctl {}).state == 2 && d.cn P.ctl_can_busoff_auto 0 == 0 && bit (d.cn P.ctl_can_en 0) ctl then d
  else (d.onCan ctl (fun c => { c with state := st, tec := tec })).raise n 0x0208 whole (leBytes 1 ctl ++ leBytes 1 st)

/-! ## I²C and I3C (R68 to R70) -/

/-- Read `k` operations with their write data; `none` when the payload ends early (Table 3.13). -/
def xferOps : Nat → Bytes → Option (List XferOp × Bytes)
  | 0, b => some ([], b)
  | k + 1, b =>
    if b.length < 8 then none
    else
      let op := rd b 0 1
      let len := rd b 4 2
      let writes := op == 0 || op == 2 || op == 3
      let n := if writes then roundUp 4 len else 0
      if b.length < 8 + n then none
      else
        let x : XferOp := ⟨op, rd b 1 1 % 128, rd b 2 1, bit (rd b 3 1) 0, len, if writes then slice b 8 len else []⟩
        (xferOps k (b.drop (8 + n))).map (fun (l, r) => (x :: l, r))

/-- Whether an operation is well formed in a controller mode (R68). An ENTDAA whose LEN is no multiple of 8 names no number of targets and is
malformed (DESIGN CHOICE, assumption 67). -/
def xferOpOk (mode : Nat) (x : XferOp) : Bool :=
  decide (x.op ≤ 5) && decide (x.len ≤ 1024) && (decide (x.op < 2) || mode == 2) &&
  !(x.op == 1 && x.len == 0) && !(x.op == 0 && x.len == 0 && mode == 2) && !(x.op == 5 && x.len % 8 != 0)

/-- Bytes an operation reads. -/
def XferOp.reads (x : XferOp) : Nat := if x.op == 1 || x.op == 4 || x.op == 5 then x.len else 0

/-- The last operation ends in STOP whatever its CTRL says (R68). -/
def stopLast : List XferOp → List XferOp
  | [] => []
  | [x] => [{ x with stop := true }]
  | x :: l => x :: stopLast l

/-- The operations of an XFER payload; `none` when it is malformed (R68, R491). -/
def xferParse (mode : Nat) (p : Bytes) : Option (List XferOp) :=
  let n := rd p 2 2
  if p.length < 4 || n == 0 || decide (16 < n) || decide (8 ≤ rd p 0 1) then none
  else match xferOps n (p.drop 4) with
    | some (l, []) => if l.all (xferOpOk mode) && decide ((l.map XferOp.reads).sum ≤ 3968) then some (stopLast l) else none
    | _ => none

/-- Change controller `i`. -/
def Dev.onI2c (d : Dev) (i : Nat) (f : I2cCtl → I2cCtl) : Dev :=
  { d with ctl := { d.ctl with i2c := modAt d.ctl.i2c i f } }

/-- The bring-up script that runs: they run one at a time in number order (R441). -/
def Dev.scriptNow (d : Dev) : Option Script :=
  ((List.range 64).find? (fun k => d.pwr.running.any (fun r => r.1 == k))).bind (fun k => d.pwr.scripts.find? (fun (s : Script) => s.no == k))

/-- Whether a script runs on a controller, so that XFERs wait (R69). -/
def Dev.scriptOn (d : Dev) (i : Nat) : Bool := d.scriptNow.any (fun (s : Script) => s.ctl == i)

/-- The SCL rate of a controller in kHz (Table 3.15). -/
def Dev.busKhz (d : Dev) (i : Nat) : Nat := if d.cn P.i2c_mode i == 2 then d.cn P.i2c_i3c_khz i else d.cn P.i2c_i2c_khz i

/-- A transfer goes to the bus; the first after a takeover comes behind the bus recovery of R69: up to 9 clocks and STOP (R350). -/
def Dev.sayBus (d : Dev) (i : Nat) (ops : List XferOp) : Dev :=
  let d := if bit d.pair.joins i then
      ({ d with pair := { d.pair with joins := setBit d.pair.joins i false } } : Dev).say (.busStop i 9)
    else d
  d.say (.bus i (d.busKhz i) ops)

/-- A controller takes a transfer: it starts if the controller is free and no script runs on it, else it waits (R69). -/
def Dev.startXfer (d : Dev) (i : Nat) (x : Xfer) : Dev :=
  let c := d.ctl.i2c.getD i {}
  if c.running.isNone && !d.scriptOn i && !d.pinsHeld 2 then (d.onI2c i (fun c => { c with running := some x })).sayBus i x.ops
  else d.onI2c i (fun c => { c with queue := c.queue ++ [x] })

/-- XFER (R68, R69). -/
def handleXfer (d : Dev) (n : Now) (m : Msg) : Dev :=
  let p := m.j.payload
  let i := rd p 0 1
  let slot := slotOf m.j.session
  let mode := d.cn P.i2c_mode i
  match xferParse (if mode == 0 then 2 else mode) p with
  | none => d.reject m 0x8221
  | some ops =>
    if mode == 0 || !d.holds n.abs slot 0x0F i then d.reject m 0x8220
    else match xferParse mode p with
      | none => d.reject m 0x8221
      | some _ =>
        let c := d.ctl.i2c.getD i {}
        if (c.running.isSome || d.scriptOn i) && decide (4 ≤ c.queue.length) then d.reject m 0x8224
        else d.startXfer i { slot := slot, session := m.j.session, seq := m.j.seq, route := m.route, ops := ops }

/-- The next waiting transfer of a controller starts. -/
def Dev.nextXfer (d : Dev) (i : Nat) : Dev :=
  match (d.ctl.i2c.getD i {}).queue with
  | [] => d.onI2c i (fun c => { c with running := none })
  | x :: q =>
    if d.scriptOn i || d.pinsHeld 2 then d.onI2c i (fun c => { c with running := none })
    else (d.onI2c i (fun c => { c with running := some x, queue := q })).sayBus i x.ops

/-- How a transfer has gone so far (R69): operations completed, the data read, the NACKs met, the status, and of one that failed the SCL
clocks before its STOP (`none` where the spec names no STOP). -/
structure XferRun where
  done   : Nat := 0
  data   : Bytes := []
  naks   : Nat := 0
  status : Nat := 0
  clocks : Option Nat := none
  stuck  : Bool := false
  deriving DecidableEq, Repr, Inhabited

/-- One operation on the bus (R69): SDA held low; an operation over `i2c.timeout_us`; an address not acknowledged after `i2c.retries`
retries; a data byte not acknowledged; else it completes. -/
def XferRun.op (r : XferRun) (retries timeout : Nat) (x : XferOp) (a : BusAnswer) : XferRun :=
  match a.held with
  | some k => { r with status := 0x8223, clocks := some (min 9 k), stuck := true }
  | none =>
    if timeout < a.us then { r with status := 0x8223, naks := r.naks + min a.naks (retries + 1) }
    else if retries < a.naks then { r with status := 0x8222, naks := r.naks + (retries + 1), clocks := some 0 }
    else if a.dataNack then { r with status := 0x8222, naks := r.naks + a.naks + 1, clocks := some 0 }
    else { r with done := r.done + 1, naks := r.naks + a.naks, data := r.data ++ pad4 (a.data.take x.reads) }

/-- The operations of a transfer in turn, up to the first that fails (R69). -/
def xferRun (retries timeout : Nat) : List XferOp → List BusAnswer → XferRun → XferRun
  | [], _, r => r
  | x :: l, as, r =>
    let r := r.op retries timeout x (as.headD {})
    if r.status == 0 then xferRun retries timeout l (as.drop 1) r else r

/-- The data of an XFER reply (R68): operations completed, then what was read. -/
def XferRun.reply (r : XferRun) : Bytes := leBytes 2 r.done ++ leBytes 2 0 ++ r.data

/-- XFER_COMPLETE (R69): the transfer in progress ends, its reply waits for the next message window, the next one starts. -/
def xferComplete (d : Dev) (n : Now) (i : Nat) (as : List BusAnswer) : Dev :=
  match (d.ctl.i2c.getD i {}).running with
  | none => d
  | some x =>
    let r := xferRun (d.cn P.i2c_retries i) (d.cn P.i2c_timeout_us i) x.ops as {}
    let d := d.onI2c i (fun c => { c with nacks := sat 16 (c.nacks + r.naks), stuck := r.stuck })
    let d := match r.clocks with | some k => d.say (.busStop i k) | none => d
    let d := if r.stuck then d.raise n 0x0222 whole (leBytes 1 i) else d
    let d := d.hold ⟨x.slot, x.session, 0x0220, x.seq, x.route, r.status, r.reply⟩
    d.nextXfer i

/-- The I²C/I3C pins follow the ownership of the outputs (R350): transfers on a unit that gives the pins up are lost; the new owner
recovers each bus (R69) and goes on with what waits. `was`: OWN_OUT before. -/
def Dev.busFollow (d : Dev) (n : Now) (was : Bool) : Dev :=
  if d.cn P.pair_enable 0 != 1 || !bit (d.cn P.pair_shared 0) 2 || d.pair.ownOut == was then d
  else if was then
    (List.range 8).foldl (fun d i =>
      let c := d.ctl.i2c.getD i {}
      let d := (c.running.toList ++ c.queue).foldl (fun d x =>
        d.hold ⟨x.slot, x.session, 0x0220, x.seq, x.route, 0x8223, leBytes 2 0 ++ leBytes 2 0⟩) d
      d.onI2c i (fun c => { c with running := none, queue := [] })) d
  else if d.pwr.mode != .takeover then d
  else
    (List.range 8).foldl (fun d i =>
      if d.cn P.i2c_mode i == 0 then d else
        let d := d.raise n 0x0222 whole (leBytes 1 i)
        if (d.ctl.i2c.getD i {}).running.isNone then d.nextXfer i else d) d

/-- The DETAIL of 0x0221 (R70). -/
def ibiDetail (addr : Nat) (p : Bytes) : Bytes := leBytes 1 addr ++ leBytes 1 (min 8 p.length) ++ fit 8 p ++ leBytes 2 0

/-- I3C_IBI (R70): 0x0221 to the holder of the controller's lease, or to every subscriber. A Hot-Join request, which comes from address
0x02 (I3C Basic; assumption 66), is not acknowledged. -/
def i3cIbi (d : Dev) (n : Now) (i addr : Nat) (p : Bytes) : Dev :=
  if d.cn P.i2c_mode i != 2 then d
  else if addr == 2 then d.say (.ibi i addr false)
  else
    let d := d.say (.ibi i addr true)
    match d.ctl.leases.find? (fun l => l.kind == 0x0F && l.idx == i && l.live n.abs) with
    | some l => d.raiseTo n l.slot 0x0221 i (ibiDetail addr p)
    | none => d.raise n 0x0221 i (ibiDetail addr p)

end Sys2Proof.Machine
end

