-- ==== Sys2Proof/Machine/Apply.lean ====
section
/-!
DEFINITION. What happens to an accepted commit at its effective boundary (R9, R21, R89 to R93), expiry policies (R60, R61), and how the
blocks follow their heat-class settings.
-/

namespace Sys2Proof.Machine

/-! ## Writing entries (R9, R11, R21) -/

/-- Note that a raster key was written; a change stays noted. -/
def dirtyAdd (l : List Nat) (key : Nat) (changed : Bool) : List Nat :=
  let was := l.any (fun x => x == 2 * key + 1)
  (2 * key + b2n (changed || was)) :: l.filter (fun x => x / 2 != key)

/-- The takes-effect class of a definition. -/
def takesOf (id : Nat) : TakesEffect :=
  match paramDef id with
  | some p => p.takes
  | none => .immediate

/-- Whether a write of a key is noted until a latch line of its output (R492): a raster-bound one waits for its transfer, and any other parameter of
an output touches it (R90, R248, R250, R261, R268). -/
def Dev.noted (d : Dev) (id inst : Nat) : Bool :=
  rasterBound id || (coveredBy d.variant id inst).any (fun r => r.1 == kTx || r.1 == kMould || r.1 == kChk)

/-- One entry enters the configuration: a boot-class value waits for the next start, any other becomes the value GET returns. -/
def Dev.applyEntry (d : Dev) (e : Entry) : Dev :=
  let key := pkey e.id e.inst
  match takesOf e.id with
  | .boot => { d with par := { d.par with bootPending := d.par.bootPending.put key e.val } }
  | _ =>
    let changed := d.par.committed.val e.id e.inst != e.val
    let d : Dev := if d.noted e.id e.inst then { d with dirty := dirtyAdd d.dirty key changed } else d
    { d with par := { d.par with committed := d.par.committed.put key e.val } }

/-- What the write of an entry does besides its value: the parameters that act (R172, R441, R465), the quench of a port (R61), the driver
monitor (R458). Of the three that act, `cru.ecc_inject` alone clears itself (R172); the others keep the value written (R11). -/
def Dev.writeAction (d : Dev) (n : Now) (e : Entry) : Dev :=
  let v := e.val.toNat
  if e.id == P.cru_ecc_inject then
    let d := d.setC P.cru_ecc_inject 0 (numVal 0)
    if bit v 8 || bit v 9 then { d with cru := { d.cru with inject := some (v % 64, bit v 9) } } else d
  else if e.id == P.dev_script_run then
    if v == 0xFF then d else { d with pwr := { d.pwr with running := d.pwr.running ++ [(v, n.abs)] } }
  else if e.id == P.flt_inject then
    { d with flt := { d.flt with inject := some (bits v 0 5, bits v 8 8) } }
  else
    let d : Dev := if coveredBy d.variant e.id e.inst == some (kTx, e.inst) && (groupOf e.id).map (·.base) == some group_txp.base then
        d.onTx e.inst (fun t => { t with quenched := false })
      else d
    if e.id == P.txp_enable && v == 1 && bit d.flt.txDown e.inst then
      { d with flt := { d.flt with
        txDown := setBit d.flt.txDown e.inst false, txRunAt := modAt d.flt.txRunAt e.inst (fun _ => some n.abs) } }
    else d

/-! ## The blocks follow (R21, R89) -/

/-- The IDs written for an instance of a group. -/
def idsOf (base inst : Nat) (es : List Entry) : List Nat :=
  (es.filter (fun e => e.inst == inst && (groupOf e.id).map (·.base) == some base)).map (·.id)

/-- Every block follows its heat-class settings after entries were written: `es` are those that changed a value. -/
def Dev.followAll (d : Dev) (n : Now) (es : List Entry) : Dev :=
  let d := (List.range d.nRx).foldl (fun d i => d.rxFollow n i (idsOf group_rxp.base i es)) d
  let d := (d.ethFollow n).clocksFollow n
  let d := d.txFollowAll n
  let d := d.streamsFollow n
  let d := (List.range 12).foldl (fun d p => d.sapFollow n p (idsOf group_sap.base p es)) d
  let d := (List.range 4).foldl (fun d i => d.pdmFollow n i) d
  let d := (List.range 16).foldl (fun d i => d.tunFollow n i) d
  let d := (List.range 8).foldl (fun d i => d.eaudFollow i) d
  let d := (List.range d.nMould).foldl (fun d m => (List.range 8).foldl (fun d w => d.winFollow m w) (d.ingotFollow m)) d
  d.morFollow n (es.any (fun e => has [P.pair_mor_enable, P.pair_mor_cupola, P.pair_mor_ffe_init] e.id))

/-! ## One commit (R30, R89, R90) -/

/-- The record of an output touched (R30, R90): the first pour that shows the change; late when that is after the foretold one. -/
def Dev.outRecord (d : Dev) (c : Commit) (beyond : Bool) (reseats : List Nat) (g : Nat) : OutRec :=
  let rs := has reseats g
  let pour := d.shownPour g rs
  let expect := ((c.expect.find? (fun p => p.1 == g)).map (·.2)).getD pour
  ⟨g, newer pour expect, rs, beyond, pour⟩

/-- A commit takes effect (R89): its entries are written in order, blocks follow, reseats become effective, and its outputs' records are
taken; 0x0803 for each late output, 0x0231 when its target was missed or a re-check deferred it (R91, R93): R62 sends both to every
session. -/
def Dev.applyCommit (d : Dev) (n : Now) (c : Commit) : Dev :=
  let a := d.projected d.par.committed
  let kept := c.entries.filter (fun e => takesOf e.id != .boot)
  let b := d.projected (d.par.committed.write kept)
  let rs := reseatOutputs a b kept
  let touched := touchedOutputs a b c.entries
  let beyond := c.kind != 0 && decide (c.planned < n.heat)
  let changed := kept.filter (fun e => d.par.committed.val e.id e.inst != e.val)
  let d := c.entries.foldl (fun d e => d.applyEntry e) d
  let d := c.entries.foldl (fun d e => d.writeAction n e) d
  let outs := touched.map (d.outRecord c beyond rs)
  let d := d.followAll n changed
  let d := ((rs.foldl (fun d g => d.reseat n g) d).transferIdle).txFollowAll n
  let c : Commit := { c with state := .applied, eff := n.heat, outs := outs }
  let kept := d.txn.commits.map (fun (x : Commit) => if x.acc == c.acc then c else x)
  let kept := if c.slot < 32 then kept else kept.filter (fun x => x.acc != c.acc)
  let d : Dev := { d with txn := { d.txn with commits := kept } }
  let d := if c.slot < 32 then
      (outs.filter (·.late)).foldl (fun d o => d.raise n 0x0803 o.output (c.detail ++ leBytes 4 o.pour)) d
    else d
  if (beyond || c.deferred) && decide (c.slot < 32) then d.raise n 0x0231 whole c.heatDetail else d

/-- Whether a due commit can transfer at its boundary: its shadow sets are complete, its re-check is done, its journal record is released
(R32, R93, R358). -/
def Commit.ready (c : Commit) : Bool := c.shadow && !c.recheck && c.jseq.isNone

/-- Commits due at this boundary (R89): those that can transfer do, in order of acceptance; the others wait for the next boundary; one that a
re-check holds is deferred (R93). -/
def Dev.applyDue (d : Dev) (n : Now) : Dev :=
  let due := d.txn.commits.filter (fun c => c.state == .pending && decide (c.eff ≤ n.heat))
  due.foldl (fun d c =>
    if c.ready then d.applyCommit n c
    else
      { d with txn := { d.txn with commits := d.txn.commits.map (fun (x : Commit) =>
        if x.acc == c.acc then { x with eff := n.heat + 1, deferred := x.deferred || x.recheck } else x) } }) d

/-- What a hard window does with a commit (R88, R92, R93): due at the next boundary, its shadow sets are written; one whose re-check is not
complete by now is deferred. `done`: the hard window finishes in this heat. -/
def Commit.hardWindow (c : Commit) (n : Now) (done : Bool) : Commit :=
  if !(c.state == .pending && decide (c.eff ≤ n.heat + 1)) then c
  else if c.recheck then { c with deferred := true }
  else if c.shadow then c
  else { c with writing := true, shadow := done }

/-- The hard window writes the shadow sets of commits due at the next boundary (R88, R92). -/
def Dev.writeShadows (d : Dev) (n : Now) (done : Bool) : Dev :=
  { d with txn := { d.txn with commits := d.txn.commits.map (fun c => c.hardWindow n done) } }

/-- The replies of applied commits go out in the message window after their boundary (R90, R261). -/
def Dev.commitReplies (d : Dev) (n : Now) : Dev :=
  let done := d.txn.commits.filter (fun c => c.state == .applied && decide (c.eff ≤ n.heat))
  let d : Dev := { d with txn := { d.txn with commits := d.txn.commits.filter (fun c => !(c.state == .applied && decide (c.eff ≤ n.heat))) } }
  done.foldl (fun d c =>
    match c.learn with
    | none => d.replyTo c.slot c.session c.route c.typ c.reqSeq 0 c.answer
    | some w =>
      let v := ((c.entries.head?).map (fun e => e.val.bytes)).getD []
      let k := v.length / 4
      (d.raiseTo n c.slot 0x0905 w (leBytes 1 k ++ [0#8] ++ leBytes 4 c.txn)).replyTo c.slot c.session c.route c.typ c.reqSeq 0
        (leBytes 1 k ++ leBytes 3 0 ++ leBytes 4 c.txn ++ v)) d

/-! ## Expiry policies (R60, R61) -/

/-- The parameter instances a resource's lease covers, with the pattern's values (R61 policy 3), where they differ from those in force. -/
def Dev.revertEntries (d : Dev) (kind idx : Nat) : List Entry :=
  (mirroredKeys d.variant).filterMap (fun k =>
    if coveredBy d.variant k.1 k.2 == some (kind, idx) then
      let v := d.par.pattern.val k.1 k.2
      if d.par.committed.val k.1 k.2 == v then none else some ⟨k.1, k.2, v⟩
    else none)

/-- The pattern's values return as a commit of the device: at this boundary, or through the journal while the units are mirrored. -/
def Dev.revert (d : Dev) (n : Now) (kind idx : Nat) : Dev :=
  let d' := d.deviceCommit n (d.revertEntries kind idx)
  let eff := if d.pair.mirrored then n.heat + 2 else n.heat
  { d' with txn := { d'.txn with commits := d'.txn.commits.map (fun (c : Commit) =>
      if c.acc == d.txn.nextAcc then { c with eff := eff, planned := eff } else c) } }

/-- The mould that drives the generator of a port in the configuration in force. -/
def Dev.portMould (d : Dev) (g : Nat) : Option Nat := (List.range d.nMould).find? (fun m => d.cn P.mould_output m == g)

/-- A mould's output has news for idle refresh: a scene or a quench (R250). -/
def Dev.mouldNews (d : Dev) (m : Nat) : Dev :=
  let g := d.cn P.mould_output m
  (d.tgChanged g).onTg g (fun t => { t with news := some 3 })

/-- One expiry policy takes effect (R60 step 3, R61). -/
def Dev.applyExpiry (d : Dev) (n : Now) (e : Expiry) : Dev :=
  let m := if e.kind == kMould then some e.idx else if e.kind == kTx then d.portMould e.idx else none
  if d.heldByAny n.abs e.kind e.idx then d
  else if e.policy == 1 then
    match m with
    | some m => (d.onMould m (fun x => { x with unleased := some e.scene })).mouldNews m
    | none => d.revert n e.kind e.idx
  else if e.policy == 2 then
    match m with
    | some m => (d.onMould m (fun x => { x with quench := true })).mouldNews m
    | none => if e.kind == kTx then ((d.onTx e.idx (fun t => { t with quenched := true })).streamsFollow n).txFollow n e.idx else d
  else if e.policy == 3 then d.revert n e.kind e.idx
  else d

/-- The expiry policies due at this boundary. -/
def Dev.applyExpiries (d : Dev) (n : Now) : Dev :=
  let due := d.ctl.expiries.filter (fun e => decide (e.due ≤ n.heat))
  let d : Dev := { d with ctl := { d.ctl with expiries := d.ctl.expiries.filter (fun e => !decide (e.due ≤ n.heat)) } }
  due.foldl (fun d e => d.applyExpiry n e) d

/-- COMMIT_EFFECTIVE (R89): the transfers of this heat's boundary: expiry policies, then commits. -/
def commitEffective (d : Dev) (n : Now) : Dev := (d.applyExpiries n).applyDue n

end Sys2Proof.Machine
end

