-- ==== Sys2Proof/Machine/Pattern.lean ====
section
/-!
DEFINITION. The pattern body (R438 to R443): its records, the pattern buffers, scenes and scripts, and its application.
-/

namespace Sys2Proof.Machine

/-- "Pattern invalid on this device". -/
abbrev patternBad : Nat := 0x8E10

/-! ## Records (R438, Table 19.5) -/

/-- A record of a pattern body: TYPE, its offset in the body, CRITICAL, value. -/
structure PatRec where
  typ  : Nat
  off  : Nat
  crit : Bool
  val  : Bytes
  deriving DecidableEq, Repr

/-- Exactly `k` records that fill some bytes. -/
def patRecs : Nat → Nat → Bytes → Option (List PatRec)
  | 0, _, b => if b.isEmpty then some [] else none
  | k + 1, off, b =>
    let len := rd b 4 4
    let size := 8 + ceilDiv len 4 * 4
    if b.length < 8 || b.length < size then none
    else (patRecs k (off + size) (b.drop size)).map (fun l => ⟨rd b 0 2, off, bit (rd b 2 2) 0, slice b 8 len⟩ :: l)

/-- A data item of a buffer record (R439). -/
structure PatItem where
  slot   : Nat
  plane  : Nat
  offset : Nat
  data   : Bytes
  deriving DecidableEq, Repr

/-- A buffer record (R439). -/
structure PatBuf where
  index : Nat
  req   : CreateReq
  items : List PatItem
  deriving DecidableEq, Repr

/-- Exactly `k` data items that fill some bytes. -/
def patItems : Nat → Bytes → Option (List PatItem)
  | 0, b => if b.isEmpty then some [] else none
  | k + 1, b =>
    let len := rd b 8 4
    if b.length < 12 + len then none
    else (patItems k (b.drop (12 + len))).map (fun l => ⟨rd b 0 1, rd b 1 1, rd b 4 4, slice b 12 len⟩ :: l)

/-- Read a buffer record. -/
def patBuf (v : Bytes) : Option PatBuf :=
  if v.length < 20 || decide (1023 < rd v 0 2) then none
  else (patItems (rd v 16 2) (v.drop 20)).map (fun l => ⟨rd v 0 2, createReq (slice v 4 12), l⟩)

/-- The entries that fill some bytes; `fuel` bounds their number. -/
def fillEntries : Nat → Bytes → Option (List RawEntry)
  | 0, b => if b.isEmpty then some [] else none
  | k + 1, b =>
    if b.isEmpty then some []
    else match takeEntry b with
      | none => none
      | some (e, rest) => (fillEntries k rest).map (fun l => e :: l)

/-- As many entries as fill some bytes. -/
def allEntries (b : Bytes) : Option (List RawEntry) := fillEntries (b.length / 8 + 1) b

/-- A scene record (R440) and its entries. -/
def patScene (v : Bytes) : Option (Scene × List RawEntry) :=
  if v.length < 16 || decide (63 < rd v 0 1) || decide (15 < rd v 2 1) then none
  else (takeEntries (rd v 12 2) (v.drop 16)).map (fun l =>
    ({ no := rd v 0 1, mould := rd v 1 1, prio := rd v 2 1, mask := rd v 3 1 % 32, minShow := rd v 8 1
       loss := ((slice v 4 4).map (fun b => b.toNat)).filter (· != 0xFF)
       values := l.foldl (fun s e => s.put (pkey e.id e.inst) e.entry.val) [] }, l))

/-- An operation of a bring-up script (R441): OP, ADDR, PIN, CTRL, LEN and its data. -/
structure ScrOp where
  op   : Nat
  addr : Nat
  pin  : Nat
  ctrl : Nat
  len  : Nat
  data : Bytes
  deriving DecidableEq, Repr

/-- The data bytes of an operation. -/
def scrLen (op len : Nat) : Nat := match op with | 0 => len | 1 => 8 | 2 => 4 | _ => 0

/-- The operations that fill some bytes; `fuel` bounds their number. -/
def scrOps : Nat → Bytes → Option (List ScrOp)
  | 0, b => if b.isEmpty then some [] else none
  | k + 1, b =>
    if b.isEmpty then some []
    else
      let op := rd b 0 1
      let n := scrLen op (rd b 4 2)
      let size := 8 + ceilDiv n 4 * 4
      if b.length < size || decide (4 < op) || (op == 1 && !(decide (1 ≤ rd b 4 2) && decide (rd b 4 2 ≤ 4))) then none
      else (scrOps k (b.drop size)).map (fun l => ⟨op, rd b 1 1, rd b 2 1, rd b 3 1, rd b 4 2, slice b 8 n⟩ :: l)

/-- The operations of a script. -/
def Script.list (s : Script) : List ScrOp := (scrOps (s.ops.length / 8 + 1) s.ops).getD []

/-- Read a script record. -/
def patScript (v : Bytes) : Option Script :=
  let ops := v.drop 4
  if v.length < 4 || decide (63 < rd v 0 1) || decide (7 < rd v 1 1) || (scrOps (ops.length / 8 + 1) ops).isNone then none
  else some ⟨rd v 0 1, rd v 1 1, rd v 2 1 % 8, rd v 3 1, ops⟩

/-- What a pattern body holds: entries in body order with later ones in place of earlier ones, buffers, scenes, scripts, name, and the
records skipped with TYPE and offset. -/
structure Pattern where
  entries : List Entry := []
  raw     : List RawEntry := []
  bufs    : List PatBuf := []
  scenes  : List (Scene × List RawEntry) := []
  scripts : List Script := []
  name    : Bytes := []
  skipped : List (Nat × Nat) := []
  deriving DecidableEq, Repr

/-- One record joins a pattern; `none` when it is malformed or unknown. -/
def Pattern.add (p : Pattern) (r : PatRec) : Option Pattern :=
  match r.typ with
  | 1 => (allEntries r.val).map (fun l =>
      { p with entries := l.foldl (fun es e => stageEntry es e.entry) p.entries, raw := p.raw ++ l })
  | 2 => (patBuf r.val).map (fun b => { p with bufs := p.bufs ++ [b] })
  | 3 => (patScene r.val).map (fun s => { p with scenes := p.scenes ++ [s] })
  | 4 => (patScript r.val).map (fun s => { p with scripts := p.scripts ++ [s] })
  | 5 => if r.val.isEmpty || decide (64 < r.val.length) then none else some { p with name := r.val }
  | _ => none

/-- Read a body (R438): a record that is malformed or unknown is skipped, or makes the pattern invalid when CRITICAL is set. -/
def readPattern (b : Bytes) : Option Pattern :=
  if b.length < 8 || slice b 0 4 != ascii "ELP1" then none
  else match patRecs (rd b 4 4) 8 (b.drop 8) with
    | none => none
    | some l => l.foldl (fun acc r => acc.bind (fun p =>
        match p.add r with
        | some q => some q
        | none => if r.crit then none else some { p with skipped := p.skipped ++ [(r.typ, r.off)] })) (some {})

/-! ## Pattern buffers (R158, R439) -/

/-- A pattern buffer's place in a live machine: a free index takes it; a pattern buffer of the same descriptor keeps its slots. -/
def Dev.placePatBuf (d : Dev) (p : PatBuf) : Option Dev :=
  match d.cru.bufs.find? (fun b => b.index == p.index) with
  | some b => if b.owner == 0xFF && b.gen == 1 && strideOf p.req.fmt p.req.width p.req.stride == some b.stride &&
        b.fmt == p.req.fmt && b.retained == p.req.retained && b.depth == p.req.depth && b.width == p.req.width && b.height == p.req.height
      then some d else none
  | none =>
    let r := p.req
    match strideOf r.fmt r.width r.stride with
    | none => none
    | some stride =>
      if !knownFormat r.fmt || !sizeOk r.fmt r.width r.height || decide (r.depth < 1) || decide (3 < r.depth) then none
      else match allocSlots d.usedGranules r.retained (ceilDiv (slotBytes r.fmt r.height stride) 4096) r.depth with
        | none => none
        | some slots =>
          let b : Buf := { index := p.index, gen := 1, fmt := r.fmt, retained := r.retained, owner := 0xFF, depth := r.depth
                           width := r.width, height := r.height, stride := stride, slots := slots }
          some { d with cru := { d.cru with
            bufs := d.cru.bufs ++ [b], gens := (p.index, 1) :: d.cru.gens.filter (fun g => g.1 != p.index) } }

/-- Whether a data item lies in its buffer. -/
def PatBuf.itemOk (p : PatBuf) (i : PatItem) : Bool :=
  match strideOf p.req.fmt p.req.width p.req.stride with
  | some stride => decide (i.slot < p.req.depth) && decide (i.plane < fmtPlanes p.req.fmt) &&
      decide (i.offset + i.data.length ≤ stride * planeLines p.req.fmt i.plane p.req.height)
  | none => false

/-- Every pattern buffer is placed; `none` when one does not fit (R442). -/
def Dev.placePatBufs (d : Dev) (l : List PatBuf) : Option Dev :=
  l.foldl (fun acc p => acc.bind (fun d => if p.items.all p.itemOk then d.placePatBuf p else none)) (some d)

/-- One data item is written as an upload would write it; its slot becomes Complete (R439). -/
def writePatItem (x : DM) (p : PatBuf) (i : PatItem) : DM :=
  let handle := p.index + 0x0400
  match x.dev.buf handle with
  | none => x
  | some b =>
    let s := b.slot i.slot
    let mem := slotWrites x.mem s (planeStart b.fmt b.height b.stride i.plane + i.offset) i.data
    let d := x.dev.onBufSlot handle i.slot (fun r => { r with writes := r.writes + 1, damaged := false })
    let d := if s.state == .complete && s.byUpload then d else d.completeSlot 0 handle i.slot
    ⟨d.onBufSlot handle i.slot (fun r => { r with byUpload := true, upCrc := some (planesCrc mem b s) }), mem⟩

/-- The data of every pattern buffer. -/
def writePatBufs (x : DM) (l : List PatBuf) : DM := l.foldl (fun x p => p.items.foldl (fun x i => writePatItem x p i) x) x

/-! ## Scenes (R440, R442) -/

/-- The code of an entry that a scene may not hold, or whose value is out of range. -/
def Dev.sceneEntryCode (d : Dev) (m : Nat) (e : RawEntry) : Option Nat :=
  let own : Bool := match coveredBy d.variant e.id e.inst with
    | some (k, i) => ((k == kMould || k == kChk) && i == m && e.id != P.mould_output) ||
        (k == kTx && d.cn P.mould_output m == i)
    | none => false
  match e.syntaxCode d.variant with
  | some c => some c
  | none => if own then rangeCode d.variant e.entry else some 0x8909

/-- Why a scene fails (R271, R442), in the projection with the scene shown. -/
def Dev.sceneCode (d : Dev) (s : Scene) (l : List RawEntry) : Option Nat :=
  if d.nMould ≤ s.mould then some 0x8213
  else match l.findSome? (d.sceneEntryCode s.mould) with
    | some c => some c
    | none =>
      if s.loss.any (fun i => decide (instances d.variant P.vl_source ≤ i)) then some 0x8213
      else
        let p := d.projNow
        let shown : Proj := ⟨s.values.foldl (fun st kv => st.put kv.1 kv.2) p.store, p.pk⟩
        let before := d.rulesOn p
        ((d.rulesOn shown).find? (fun b => !before.any (· == b))).map (·.code)

/-- The scenes are judged one by one (R442): a scene and why it is dropped. The second of two scenes with one number fails. -/
def Dev.judgeScenes (d : Dev) (l : List (Scene × List RawEntry)) : List (Scene × Option Nat) :=
  (l.foldl (fun (r : Dev × List (Scene × Option Nat)) sl =>
    let d := r.1
    match (if d.integ.scenes.any (fun x => x.no == sl.1.no) then some 0x8909 else d.sceneCode sl.1 sl.2) with
    | some c => (d, r.2 ++ [(sl.1, some c)])
    | none => (({ d with integ := { d.integ with scenes := d.integ.scenes ++ [sl.1] } } : Dev), r.2 ++ [(sl.1, none)]))
    (({ d with integ := { d.integ with scenes := [] } } : Dev), [])).2

/-- The scenes of a pattern come into force: those that pass stand, the others are dropped with 0x0105 and counted. -/
def Dev.loadScenes (d : Dev) (n : Now) (l : List (Scene × Option Nat)) : Dev :=
  let d : Dev := { d with integ := { d.integ with scenes := (l.filter (fun s => s.2.isNone)).map (·.1) } }
  l.foldl (fun d s => match s.2 with
    | some c => d.raise n 0x0105 whole (leBytes 1 s.1.no ++ leBytes 1 0 ++ leBytes 2 c)
    | none => d) d

/-- The handles that scenes name keep their buffers (R160). -/
def Dev.sceneRefs (d : Dev) : Dev :=
  { d with cru := { d.cru with sceneHandles := d.integ.scenes.flatMap (fun s => Store.handles s.values) } }

/-! ## The check of a pattern's parameters (R417, R442) -/

/-- The failures of a device commit by all four stages of Table 4.3. -/
def Dev.patternFails (d : Dev) (p : Pattern) (es : List Entry) : List Failure :=
  let d : Dev := { d with integ := { d.integ with scenes := p.scenes.map (·.1) }, pwr := { d.pwr with scripts := p.scripts } }
  let index (id inst : Nat) : Nat := failIndex d.variant es id inst
  let s0 := p.raw.filterMap (fun e => (e.syntaxCode d.variant).map (fun c => (⟨e.id, e.inst, c, index e.id e.inst⟩ : Failure)))
  let s1 := es.filterMap (fun e => ((rangeCode d.variant e).or (d.actionCodes e).head?).map (fun c => (⟨e.id, e.inst, c, index e.id e.inst⟩ : Failure)))
  let rules := (d.projectionFails 0 0 [] es).filter (fun b => !(d.projectionFails 0 0 [] []).any (· == b) || b.touched d.variant es)
  (s0 ++ s1 ++ (Broken.distinct rules).map (fun b => (⟨b.id, b.inst, b.code, index b.id b.inst⟩ : Failure))).take 32

/-- A pattern's parameter values. -/
def Pattern.store (p : Pattern) : Store := p.entries.foldl (fun s e => s.put (pkey e.id e.inst) e.val) []

/-- The unleased trigger holds from boot for the moulds whose own or whose port's expiry policy is scene (R268). -/
def Dev.unleaseAll (d : Dev) : Dev :=
  (List.range d.nMould).foldl (fun d m =>
    let g := d.cn P.mould_output m
    let own := d.expiryOf kMould m
    let port := d.expiryOf kTx g
    let pick := if own.1 == 1 then some own.2 else if decide (g < d.nTx) && port.1 == 1 then some port.2 else none
    match pick with
    | some z => d.onMould m (fun x => { x with unleased := some z })
    | none => d) d

/-- A pattern is applied at a start (R442): its buffers, then its parameters as one commit of the device, then scenes and scripts. The
code of the failure when it is invalid. -/
def applyPattern (x : DM) (n : Now) (p : Pattern) : Except Nat DM :=
  match x.dev.placePatBufs p.bufs with
  | none => .error patternBad
  | some d =>
    match d.patternFails p p.entries with
    | f :: _ => .error f.code
    | [] =>
      let x := writePatBufs ⟨d, x.mem⟩ p.bufs
      let d := x.dev
      let pend : List Entry := d.par.bootPending.map (fun kv => ⟨kv.1 / 256, kv.1 % 256, kv.2⟩)
      let now := (p.entries.filter (fun e => takesOf e.id == .boot)) ++ pend
      let d := now.foldl (fun d e => d.setC e.id e.inst e.val) d
      let d : Dev := { d with par := { d.par with pattern := p.store, bootPending := [] }, pwr := { d.pwr with scripts := p.scripts } }
      let d := p.skipped.foldl (fun d s => d.raise n 0x0103 whole (leBytes 2 s.1 ++ leBytes 4 s.2)) d
      let d : Dev := { d with integ := { d.integ with scenes := p.scenes.map (·.1) } }
      let later := p.entries.filter (fun e => takesOf e.id != .boot)
      let early := later.foldl (fun (s : Store) e => s.put (pkey e.id e.inst) e.val) d.par.committed
      let judged := (d.projected early).judgeScenes p.scenes
      let d := (d.loadScenes n judged).sceneRefs
      let dropped := (judged.filter (fun s => s.2.isSome)).length
      let c : Commit :=
        { acc := d.txn.nextAcc, slot := 32, session := 0, txn := 0, isSet := false, entries := later, kind := 0, output := 0
          target := 0, eff := n.heat, planned := n.heat, shadow := true, writing := true, state := .pending, recheck := false
          route := ⟨0, 0, 0⟩, reqSeq := 0, cycles := 0, outs := [], adjusts := [], jseq := none }
      let d := d.applyCommit n c
      let d := d.unleaseAll
      let d := d.setS P.dev_pattern_name 0 (.blob p.name)
      .ok ⟨d.setSN P.dev_pattern_status 0 (sat 8 dropped * 256 + sat 16 p.skipped.length * 65536), x.mem⟩

end Sys2Proof.Machine
end

