-- ==== Sys2Proof/Machine/Snapshot.lean ====
section
/-!
DEFINITION. Snapshots (R362, R363): what the active unit captures, the frames of channel 2, and how the standby applies them.
-/

namespace Sys2Proof.Machine

/-! ## Capture (R362, Table 16.4) -/

/-- A section: TYPE, reserved, LEN, and the body padded. -/
def section_ (typ : Nat) (body : Bytes) : Bytes := leBytes 2 typ ++ leBytes 2 0 ++ leBytes 4 body.length ++ pad4 body

/-- Section 2: the buffers. -/
def Dev.snapBufs (d : Dev) : Bytes :=
  d.cru.bufs.flatMap (fun b => leBytes 2 b.handle ++ leBytes 2 0 ++ leBytes 4 b.counter ++ leBytes 8 (d.bufPartner b) ++ b.descriptor)

/-- The uploaded Complete slots: handle, slot, CRC. -/
def Dev.uploadedSlots (d : Dev) : List (Nat × Nat × Nat) :=
  d.cru.bufs.flatMap (fun b => (List.range b.slots.length).filterMap (fun i =>
    match (b.slot i).state, (b.slot i).upCrc with
    | .complete, some c => some (b.handle, i, c.toNat)
    | _, _ => none))

/-- Section 4: the leases. -/
def Dev.snapLeases (d : Dev) : Bytes :=
  d.ctl.leases.flatMap (fun l => leBytes 8 (d.leasePartner l) ++ leaseEntry l.kind l.idx 0 (d.expiryOf l.kind l.idx).1 l.deadline)

/-- Section 5: the running outputs. -/
def Dev.snapOutputs (d : Dev) : Bytes :=
  ((List.range d.nTx).filter (fun g => (d.tgen g).state != .stopped)).flatMap (fun g =>
    leBytes 1 g ++ leBytes 3 0 ++ leBytes 4 (d.tgen g).pour.toNat ++ (nowOf (d.tgen g).pourAt).stamp ++ leBytes 4 0)

/-- A layer's record of section 6. -/
def Dev.snapLayer (d : Dev) (m k : Nat) : Bytes :=
  let l := d.layer m k
  let left := match l.fade with | some f => f.len - f.k | none => 0
  leBytes 1 (layerInst m k) ++ leBytes 1 (b2n (decide (3 ≤ k))) ++ leBytes 1 l.alpha ++ leBytes 1 left ++ leBytes 1 l.run ++ leBytes 1 l.shows.code ++
    leBytes 2 0

/-- The pours of a scene's minimum show time that are left. -/
def Dev.showLeft (d : Dev) (m : Nat) : Nat :=
  match (d.mould m).scene.bind d.scene with
  | some s => s.minShow - (d.mould m).shown
  | none => 0

/-- Section 6: every layer, window and mould of the variant. -/
def Dev.snapRun (d : Dev) : Bytes :=
  let ms := List.range d.nMould
  ms.flatMap (fun m => [0, 1, 2].flatMap (fun k => d.snapLayer m k)) ++ ms.flatMap (fun m => [3, 4, 5, 6, 7].flatMap (fun k => d.snapLayer m k)) ++
    ms.flatMap (fun m => (List.range 8).flatMap (fun w =>
      leBytes 1 (winInst m w) ++ leBytes 1 (d.baseWin m w).misses ++ leBytes 1 (if (d.baseWin m w).acting then (d.baseWin m w).action else 0) ++ [0#8])) ++
    ms.flatMap (fun m => leBytes 1 m ++ leBytes 1 ((d.mould m).scene.getD 0xFF) ++ leBytes 2 (d.showLeft m))

/-- Section 7: the journal. -/
def Dev.snapJournal (d : Dev) : Bytes :=
  leBytes 4 d.pair.nextJseq ++ d.pair.journal.flatMap (fun r =>
    let b := leBytes 4 r.seq ++ leBytes 1 r.kind ++ leBytes 1 3 ++ leBytes 2 0 ++ leBytes 8 (r.heat % 2 ^ 48) ++ leBytes 8 r.partner ++ r.body
    leBytes 4 b.length ++ b)

/-- The stream of a snapshot captured now: sections 1 to 7 and the end. -/
def Dev.snapStream (d : Dev) (n : Now) : Bytes :=
  section_ 1 ((mirroredKeys d.variant).flatMap (fun k => d.entryOf k.1 k.2)) ++ section_ 2 d.snapBufs ++
    section_ 3 (d.uploadedSlots.flatMap (fun s => leBytes 2 s.1 ++ leBytes 1 s.2.1 ++ [0#8] ++ leBytes 4 s.2.2)) ++ section_ 4 d.snapLeases ++
    section_ 5 d.snapOutputs ++ section_ 6 d.snapRun ++ section_ 7 d.snapJournal ++
    section_ 0xFFFF (leBytes 8 d.configDigest.toNat ++ leBytes 8 (n.heat % 2 ^ 48))

/-- The frames of a stream on channel 2 (R362). -/
def snapFrames (id total : Nat) : Nat → Nat → Bytes → List Bytes
  | 0, _, _ => []
  | fuel + 1, off, b =>
    let f := leBytes 4 id ++ leBytes 4 off ++ leBytes 4 total ++ leBytes 4 0 ++ b.take 4144
    if b.length ≤ 4144 then [f] else f :: snapFrames id total fuel (off + 4144) (b.drop 4144)

/-- Send a stream. -/
def Dev.snapSend (d : Dev) (id : Nat) (b : Bytes) : Dev :=
  (snapFrames id b.length (b.length / 4144 + 1) 0 b).foldl (fun d f => d.morMessage 2 f) d

/-- The active unit captures at the boundary after a divergence (R363 step 1). Decisions pending then are journalled first, so that section
7 holds them. -/
def Dev.snapCapture (d : Dev) (n : Now) : Dev :=
  if d.pair.role == .active && d.pair.capture.isSome && d.mor.up then
    let d := d.onPair (fun p => { p with capture := none, captured := some n.heat })
    let d := (d.jCommits n.abs).jScenes n
    let d := d.snapSend d.pair.snapId (d.snapStream n)
    d.onPair (fun p => { p with sel := p.selNow })
  else d

/-- The slots a SNAP_REQ of reason 7 names, as section 8 (Table 16.4): each plane in whole. -/
def slotData (x : DM) (handle i : Nat) : Bytes :=
  match x.dev.buf handle with
  | none => []
  | some b =>
    (List.range (fmtPlanes b.fmt)).flatMap (fun p =>
      let n := b.stride * planeLines b.fmt p b.height
      section_ 8 (leBytes 2 handle ++ leBytes 1 i ++ leBytes 1 p ++ leBytes 4 0 ++ leBytes 4 n ++
        slotReads x.mem (b.slot i) (planeStart b.fmt b.height b.stride p) n))

/-- SNAP_REQ (R363): the active unit captures at the next boundary, or sends the slots that reason 7 names. -/
def snapReqReceive (x : DM) (n : Now) (b : Bytes) : DM :=
  match x.dev.pairOpen 0x0C03 b with
  | none => x
  | some (p, d) =>
    let reason := rd p 0 1
    if d.pair.role != .active || decide (p.length < 4) then ⟨d, x.mem⟩
    else if reason == 7 then
      let k := (p.length - 4) / 4
      let data := (List.range k).flatMap (fun i => slotData x (rd p (4 + 4 * i) 2) (rd p (6 + 4 * i) 1))
      let d := d.onPair (fun q => { q with snapId := (q.snapId + 1) % 2 ^ 32 })
      ⟨if data.isEmpty then d else d.snapSend d.pair.snapId data, x.mem⟩
    else if d.pair.resync.isSome then
      ⟨d.onPair (fun q => { q with capture := some reason, captured := none, snapId := (q.snapId + 1) % 2 ^ 32 }), x.mem⟩
    else ⟨d.startResync n reason, x.mem⟩

/-! ## Receiving (R362, R363) -/

/-- A snapshot failed (R363): it starts again; after 3 failures 0x0C0E, and no mirroring until the next link up or attach. -/
def Dev.snapFail (d : Dev) (n : Now) : Dev :=
  let k := d.pair.resyncFails + 1
  let d := (d.onPair (fun p => { p with snapIn := none, resyncFails := k, snapAt := n.heat })).bumpField P.pair_resync_stats 0 16 16 1
  if 3 ≤ k then
    (d.onPair (fun p => { p with stopped := true, resync := none })).raise n 0x0C0E whole (leBytes 1 k)
  else d.pairSend 0x0C03 (leBytes 1 ((d.pair.resync.map (·.2)).getD 6) ++ leBytes 3 0)

/-- A channel-2 frame (R362): the stream grows in order; a lost frame fails the snapshot. -/
def Dev.snapReceive (d : Dev) (n : Now) (b : Bytes) : Dev :=
  let id := rd b 0 4
  let off := rd b 4 4
  let total := rd b 8 4
  if decide (b.length < 16) || d.pair.role != .standby || !d.pairOn then d
  else if off == 0 then
    let d := if d.pair.resync.isNone && d.pair.snapIn.isNone && !d.pair.mirrored then d.onPair (fun p => { p with resync := some (n.heat, 6), snapAt := n.heat, since := [] }) else d
    d.onPair (fun p => { p with snapId := id, snapIn := some ⟨id, total, (b.drop 16).take total⟩ })
  else match d.pair.snapIn with
    | none => d
    | some s =>
      if s.id == id && s.bytes.length == off then
        d.onPair (fun p => { p with snapIn := some { s with bytes := (s.bytes ++ b.drop 16).take s.total } })
      else d.snapFail n

/-- The sections of a stream. -/
def sections : Nat → Bytes → List (Nat × Bytes)
  | 0, _ => []
  | fuel + 1, b =>
    let len := rd b 4 4
    if decide (b.length < 8) then [] else (rd b 0 2, slice b 8 len) :: sections fuel (b.drop (8 + roundUp 4 len))

/-- A section's body. -/
def secOf (l : List (Nat × Bytes)) (typ : Nat) : Bytes := ((l.find? (fun s => s.1 == typ)).map (·.2)).getD []

/-- Records of `k` bytes. -/
def snapChunks (b : Bytes) (k : Nat) : List Bytes := (List.range (b.length / max 1 k)).map (fun i => slice b (k * i) k)

/-! ## Applying (R363 step 2) -/

/-- Buffers become those of section 2. -/
def Dev.applyBufs (d : Dev) (n : Now) (b : Bytes) : Dev :=
  let l := snapChunks b 40
  let gone := d.cru.bufs.filter (fun x => !l.any (fun r => rd r 0 2 == x.handle))
  let d := gone.foldl (fun d x => d.deleteBuf n x 2) d
  l.foldl (fun d r =>
    let d := d.mirrorBuf (rd r 0 2) (rd r 4 4) (rd r 8 8) (r.drop 16)
    d.onBuf (rd r 0 2) (fun x => { x with counter := rd r 4 4 })) d

/-- The entries of section 1 that differ from those in force. -/
def Dev.snapEntries (d : Dev) (b : Bytes) : List Entry :=
  let count := (mirroredKeys d.variant).length
  let l := (takeEntries count b).getD []
  (l.map (fun e => (⟨e.id, e.inst, e.val⟩ : Entry))).filter (fun e => d.par.committed.val e.id e.inst != e.val)

/-- The frame time of output g in a configuration, in core cycles, as a ratio. -/
def Dev.framePeriod (d : Dev) (s : Store) (g : Nat) : Nat × Nat :=
  let r := (d.projected s).liveView.raster g
  ((r.head + r.act + r.fp) * r.line, max 1 r.hz)

/-- How an output stands to the active unit's pour `p` at `at_`: the number of its own last pour when they fall in the same core cycle. -/
def Dev.pourAligned (d : Dev) (g at_ p num den : Nat) : Option Nat :=
  let t := d.tgen g
  let hi := max t.pourAt at_
  let lo := min t.pourAt at_
  let x := (hi - lo) * den
  let k := (2 * x + num) / max 1 (2 * num)
  let off := if k * num ≤ x then x - k * num else k * num - x
  if t.state == .running && off < den then some ((if at_ ≤ t.pourAt then p + k else p + 2 ^ 32 - k) % 2 ^ 32) else none

/-- Outputs of section 5: those in step take the active unit's numbers; the others are to hold until one of its pours. The answer lists
them. -/
def Dev.applyOutputs (d : Dev) (s : Store) (b : Bytes) : Dev × List Nat :=
  (snapChunks b 24).foldl (fun (x : Dev × List Nat) r =>
    let d := x.1
    let g := rd r 0 1
    let p := rd r 4 4
    let at_ := (rd r 8 8 % 2 ^ 48) * heatCycles + rd r 16 4 % 2 ^ 17
    let (num, den) := d.framePeriod s g
    if !decide (g < d.nTx) then x
    else match d.pourAligned g at_ p num den with
      | some q => (d.onTg g (fun t => { t with pour := BitVec.ofNat 32 q }), x.2)
      | none => (d.onTg g (fun t => { t with follow := some (at_, p, num, den) }), x.2 ++ [g])) (d, [])

/-- Run state of section 6. -/
def Dev.applyRun (d : Dev) (b : Bytes) : Dev :=
  let nl := 8 * d.nMould
  let d := (snapChunks (b.take (8 * nl)) 8).foldl (fun d r =>
    let i := rd r 0 1
    let (m, k) := if rd r 1 1 == 0 then (i / 3, i % 3) else (i / 5, 3 + i % 5)
    d.onLayer m k (fun l => { l with
      alpha := rd r 2 1, run := rd r 4 1, policy := rd r 5 1 == Shows.code .held
      fade := if rd r 3 1 == 0 then none else some ⟨rd r 2 1, d.cn P.vl_alpha i % 256, rd r 3 1, 0⟩ })) d
  let d := (snapChunks (slice b (8 * nl) (4 * nl)) 4).foldl (fun d r =>
    d.onBaseWin (rd r 0 1 / 8) (rd r 0 1 % 8) (fun w => { w with misses := rd r 1 1, action := rd r 2 1, acting := rd r 2 1 != 0 })) d
  (snapChunks (b.drop (12 * nl)) 4).foldl (fun d r =>
    let m := rd r 0 1
    let no := rd r 1 1
    let d := d.onMould m (fun x => { x with scene := if no == 0xFF then none else some no })
    d.onMould m (fun x => { x with shown := match (x.scene.bind d.scene) with | some s => s.minShow - rd r 2 2 | none => 0 })) d

/-- The journal of section 7: the records not yet applied, and those received since. -/
def snapRecords : Nat → Bytes → List JRec
  | 0, _ => []
  | fuel + 1, b =>
    let len := rd b 0 4
    let r := slice b 4 len
    if decide (b.length < 4) || len == 0 then []
    else { seq := rd r 0 4, kind := rd r 4 1, heat := rd r 8 8 % 2 ^ 48, partner := rd r 16 8, body := r.drop 24 } :: snapRecords fuel (b.drop (4 + len))

/-- The journal after a snapshot. -/
def Dev.applyJournal (d : Dev) (b : Bytes) : Dev :=
  let next := rd b 0 4
  let old := snapRecords (b.length / 28 + 1) (b.drop 4)
  d.onPair (fun p => { p with
    journal := old ++ p.journal.filter (fun r => !newer next r.seq && !old.any (fun o => o.seq == r.seq))
    nextJseq := if newer next p.nextJseq then next else p.nextJseq })

/-- Uploaded slots whose CRC differs are asked for with reason 7 (R363). -/
def Dev.askSlots (d : Dev) (b : Bytes) : Dev :=
  let l := (snapChunks b 8).filter (fun r =>
    !d.uploadedSlots.any (fun s => s.1 == rd r 0 2 && s.2.1 == rd r 2 1 && s.2.2 == rd r 4 4))
  if l.isEmpty then d else d.pairSend 0x0C03 (leBytes 1 7 ++ leBytes 3 0 ++ l.flatMap (fun r => r.take 3 ++ [0#8]))

/-- Slot data of section 8 is written; its slot is Complete. -/
def applySlot (x : DM) (b : Bytes) : DM :=
  let handle := rd b 0 2
  let i := rd b 2 1
  match x.dev.buf handle with
  | none => x
  | some f =>
    let mem := slotWrites x.mem (f.slot i) (planeStart f.fmt f.height f.stride (rd b 3 1) + rd b 4 4) ((b.drop 12).take (rd b 8 4))
    ⟨x.dev.onBufSlot handle i (fun s => { s with
      state := .complete, byUpload := false, seq := f.counter, writes := s.writes + 1, upCrc := some (planesCrc mem f (f.slot i)) }), mem⟩

/-- The sections of a snapshot are taken (R363 step 2), in the order of Table 16.4, before the digest is compared. -/
def Dev.snapTaken (d : Dev) (n : Now) (l : List (Nat × Bytes)) : Dev :=
  let d := d.applyBufs n (secOf l 2)
  let es := d.snapEntries (secOf l 1)
  let (d, off) := d.applyOutputs (d.par.committed.write es) (secOf l 5)
  let c : Commit :=
    { acc := d.txn.nextAcc, slot := 33, session := 0, txn := 0, isSet := false, entries := es, kind := 0, output := 0, target := 0, eff := n.heat
      planned := n.heat, shadow := true, writing := true, state := .pending, recheck := false, route := ⟨0, 0, 0⟩, reqSeq := 0, cycles := 0
      outs := [], adjusts := [], jseq := none }
  let d := d.applyCommit n c
  let d := (off.filter (fun g => !(d.tgen g).reseat && (d.tgen g).state != .hold)).foldl (fun d g => d.reseat n g) d
  let d : Dev := { d with ctl := { d.ctl with leases := [] } }
  let d := (snapChunks (secOf l 4) 24).foldl (fun d r => d.mirrorLease (rd r 8 1) (rd r 9 1) ((rd r 12 8 % 2 ^ 48) * heatCycles + rd r 20 4 % 2 ^ 17) (rd r 0 8)) d
  (d.applyRun (secOf l 6)).applyJournal (secOf l 7)

/-- A snapshot whose digest matches (R363 step 2): the records released meanwhile are applied, the unit is resynchronised with 0x0C08, and
uploaded slots that differ are asked for. -/
def Dev.snapFinish (d : Dev) (n : Now) (s : SnapIn) (l : List (Nat × Bytes)) : Dev :=
  let heats := match d.pair.resync with | some r => n.heat - r.1 | none => 0
  let since := d.pair.since
  let due := d.pair.journal.filter (fun r => has since r.seq)
  let sel := (snapChunks (secOf l 2) 40).map (fun r => (rd r 0 2, rd r 4 4))
  let d := d.onPair (fun p => { p with
    digest := d.configDigest, digestAt := n.heat, since := [], journal := p.journal.filter (fun r => !has since r.seq)
    common := List.replicate 16 {}, sel := sel, selPrev := sel })
  let d := (due.foldl (fun d r => d.jApply n r) d).applyDue n
  let d := d.onPair (fun p => { p with resync := none, resyncFails := 0, snapped := true, snapIn := none })
  let d := (d.raise n 0x0C08 whole (leBytes 2 heats ++ leBytes 4 s.total)).putField P.pair_resync_stats 0 48 16 (sat 16 heats)
  (d.askSlots (secOf l 3)).mirrorEval n

/-- A complete snapshot is applied (R363 step 2). -/
def Dev.snapApply (d : Dev) (n : Now) (s : SnapIn) : Dev :=
  let l := sections (s.bytes.length / 8 + 1) s.bytes
  let fin := secOf l 0xFFFF
  if decide (rd fin 8 8 % 2 ^ 48 + 15 < n.heat) || fin.length != 16 then d.snapFail n
  else
    let d := d.snapTaken n l
    if d.configDigest.toNat != rd fin 0 8 then d.snapFail n else d.snapFinish n s l

/-- A snapshot that is not there 16 heats after its attempt began cannot be applied within 15 heats of its capture (R363): it has failed. -/
def Dev.snapLate (d : Dev) (n : Now) : Dev :=
  if d.pair.role == .standby && d.pair.resync.isSome && !d.pair.stopped && decide (d.pair.snapAt + 16 < n.heat) then d.snapFail n else d

/-- SNAPSHOT_APPLY (R363): at a heat boundary a snapshot that is complete is applied; a stream of slot data is written. -/
def snapshotApply (x : DM) (n : Now) : DM :=
  match x.dev.pair.snapIn with
  | none => x
  | some s =>
    if s.bytes.length != s.total || n.cycle != 0 then x
    else
      let l := sections (s.bytes.length / 8 + 1) s.bytes
      let x : DM := if x.dev.pair.resync.isSome then ⟨x.dev.snapApply n s, x.mem⟩ else ⟨x.dev.onPair (fun p => { p with snapIn := none }), x.mem⟩
      (l.filter (fun q => q.1 == 8)).foldl (fun x q => applySlot x q.2) x

end Sys2Proof.Machine
end

