-- ==== Sys2Proof/Machine/Modes.lean ====
section
/-!
DEFINITION. Mode transitions (R428 to R430).
-/

namespace Sys2Proof.Machine

/-- The outputs take their Latched picture (R430, R462): the fallback scenes, or a quench. While no controller pair runs the latch register
sets load instead. -/
def Dev.latchMoulds (d : Dev) : Dev :=
  (List.range d.nMould).foldl (fun d m =>
    let show' := d.cn P.dev_latch_action 0 == 0 && (d.unleasedScene m).isSome
    let d := d.onMould m (fun x =>
      if !show' then { x with quench := true } else if d.flt.halted.isSome then { x with latchSet := true } else { x with unleased := some 0xFF })
    d.mouldNews m) d

/-- A record of `dev.mode_log`. -/
def modeRecord (n : Now) (a b cause : Nat) : Bytes := leBytes 1 a ++ leBytes 1 b ++ leBytes 2 cause ++ n.stamp

/-- The device takes a mode (R429): 0x0101, cause, log. Entering Maintenance closes every session but the Maintainers' (R431); entering
Latched closes them all (Table 3.7 reason 5) and brings the latched pictures and FAULT_N (R430, R463). -/
def Dev.setMode (d : Dev) (n : Now) (m : Mode) (cause : Nat) : Dev :=
  let old := d.pwr.mode
  let d : Dev := { d with pwr := { d.pwr with
    mode := m, cause := cause, entered := n.heat, log := (modeRecord n old.code m.code cause :: d.pwr.log).take 16 } }
  let d := d.raise n 0x0101 whole (leBytes 1 old.code ++ leBytes 1 m.code ++ leBytes 1 cause)
  if m == .maintenance then d.closeAll n (fun s => s.cls != 3)
  else if m == .latched then (d.closeAll n (fun _ => true)).latchMoulds.pinAssert n
  else d

/-- The mode of a unit that shows its picture (causes 8 to 11): Degraded, Run or Autonomous. -/
def Dev.liveMode (d : Dev) : Mode :=
  if d.sn P.dev_degraded_causes 0 != 0 then .degraded else if d.ctl.leases.isEmpty then .autonomous else .run

/-- The transitions of Table 19.2 that a boundary may make, in the order of R430: cause, whether it applies now, and the mode. -/
def Dev.modeChoices (d : Dev) : List (Nat × Bool × Mode) :=
  let m := d.pwr.mode
  let ask (c : Nat) : Bool := has d.pwr.asked c
  let early := m == .reset || m == .boot || m == .provisioning
  let live := m == .autonomous || m == .run || m == .degraded
  let change := d.upd.entered.isSome
  [(21, ask 21 && m != .reset && m != .latched, .latched),
   (19, ask 19 && !early && m != .latched, .maintenance),
   (7, ask 7 && m == .boot, .maintenance),
   (3, ask 3 && m == .boot, .provisioning),
   (15, change && (live || m == .standby), .changeover),
   (6, ask 6 && (m == .boot || m == .banked), .standby),
   (14, ask 14 && live, .standby),
   (16, m == .changeover && !change && d.pair.role == .standby, .standby),
   (16, m == .changeover && !change, d.liveMode),
   (13, ask 13 && m == .takeover && !change, d.liveMode),
   (5, ask 5 && m == .boot, .autonomous),
   (18, ask 18 && m == .banked, .autonomous),
   (10, (m == .autonomous || m == .run) && d.sn P.dev_degraded_causes 0 != 0, .degraded),
   (11, m == .degraded && d.sn P.dev_degraded_causes 0 == 0, d.liveMode),
   (8, m == .autonomous && !d.ctl.leases.isEmpty, .run),
   (9, m == .run && d.ctl.leases.isEmpty, .autonomous)]

/-- The mode at a heat boundary (R429, R430): the first transition that applies. Causes asked for are used up. -/
def Dev.modeBoundary (d : Dev) (n : Now) : Dev :=
  let pick := d.modeChoices.find? (fun c => c.2.1)
  let d : Dev := { d with pwr := { d.pwr with asked := [] } }
  match pick with
  | some (cause, _, m) => d.setMode n m cause
  | none => d

end Sys2Proof.Machine
end

