-- ==== Sys2Proof/Machine/Takeover.lean ====
section
/-!
DEFINITION. Takeover, handover and demotion (R364 to R370), PAIR_CTL (R372), and the pair at link up and link down.
-/

namespace Sys2Proof.Machine

/-! ## Detection and switch (R364, R366, R369) -/

/-- A takeover is detected (R366 step 1): Takeover mode at once, in hardware. -/
def Dev.takeoverStart (d : Dev) (n : Now) (cause : Nat) : Dev :=
  let ready := d.pair.ready
  (d.onPair (fun p => { p with role := .takeover, detect := some (n.abs, cause, ready), switched := none })).setMode n .takeover 12

/-- TAKEOVER_DETECT (R364): neither heartbeat nor PAIR_ALIVE_IN for 248 µs; with `pair.ctrl` bit 1 clear only a ready standby takes over; no
takeover from a peer that enters Banked at the same boundary (R448). -/
def takeoverDetect (d : Dev) (n : Now) : Dev :=
  if d.pairOn && d.pair.role == .standby && (d.pwr.mode == .standby || d.pwr.mode == .changeover) && !d.hbSeen n.abs && !d.aliveSeen n.abs &&
      (d.pair.ready || bit (d.cn P.pair_ctrl 0) 1) && d.pwr.bankAt.isNone then
    d.takeoverStart n 1
  else d

/-- The reference output whose line start times OWN_OUT: `pair.ref_output`, or the lowest running output (Table 16.7). -/
def Dev.refOutput (d : Dev) : Option Nat :=
  let g := d.cn P.pair_ref_output 0
  if g == 0xFF then (List.range d.nTx).find? (fun g => (d.tgen g).state == .running) else some g

/-- Whether OWN_OUT may switch now, after instant `since` (R366, R369): a line of the reference output starts in this core cycle or the one
before, or 149 µs less `pair.settle_ns` have passed. -/
def Dev.switchDue (d : Dev) (t since : Nat) : Bool :=
  decide (since + (119200 - d.cn P.pair_settle_ns 0 * 4 / 5) ≤ t) ||
    (decide (since < t) && d.refOutput.any (fun g => d.lineStarted g t (d.rasterAt g t periodUnits).1 1))

/-- The shared buses a unit has just taken over (R350): each controller of a shared group recovers or waits before it first drives its bus. -/
def Dev.joinBuses (d : Dev) : Dev :=
  let s := d.cn P.pair_shared 0
  d.onPair (fun p => { p with joins := (if bit s 2 then 255 else 0) + (if bit s 6 then 256 * 255 else 0) })

/-- OWN_OUT_SWITCH (R366 step 2, R369): the unit that takes over drives OWN_OUT high; one that yields at a boundary drives it low. -/
def ownOutSwitch (d : Dev) (n : Now) : Dev :=
  if d.pair.switched.isSome then d
  else if d.pair.role == .takeover then
    if d.pair.detect.any (fun x => d.switchDue n.abs x.1) then
      (d.onPair (fun p => { p with ownOut := !p.expired && !p.forcedLow, switched := some n.abs })).joinBuses
    else d
  else if d.pair.role == .active && d.pair.yieldTo.any (fun y => decide (y.1 ≤ n.heat) && d.switchDue n.abs (y.1 * heatCycles)) then
    d.onPair (fun p => { p with ownOut := false, switched := some n.abs })
  else d

/-- YIELD (R369): the standby takes over at the named boundary, or at once. -/
def yieldReceive (d : Dev) (n : Now) (b : Bytes) : Dev :=
  match d.pairOpen 0x0C02 b with
  | none => d
  | some (p, d) =>
    let heat := rd p 0 8 % 2 ^ 48
    if p.length != 16 || d.pair.role != .standby then d
    else
      let d := d.onPair (fun q => { q with yieldTo := some (heat, rd p 12 4) })
      if heat == 0 then d.takeoverStart n 2 else d

/-- The active unit gives up ownership (R369): YIELD and 0x0C0B. -/
def Dev.sendYield (d : Dev) (n : Now) (heat cause : Nat) : Dev :=
  let epoch := (d.pair.epoch + 1).toNat
  let d := d.onPair (fun p => { p with yieldTo := some (heat, epoch), switched := if heat == 0 then some n.abs else none })
  (d.pairSend 0x0C02 (leBytes 8 (heat % 2 ^ 48) ++ leBytes 1 cause ++ leBytes 3 0 ++ leBytes 4 epoch)).raise n 0x0C0B whole
    (leBytes 1 cause ++ leBytes 4 epoch)

/-! ## Completion (R366 step 3, R367, R368) -/

/-- Journal records in flight that were never released are discarded (R367): 0x0C09, no replies. -/
def Dev.discardJournal (d : Dev) (n : Now) : Dev :=
  let l := d.pair.journal
  let d := d.onPair (fun p => { p with journal := [], apply := [], since := [], part := none })
  match l.head? with
  | none => d
  | some r => (d.bumpField P.pair_journal_stats 0 48 16 l.length).raise n 0x0C09 whole (leBytes 2 l.length ++ leBytes 4 r.seq)

/-- `pair.takeover_log`'s record. -/
def takeoverRecord (n : Now) (epoch cause : Nat) (ready : Bool) (us : Nat) : Bytes :=
  n.stamp ++ leBytes 4 epoch ++ leBytes 1 cause ++ leBytes 1 (b2n ready) ++ leBytes 2 0 ++ leBytes 4 us

/-- Completion (R366 step 3): EPOCH, time master, records and leases, 0x0C01; the mode follows at this boundary. -/
def Dev.takeoverComplete (d : Dev) (n : Now) : Dev :=
  match d.pair.detect, d.pair.switched with
  | some (t, cause, ready), some s =>
    let us := (s - t) / 800
    let given := match d.pair.yieldTo with | some y => BitVec.ofNat 32 y.2 | none => 0
    let epoch := if d.pair.epoch + 1 < given then given else d.pair.epoch + 1
    let d := d.onPair (fun p => { p with
      role := .active, epoch := epoch, detect := none, switched := none, yieldTo := none, ready := false
      unmirroredAt := if p.mirrored then none else some n.heat
      takeovers := (takeoverRecord n epoch.toNat cause ready us :: p.takeovers).take 8 })
    let d := d.discardJournal n
    let grace := n.abs + d.cn P.pair_grace_ms 0 * msCycles
    let d : Dev := { d with ctl := { d.ctl with leases := d.ctl.leases.map (fun (l : Lease) => { l with deadline := max l.deadline grace }) } }
    let d := (List.range 32).foldl (fun d i => d.attachLeases n i n.abs false) d
    (d.orphanUnattached.raise n 0x0C01 whole (leBytes 1 cause ++ leBytes 1 (b2n ready) ++ leBytes 4 epoch.toNat ++ leBytes 2 us)).askMode 13
  | _, _ => d

/-- The leases and buffers of a unit that gives up ownership belong to their partners alone (R368). -/
def Dev.unattach (d : Dev) : Dev :=
  let partners := d.ctl.leases.map (fun l => ((l.kind, l.idx), d.leasePartner l))
  let owners := d.cru.bufs.map (fun b => (b.handle, d.bufPartner b))
  { d with
    ctl := { d.ctl with leases := d.ctl.leases.map (fun (l : Lease) => { l with slot := 32, session := 0 }) }
    cru := { d.cru with bufs := d.cru.bufs.map (fun (b : Buf) => if b.owner < 32 then { b with owner := 0xFD } else b) }
    pair := { d.pair with partners := partners, bufOwners := owners } }

/-- The yielding unit completes (R369): it becomes standby; its unreleased commits go without a reply. -/
def Dev.yieldComplete (d : Dev) (n : Now) : Dev :=
  let epoch := match d.pair.yieldTo with | some y => y.2 | none => d.pair.epoch.toNat
  let d := d.discardJournal n
  let d := d.cancelCommits n 0 (fun c => c.jseq.isSome) false
  let d := (d.unattach.becomeStandby).onPair (fun p => { p with epoch := BitVec.ofNat 32 epoch, yieldTo := none, switched := none })
  d.onPair (fun p => { p with trigTold := (d.integ.lossIn, d.integ.chkIn) })

/-- The pair's part of a boundary after the switch of ownership (R366, R369). -/
def Dev.pairTakeover (d : Dev) (n : Now) : Dev :=
  let p := d.pair
  let d := if p.role == .standby && p.yieldTo.any (fun y => y.1 != 0 && decide (y.1 ≤ n.heat)) then d.takeoverStart n 3 else d
  if d.pair.role == .takeover && d.pair.switched.isSome && d.upd.entered.isNone then d.takeoverComplete n
  else if d.pair.role == .active && d.pair.yieldTo.isSome && d.pair.switched.isSome then d.yieldComplete n
  else d

/-- After a fault's yield (R459 step 3): where the firmware still runs the unit also sends YIELD with cause 2. -/
def Dev.yieldAfterFault (d : Dev) (n : Now) : Dev :=
  if d.pair.forcedLow && d.pair.role == .active && d.pair.yieldTo.isNone && d.flt.halted.isNone then d.sendYield n 0 2 else d

/-! ## PAIR_CTL (R372) -/

/-- PAIR_CTL. -/
def handlePairCtl (d : Dev) (n : Now) (m : Msg) : Dev :=
  let p := m.j.payload
  let op := rd p 0 1
  let heat := rd p 8 8 % 2 ^ 48
  let standby := d.pair.role == .standby
  if p.length != 16 || op == 0 || 4 < op then d.reject m 0x8206
  else if !d.pairOn || (standby && (op == 1 || op == 3)) then d.reject m 0x8C02
  else if op == 1 then
    if d.pair.role != .active || !d.pair.mirrored || !d.pair.ready || d.pair.yieldTo.isSome then d.reject m 0x8C02
    else if heat < n.heat + 2 then d.reject m 0x8301
    else if n.heat + d.cn P.time_horizon_heats 0 < heat then d.reject m 0x8302
    else (d.sendYield n heat 1).reply m 0 []
  else if op == 2 then (if d.mor.up && !d.pair.stopped then (d.startResync n 6).reply m 0 [] else d.reject m 0x8C02)
  else if op == 3 then
    ((d.onPair (fun q => { q with stopped := true, resync := none, capture := none, captured := none, snapped := false })).mirrorEval n).reply m 0 []
  else
    let d := d.onPair (fun q => { q with stopped := false, resyncFails := 0 })
    let d := if d.pair.role == .active && d.mor.up && !d.pair.snapped then d.startResync n 6 else d.joinResync n
    d.reply m 0 []

/-! ## Link edges (R361, R394, R425) -/

/-- The link came up: PAIR_KEY goes out; nothing of the last link's session or mirroring stands. -/
def Dev.pairLinkUp (d : Dev) (n : Now) : Dev :=
  let d : Dev := { d with key := { d.key with
    kOut := [], kIn := [], ownNonce := none, peerNonce := none, pairTold := false } }
  let d := d.onPair (fun p => { p with
    seqOut := 1, seqIn := 0, taken := [], snapped := false, stopped := false, resync := none, resyncFails := 0, capture := none, captured := none
    snapIn := none, part := none, accepted := true, apply := [], since := [] })
  if d.pairOn then d.pairHello n else d

/-- The link went down: the pair is not mirrored any more (R351); frames that were handed back carry nothing further (R341, R358). -/
def Dev.pairLinkDown (d : Dev) (n : Now) : Dev :=
  let d : Dev := { d with key := { d.key with kOut := [], kIn := [] } }
  (d.onPair (fun p => { p with resync := none, capture := none, captured := none, snapped := false, snapIn := none })).mirrorEval n

/-- The pair follows the link's edges. -/
def Dev.pairLink (d : Dev) (was : Bool) (n : Now) : Dev :=
  if d.mor.up && !was then d.pairLinkUp n else if was && !d.mor.up then d.pairLinkDown n else d

end Sys2Proof.Machine
end

