-- ==== Sys2Proof/Machine/Update.lean ====
section
/-!
DEFINITION. Images, download, verification, the boot record (R401 to R412) and what UPD messages do before activation.
-/

namespace Sys2Proof.Machine

/-! ## Layout (R401, R402) -/

/-- Where a slot of a KIND lies in flash (Table 18.1). -/
def imgBase (kind slot : Nat) : Nat := if kind == 1 then fwSlotBase slot else patSlotBase slot

/-- The size of a slot of a KIND. -/
def imgSize (kind : Nat) : Nat := if kind == 1 then 0x800000 else 0x400000

/-- The longest body of a KIND (R402). -/
def bodyLimit (kind : Nat) : Nat := imgSize kind - 512 - 4096

/-- Where a slot's trailer lies. -/
def trailerAt (kind slot : Nat) : Nat := imgBase kind slot + imgSize kind - 4096

/-- A slot's header. -/
def Dev.imgHeader (d : Dev) (kind slot : Nat) : Bytes := d.flashBytes (imgBase kind slot) 512

/-- Whether a trailer's word is set: VALID at 36, CONFIRMED at 40, REJECTED at 44 (R406). -/
def Dev.trailerSet (d : Dev) (kind slot off : Nat) : Bool := d.flashBytes (trailerAt kind slot + off) 4 == leBytes 4 0

/-- Set a trailer's word. -/
def Dev.trailerMark (d : Dev) (kind slot off : Nat) : Dev := d.program (trailerAt kind slot + off) (leBytes 4 0)

/-- Whether a slot is verified (R406). -/
def Dev.verified (d : Dev) (kind slot : Nat) : Bool :=
  d.flashBytes (trailerAt kind slot) 4 == ascii "ELT1" && d.trailerSet kind slot 36 &&
    d.flashBytes (trailerAt kind slot + 44) 4 == leBytes 4 0xFFFFFFFF &&
    d.flashBytes (trailerAt kind slot + 4) 32 == slice (d.imgHeader kind slot) 64 32

/-- Whether a slot is marked confirmed (R406). -/
def Dev.confirmed (d : Dev) (kind slot : Nat) : Bool := d.verified kind slot && d.trailerSet kind slot 40

/-- The index of a slot in `upd.slot_state`. -/
def slotIndex (kind slot : Nat) : Nat := 2 * (kind - 1) + slot

/-- The slot that runs, by KIND. -/
def Dev.runSlot (d : Dev) (kind : Nat) : Nat := if kind == 1 then d.upd.fwRun else d.upd.patRun

/-- The slot of a KIND that the running image does not occupy (R408). -/
def Dev.idleSlot (d : Dev) (kind : Nat) : Nat := 1 - d.runSlot kind

/-- Change the update engine. -/
def Dev.onUpd (d : Dev) (f : Update → Update) : Dev := { d with upd := f d.upd }

/-- Set a slot's state. -/
def Dev.setImg (d : Dev) (kind slot st : Nat) : Dev :=
  d.onUpd (fun u => { u with slots := modAt u.slots (slotIndex kind slot) (fun _ => ⟨st⟩) })

/-- A slot's state as its header and trailer show it at a start. -/
def Dev.imgState (d : Dev) (kind slot : Nat) : Nat :=
  if d.trailerSet kind slot 44 then 5
  else if d.confirmed kind slot then 4
  else if d.verified kind slot then 3
  else if d.flashBytes (imgBase kind slot) 4 == leBytes 4 0xFFFFFFFF && d.flashBytes (trailerAt kind slot) 4 == leBytes 4 0xFFFFFFFF then 0
  else 6

/-- The states of all slots at a start. -/
def Dev.loadImgStates (d : Dev) : Dev :=
  [(1, 0), (1, 1), (2, 0), (2, 1)].foldl (fun d k => d.setImg k.1 k.2 (d.imgState k.1 k.2)) d

/-! ## Acceptance (R404, Table 18.3) -/

/-- Why a header is not acceptable for a KIND. -/
def Dev.acceptCode (d : Dev) (kind : Nat) (h : Bytes) : Option Nat :=
  let zero (a n : Nat) : Bool := (slice h a n).all (· == 0)
  let ctr := if kind == 1 then d.otp.fwCtr else d.otp.patCtr
  let svn := rd h 12 4
  let signed' := h.take 160
  let owner := slice h 96 64
  firstCode [
    (h.length != 512 || h.take 4 != ascii "ELI1" || rd h 4 1 != kind || !has [1, 2] kind || rd h 5 1 != 1 ||
      !(zero 11 1 && zero 40 24 && zero 288 224), 0x8E01),
    (rd h 8 2 != 0xE1E0 || !bit (rd h 6 1) (match d.variant with | .ely2416 => 0 | .ely1208 => 1) || decide (d.otp.stepping < rd h 10 1) ||
      decide (Config.romVer.toNat < rd h 32 4), 0x8E02),
    (bit (rd h 7 1) 0 && rd h 24 8 != d.otp.unitId, 0x8E03),
    (decide (64 < svn) || decide (svn < ctr), 0x8E04),
    (!sigOk (beBytes 64 Config.imageKey.toNat) signed' (slice h 160 64) ||
      (!d.otp.owners.isEmpty && !(sha256 owner == d.ownerHash && sigOk owner signed' (slice h 224 64))), 0x8E05),
    (rd h 20 4 == 0 || decide (bodyLimit kind < rd h 20 4), 0x8E06)]

/-- A slot's body, as long as its header says, within the slot; without a header's magic there is none (R404). -/
def Dev.imgBody (d : Dev) (kind slot : Nat) : Bytes :=
  let h := d.imgHeader kind slot
  if h.take 4 == ascii "ELI1" then d.flashBytes (imgBase kind slot + 512) (min (rd h 20 4) (bodyLimit kind)) else []

/-- An entry of a firmware body's section table (R405): TYPE 1 is a section to load, TYPE 2 one read in place. -/
structure Section where
  type    : Nat
  offset  : Nat
  length  : Nat
  address : Nat
  deriving DecidableEq, Repr, Inhabited

/-- The section table at the head of a firmware body (R405): "ELS1", the count, the entries. A table that R405 does not allow is none, and so is one
without a load section, in which execution could not begin (DESIGN CHOICE, assumption 74). -/
def firmwareSections (body : Bytes) : Option (List Section) :=
  let count := rd body 4 2
  let l := (List.range count).map (fun k =>
    (⟨rd body (8 + 16 * k) 1, rd body (12 + 16 * k) 4, rd body (16 + 16 * k) 4, rd body (20 + 16 * k) 4⟩ : Section))
  let loads : List Section := l.filter (fun s => s.type == 1)
  let size : Nat := loads.foldl (fun a s => a + s.length) 0
  if body.take 4 == ascii "ELS1" && decide (1 ≤ count) && decide (count ≤ 32) && decide (8 + 16 * count ≤ body.length) && !loads.isEmpty &&
      l.all (fun s => (s.type == 1 || s.type == 2) && decide (s.offset + s.length ≤ body.length)) &&
      loads.all (fun s => decide (s.address + s.length ≤ 0x100000)) && decide (size ≤ 1048576) then some l
  else none

/-- Whether the firmware body of a slot can be loaded. -/
def Dev.sectionsOk (d : Dev) (slot : Nat) : Bool := (firmwareSections (d.imgBody 1 slot)).isSome

/-- A controller pair copies the load sections of the firmware in a slot to its memory; execution begins at the first one's ADDRESS (R405). -/
def Dev.loadPair (d : Dev) (i slot : Nat) : Dev :=
  let body := d.imgBody 1 slot
  let loads := ((firmwareSections body).getD []).filter (fun s => s.type == 1)
  { d with flt := { d.flt with pairs := modAt d.flt.pairs i (fun p => { p with
      code := loads.map (fun s => (s.address, slice body s.offset s.length)), entry := loads.head?.map Section.address }) } }

/-- Whether a slot's body has the HASH of its header. -/
def Dev.bodyHashOk (d : Dev) (kind slot : Nat) : Bool := sha256 (d.imgBody kind slot) == slice (d.imgHeader kind slot) 64 32

/-! ## The boot record (R412, Table 18.5) -/

/-- A boot record's bytes. -/
def bootRecord (seq fwRun patRun fwConf patConf trial attempts : Nat) : Bytes :=
  let b := ascii "ELB1" ++ leBytes 4 seq ++ leBytes 1 fwRun ++ leBytes 1 patRun ++ leBytes 1 fwConf ++ leBytes 1 patConf ++
    leBytes 1 trial ++ leBytes 1 attempts ++ leBytes 46 0
  b ++ leBytes 4 (crc32 b).toNat

/-- Whether a copy is intact (R412). -/
def recordIntact (b : Bytes) : Bool := b.take 4 == ascii "ELB1" && rd b 60 4 == (crc32 (b.take 60)).toNat

/-- Fields of the record in use: FW_RUN 8, PAT_RUN 9, FW_CONF 10, PAT_CONF 11, TRIAL 12, ATTEMPTS 13. -/
def Dev.recField (d : Dev) (off : Nat) : Nat := rd d.upd.record off 1

/-- The SEQ of the record in use. -/
def Dev.recSeq (d : Dev) : Nat := rd d.upd.record 4 4

/-- Copy A (0) or B (1) is erased and rewritten. -/
def Dev.writeRecordCopy (d : Dev) (copy : Nat) (b : Bytes) : Dev := (d.erase (0x1000 * copy) 0x1000).program (0x1000 * copy) b

/-- Both copies are rewritten in order, and the record is in use. -/
def Dev.writeRecord (d : Dev) (b : Bytes) : Dev :=
  ((d.writeRecordCopy 0 b).writeRecordCopy 1 b).onUpd (fun u => { u with record := b })

/-- The KINDs that a mask names. -/
def kindsOf (mask : Nat) : List Nat := (if bit mask 0 then [1] else []) ++ (if bit mask 1 then [2] else [])

/-- The slot of a KIND after an activation. -/
def Dev.newSlot (d : Dev) (kinds kind : Nat) : Nat := if has (kindsOf kinds) kind then d.idleSlot kind else d.runSlot kind

/-- The record that a job writes (R415, R418 to R420). -/
def Dev.jobRecord (d : Dev) (j : UpdJob) : Bytes :=
  let s := d.recSeq + 1
  match j with
  | .activate kinds mode _ =>
    let k := d.cn P.upd_trial_attempts 0
    bootRecord s (d.newSlot kinds 1) (d.newSlot kinds 2) (d.recField 10) (d.recField 11) kinds (if mode == 0 then k - 1 else k)
  | .confirm => bootRecord s (d.recField 8) (d.recField 9) (d.recField 8) (d.recField 9) 0 (d.recField 13)
  | .revert _ => bootRecord s (d.recField 10) (d.recField 11) (d.recField 10) (d.recField 11) 0 (d.recField 13)
  | .verify _ _ => d.upd.record

/-! ## Transfers (R408 to R411) -/

/-- A live transfer. -/
def Dev.download (d : Dev) (id : Nat) : Option Transfer := d.upd.transfers.find? (fun t => t.id == id)

/-- Change a live transfer. -/
def Dev.onTransfer (d : Dev) (id : Nat) (f : Transfer → Transfer) : Dev :=
  d.onUpd (fun u => { u with transfers := u.transfers.map (fun t => if t.id == id then f t else t) })

/-- A transfer ends. -/
def Dev.dropTransfer (d : Dev) (id : Nat) : Dev := d.onUpd (fun u => { u with transfers := u.transfers.filter (fun t => t.id != id) })

/-- UPD_BEGIN (R408): the tests, then the inactive slot is taken and erased in background. -/
def handleUpdBegin (d : Dev) (n : Now) (m : Msg) : Dev :=
  let h := m.j.payload
  let kind := rd h 4 1
  if h.length != 512 then d.reject m 0x8206
  else match d.acceptCode kind h with
    | some c => d.reject m c
    | none =>
      if d.upd.phase != 0 && bit d.upd.trialKinds (kind - 1) then d.reject m 0x8E0D
      else if d.upd.transfers.any (fun t => t.kind == kind) then d.reject m 0x8E0A
      else
        let slot := d.idleSlot kind
        let id := d.upd.nextId
        let d := (d.erase (trailerAt kind slot) 4096).setImg kind slot 1
        let d := d.onUpd (fun u => { u with
          transfers := u.transfers ++ [{ id := id, kind := kind, slot := slot, header := h, size := rd h 20 4, lastAt := n.abs }]
          nextId := if id == 0xFFFFFFFF then 1 else id + 1 })
        (d.raise n 0x0E01 whole (leBytes 4 id ++ leBytes 1 kind ++ leBytes 1 slot)).reply m 0 (leBytes 4 id ++ leBytes 1 slot ++ leBytes 3 0)

/-- Whether a body byte lies in an erased sector. -/
def Transfer.ready (t : Transfer) (off : Nat) : Bool := decide ((512 + off) / 4096 < t.erased)

/-- Where a body byte lies in flash. -/
def Transfer.at (t : Transfer) (off : Nat) : Nat := imgBase t.kind t.slot + 512 + off

/-- A byte the device already has, in the page buffer or in flash. -/
def Dev.heldByte (d : Dev) (t : Transfer) (off : Nat) : Option Byte :=
  match t.held.find? (fun h => h.1 == off) with
  | some h => some h.2
  | none => if has t.pages (off / 256) then some (flashRead d.flash (t.at off)) else none

/-- The bytes of a page that belong to the body. -/
def Transfer.pageLen (t : Transfer) (p : Nat) : Nat := min 256 (t.size - 256 * p)

/-- The partly received pages. -/
def Transfer.partial (t : Transfer) : List Nat := (t.held.map (fun h => h.1 / 256)).eraseDups

/-- The body pages of a transfer. -/
def Transfer.pageCount (t : Transfer) : Nat := ceilDiv t.size 256

/-- The bytes received (R407). -/
def Transfer.received (t : Transfer) : Nat := (t.pages.map t.pageLen).sum + t.held.length

/-- Program the pages of a transfer that are whole (R409). -/
def Dev.programPages (d : Dev) (id : Nat) (l : List Nat) : Dev :=
  l.foldl (fun d p => match d.download id with
    | none => d
    | some t =>
      let mine := t.held.filter (fun h => h.1 / 256 == p)
      if mine.length != t.pageLen p then d
      else
        let d := mine.foldl (fun (d : Dev) h => { d with flash := flashWrite d.flash (t.at h.1) h.2 }) d
        d.onTransfer id (fun t => { t with pages := t.pages ++ [p], held := t.held.filter (fun h => h.1 / 256 != p) })) d

/-- A block is taken (R409): equal bytes are accepted, new ones held; whole pages are programmed. The code when it is not taken. -/
def Dev.takeBlock (d : Dev) (id off : Nat) (data : Bytes) : Except Nat Dev :=
  match d.download id with
  | none => .error 0x8E0A
  | some t =>
    let bytes := (List.range data.length).map (fun i => (off + i, data.getD i 0))
    let clash := bytes.any (fun b => match d.heldByte t b.1 with | some v => v != b.2 | none => false)
    let new := bytes.filter (fun b => (d.heldByte t b.1).isNone)
    let pages := (bytes.map (fun b => b.1 / 256)).eraseDups
    let t' : Transfer := { t with held := t.held ++ new }
    let open' := t'.partial.filter (fun p => (t'.held.filter (fun h => h.1 / 256 == p)).length != t'.pageLen p)
    if clash then .error 0x8E08
    else if 256 < open'.length then .error 0x8E09
    else .ok ((d.onTransfer id (fun _ => t')).programPages id pages)

/-- Whether every sector a block lies in is erased. -/
def Transfer.blockReady (t : Transfer) (off len : Nat) : Bool := t.ready off && t.ready (off + len - 1)

/-- When all bytes are there the slot is complete. -/
def Dev.noteComplete (d : Dev) (id : Nat) : Dev :=
  match d.download id with
  | some t => if t.received == t.size then d.setImg t.kind t.slot 2 else d
  | none => d

/-- UPD_BLOCK (R409). -/
def handleUpdBlock (d : Dev) (n : Now) (m : Msg) : Dev :=
  let p := m.j.payload
  let id := rd p 0 4
  let off := rd p 4 4
  let len := rd p 8 2
  let data := p.drop 12
  match d.download id with
  | none => if p.length < 12 then d.reject m 0x8E07 else d.reject m 0x8E0A
  | some t =>
    if p.length < 12 || len == 0 || decide (1024 < len) || len != data.length || decide (t.size < off + len) then d.reject m 0x8E07
    else
      let d := d.onTransfer id (fun t => { t with lastAt := n.abs })
      if !t.blockReady off len then d.onTransfer id (fun t => { t with waiting := t.waiting ++ [(off, data, m.held 0 [])] })
      else match d.takeBlock id off data with
        | .error c => d.reject m c
        | .ok d => (d.noteComplete id).reply m 0 []

/-- The missing bytes of a page, as offsets. -/
def Transfer.missingIn (t : Transfer) (p : Nat) : List Nat :=
  if has t.pages p then []
  else ((List.range (t.pageLen p)).map (fun i => 256 * p + i)).filter (fun o => !t.held.any (fun h => h.1 == o))

/-- Offsets, rising, as ranges of offset and length. -/
def toRanges : List Nat → List (Nat × Nat)
  | [] => []
  | o :: l => match toRanges l with
    | (a, k) :: r => if a == o + 1 then (o, k + 1) :: r else (o, 1) :: (a, k) :: r
    | [] => [(o, 1)]

/-- Joins ranges that touch. -/
def joinRanges : List (Nat × Nat) → List (Nat × Nat)
  | [] => []
  | (a, k) :: l => match joinRanges l with
    | (b, j) :: r => if b == a + k then (a, k + j) :: r else (a, k) :: (b, j) :: r
    | [] => [(a, k)]

/-- The missing ranges of a transfer. -/
def Transfer.missing (t : Transfer) : List (Nat × Nat) :=
  joinRanges ((List.range t.pageCount).flatMap (fun p =>
    if has t.pages p then []
    else if t.held.any (fun h => h.1 / 256 == p) then toRanges (t.missingIn p)
    else [(256 * p, t.pageLen p)]))

/-- UPD_STATUS (R407). -/
def handleUpdStatus (d : Dev) (m : Msg) : Dev :=
  if m.j.payload.length != 4 then d.reject m 0x8206
  else match d.download (rd m.j.payload 0 4) with
    | none => d.reject m 0x8E0A
    | some t =>
      let l := t.missing.take 32
      d.reply m 0 (leBytes 4 t.received ++ leBytes 2 l.length ++ leBytes 2 0 ++ l.flatMap (fun r => leBytes 4 r.1 ++ leBytes 4 r.2))

/-- A transfer is abandoned (R410): its slot is invalid; 0x0E09. -/
def Dev.abandon (d : Dev) (n : Now) (t : Transfer) (cause : Nat) : Dev :=
  let d := t.waiting.foldl (fun d w => d.hold { w.2.2 with status := 0x8E0A }) d
  ((d.dropTransfer t.id).setImg t.kind t.slot 6).raise n 0x0E09 whole (leBytes 4 t.id ++ leBytes 1 cause)

/-- UPD_ABORT (R410). -/
def handleUpdAbort (d : Dev) (n : Now) (m : Msg) : Dev :=
  if m.j.payload.length != 4 then d.reject m 0x8206
  else match d.download (rd m.j.payload 0 4) with
    | none => d.reject m 0x8E0A
    | some t => (d.abandon n t 2).reply m 0 []

/-- Whether a transfer is being verified. -/
def Dev.verifying (d : Dev) (id : Nat) : Bool := d.upd.jobs.any (fun j => match j with | .verify i _ => i == id | _ => false)

/-- DOWNLOAD_TIMEOUT (R410): a transfer with no block for `upd.download_timeout_s`. -/
def downloadTimeout (d : Dev) (n : Now) (id : Nat) : Dev :=
  match d.download id with
  | none => d
  | some t =>
    if !d.verifying id && decide (t.lastAt + d.cn P.upd_download_timeout_s 0 * 1000 * msCycles ≤ n.abs) then d.abandon n t 1 else d

/-- UPD_VERIFY (R411): 0x8E0B while bytes are missing, else the image is read back; the reply comes when that ends. -/
def handleUpdVerify (d : Dev) (n : Now) (m : Msg) : Dev :=
  let id := rd m.j.payload 0 4
  if m.j.payload.length != 4 then d.reject m 0x8206
  else match d.download id with
    | none => d.reject m 0x8E0A
    | some t =>
      if t.received != t.size then d.reject m 0x8E0B
      else (d.onTransfer id (fun t => { t with verifyAt := n.abs })).onUpd (fun u => { u with jobs := u.jobs ++ [.verify id (m.held 0 [])] })

/-- The time that reading `size` bytes of flash takes (R401, R411): an octal bus at `upd.xspi_mhz` with two transfers a clock, in core cycles. -/
def Dev.flashCycles (d : Dev) (size : Nat) : Nat := ceilDiv (400 * size) (d.cn P.upd_xspi_mhz 0)

/-- IMAGE_VERIFY_DONE (R411): the read-back of the oldest image under test ends, at the flash rate. -/
def imageVerifyDone (d : Dev) (n : Now) : Dev :=
  match d.upd.jobs.findSome? (fun j => match j with | .verify id r => some (id, r) | _ => none) with
  | none => d
  | some (id, reply) =>
    if (d.download id).any (fun t => decide (n.abs < t.verifyAt + d.flashCycles t.size)) then d else
    let d := d.onUpd (fun u => { u with jobs := u.jobs.filter (fun j => match j with | .verify i _ => i != id | _ => true) })
    match d.download id with
    | none => d.hold { reply with status := 0x8E0A }
    | some t =>
      let d := d.dropTransfer id
      match d.acceptCode t.kind (d.imgHeader t.kind t.slot) with
      | some c => (d.setImg t.kind t.slot 6).hold { reply with status := c }
      | none =>
        if d.bodyHashOk t.kind t.slot then
          (((d.trailerMark t.kind t.slot 36).setImg t.kind t.slot 3).raise n 0x0E02 whole
            (leBytes 1 t.kind ++ leBytes 1 t.slot ++ leBytes 4 (rd t.header 16 4))).hold reply
        else (d.setImg t.kind t.slot 6).hold { reply with status := 0x8E0B }

/-- The blocks of a transfer whose sectors are erased now are taken in order, and their replies go out. -/
def Dev.takeWaiting (d : Dev) (id : Nat) : Dev :=
  match d.download id with
  | none => d
  | some t =>
    let now := t.waiting.filter (fun w => t.blockReady w.1 w.2.1.length)
    let d := d.onTransfer id (fun t => { t with waiting := t.waiting.filter (fun w => !t.blockReady w.1 w.2.1.length) })
    now.foldl (fun d w => match d.takeBlock id w.1 w.2.1 with
      | .error c => d.hold { w.2.2 with status := c }
      | .ok d => (d.noteComplete id).hold w.2.2) d

/-- FLASH_ERASE_DONE (R401, R408): a 4 KiB sector at an address has been erased: the next of a slot under download, whose header, trailer or
waiting pages are then written; or one of the blob area that no record references any more. -/
def flashEraseDone (d : Dev) (addr : Nat) : Dev :=
  match d.upd.transfers.find? (fun t => imgBase t.kind t.slot + 4096 * t.erased == addr && decide (4096 * t.erased < imgSize t.kind)) with
  | some t =>
    let d := (d.erase addr 4096).onTransfer t.id (fun t => { t with erased := t.erased + 1, headed := t.headed || 4096 * (t.erased + 1) == imgSize t.kind })
    let d := if t.erased == 0 then d.program addr t.header else d
    let d := if addr == trailerAt t.kind t.slot then d.program addr (ascii "ELT1" ++ slice t.header 64 32) else d
    d.takeWaiting t.id
  | none =>
    let k := (addr - flBlobs) / 128
    if decide (flBlobs ≤ addr) && decide (addr < flBlobs + 0x8000) && addr % 4096 == 0 &&
        !d.usedBlobs.any (fun i => decide (k ≤ i) && decide (i < k + 32)) then d.erase addr 4096
    else d

end Sys2Proof.Machine
end

