-- ==== Sys2Proof/Machine/Changeover.lean ====
section
/-!
DEFINITION. Activation, changeover, trial, confirmation and changeback (R415 to R421), and the table updates they make (R385, R391, R392).
-/

namespace Sys2Proof.Machine

/-! ## Table updates (R385) -/

/-- The HASH of a KIND's slot. -/
def Dev.imgHash (d : Dev) (kind slot : Nat) : Bytes := slice (d.imgHeader kind slot) 64 32

/-- A table update that waits begins once the key engine is free (R383). -/
def Dev.startSeals (d : Dev) : Dev :=
  if d.key.update.isSome then d
  else match d.upd.seals with
    | [] => d
    | s :: rest =>
      let d := d.onUpd (fun u => { u with seals := rest })
      match s with
      | .activate kinds mode reply =>
        let fw := d.imgHash 1 (d.newSlot kinds 1)
        let pat := d.imgHash 2 (d.newSlot kinds 2)
        match d.beginReseal (measure fw pat (mode == 0 && d.key.debugOpen)) (.activate kinds mode reply) with
        | some d => { d with key := { d.key with fwHashN := fw, patHashN := pat } }
        | none => (d.hold { reply with status := 0x8D0B }).onUpd (fun u => { u with phase := 0, trialKinds := 0 })
      | .confirm kinds => d.beginConfirmSeal kinds
      | .unseal => d.beginUnseal
      | .message _ _ _ => d

/-- A table update waits for its turn. -/
def Dev.addSeal (d : Dev) (s : AfterUpdate) : Dev := (d.onUpd (fun u => { u with seals := u.seals ++ [s] })).startSeals

/-- An anti-rollback counter is raised to the security version of a running image (R393): 0x0D0A. -/
def Dev.raiseCounter (d : Dev) (n : Now) (kind : Nat) : Dev :=
  let svn := rd (d.imgHeader kind (d.runSlot kind)) 12 4
  let ctr := if kind == 1 then d.otp.fwCtr else d.otp.patCtr
  if svn ≤ ctr then d
  else
    let otp := if kind == 1 then { d.otp with fwCtr := svn } else { d.otp with patCtr := svn }
    ({ d with otp := otp } : Dev).raise n 0x0D0A whole (leBytes 1 (kind - 1) ++ leBytes 1 svn)

/-- A confirmation ends (R419 steps 4 and 5). `kinds` 0: a start completes one that a reset interrupted. -/
def Dev.confirmEnd (d : Dev) (n : Now) (kinds : Nat) : Dev :=
  let d := (kindsOf (if kinds == 0 then 3 else kinds)).foldl (fun d k => d.raiseCounter n k) d
  let d : Dev := { d with key := { d.key with mNext := none } }
  if kinds == 0 then d
  else
    let ver := rd (d.imgHeader (if bit kinds 0 then 1 else 2) (d.runSlot (if bit kinds 0 then 1 else 2))) 16 4
    let d := d.onUpd (fun u => { u with
      phase := 0, trialFlag := false, trialKinds := 0, resident := false, since := none, condBits := 0, confirmAsked := false })
    let d := (kindsOf kinds).foldl (fun d k => d.setImg k (d.runSlot k) 4) d
    d.raise n 0x0E05 whole (leBytes 1 kinds ++ leBytes 1 0 ++ leBytes 4 ver)

/-- What follows a table update. -/
def Dev.afterUpdate (d : Dev) (n : Now) (a : AfterUpdate) : Dev :=
  match a with
  | .message reply slot op => (d.raise n 0x0D08 slot (leBytes 1 op ++ leBytes 4 (d.keySlot slot).seq)).hold reply
  | .activate kinds mode reply =>
    let sealed := (d.key.slots.filter (fun s => s.blob1 != 0xFFFF)).length
    (d.raise n 0x0D09 whole (leBytes 1 sealed ++ mTag (d.key.mNext.getD []))).onUpd (fun u =>
      { u with jobs := u.jobs ++ [.activate kinds mode reply] })
  | .confirm kinds => d.confirmEnd n kinds
  | .unseal => d

/-- One step of a table update (R385): the new blobs, then copy A with SEQ + 1, then copy B. -/
def Dev.tableStep (d : Dev) (n : Now) (k : Nat) : Dev :=
  match d.key.update with
  | none => d
  | some u =>
    if u.done + 1 != k then d
    else
      let copy := tableCopy d.rs (d.key.tableSeq + 1) u.records
      let next (d : Dev) : Dev := { d with key := { d.key with update := some { u with done := k } } }
      if k == 1 then next (d.updateBlobs u)
      else if k == 2 then next ((d.erase flTableA 0x2000).program flTableA copy)
      else (((d.erase flTableB 0x2000).program flTableB copy).finishUpdate n u).afterUpdate n u.after

/-- KEY_TABLE_UPDATE (R385): the update in progress goes on through its steps up to `upTo` (1 blobs, 2 copy A, 3 copy B). -/
def keyTableUpdate (d : Dev) (n : Now) (upTo : Nat) : Dev :=
  (([1, 2, 3].filter (fun k => decide (k ≤ upTo))).foldl (fun d k => d.tableStep n k) d.startSeals).startSeals

/-! ## Activation (R415) -/

/-- Every writable parameter instance of a variant. -/
def allKeys (v : Variant) : List (Nat × Nat) :=
  paramGroups.flatMap (fun g => ((List.range g.defs.length).map (· + g.base)).flatMap (fun id =>
    (List.range (g.count v)).filterMap (fun i => match paramDef id with
      | some p => if readOnlyAt p id i then none else some (id, i)
      | none => none)))

/-- The entries of the commit that a new pattern makes at handover (R417): every parameter that no held lease covers takes the pattern's
value, where it differs. -/
def Dev.handoverEntries (d : Dev) (t : Nat) (p : Pattern) : List Entry :=
  let s := p.store
  (allKeys d.variant).filterMap (fun k =>
    let leased : Bool := match coveredBy d.variant k.1 k.2 with
      | some r => d.heldByAny t r.1 r.2
      | none => false
    let v := s.val k.1 k.2
    if leased || d.par.committed.val k.1 k.2 == v then none else some ⟨k.1, k.2, v⟩)

/-- Why a new pattern cannot take over: failure records, or none; an unreadable pattern or one whose buffers do not fit has none to show. -/
def Dev.newPatternFails (d : Dev) (t slot : Nat) : Option (List Failure) :=
  match readPattern (d.imgBody 2 slot) with
  | none => some []
  | some p => match d.placePatBufs p.bufs with
    | none => some []
    | some d => match d.patternFails p (d.handoverEntries t p) with
      | [] => none
      | l => some l

/-- Whether the peer is in a trial or a changeover, as its heartbeat shows. -/
def Dev.peerUpdating (d : Dev) (t : Nat) : Bool :=
  d.pairOn && d.hbSeen t && (rd d.pair.peer 8 1 == 8 || bit (rd d.pair.peer 9 1) 4)

/-- Whether the peer's image range excludes a firmware's range (R424). -/
def Dev.peerExcludes (d : Dev) (t slot : Nat) : Bool :=
  d.pairOn && d.hbSeen t && d.pair.peerVer.any (fun v =>
    let h := d.imgHeader 1 slot
    decide (min (rd h 36 2) v.1 < max (rd h 38 2) v.2))

/-- UPD_ACTIVATE (R415): the tests, then the re-seal; the reply comes when the boot record is written. -/
def handleUpdActivate (d : Dev) (n : Now) (m : Msg) : Dev :=
  let kinds := rd m.j.payload 0 1 % 4
  let mode := rd m.j.payload 1 1
  if m.j.payload.length != 4 || decide (1 < mode) then d.reject m 0x8206
  else if kinds == 0 || (kindsOf kinds).any (fun k => !d.verified k (d.idleSlot k)) then d.reject m 0x8E0C
  else if d.upd.phase != 0 || d.upd.trialFlag || d.peerUpdating n.abs || (mode == 0 && d.flt.pairs.any (fun p => p.state == 3)) then
    d.reject m 0x8E0D
  else if bit kinds 0 && d.peerExcludes n.abs (d.idleSlot 1) then d.reject m 0x8E0E
  else match (kindsOf kinds).findSome? (fun k => d.acceptCode k (d.imgHeader k (d.idleSlot k))) with
    | some c => d.reject m c
    | none => match (if bit kinds 1 then d.newPatternFails n.abs (d.idleSlot 2) else none) with
      | some l => d.reply m 0x8E10 (txnReply 0 0 0 [] l [])
      | none =>
        (d.onUpd (fun u => { u with
          phase := if mode == 0 then 2 else 1, trialKinds := kinds, wasReady := d.pair.mirrored && d.pair.ready, entered := none
          back := none })).addSeal (.activate kinds mode (m.held 0 []))

/-! ## Changeover (R416 to R418) -/

/-- Whether a controller pair is idle and in service (R20, R462): a changeover, a changeback and a trial's recovery need one to become active. -/
def Dev.sparePair (d : Dev) : Bool := d.flt.pairs.any (fun (p : CtlPair) => p.state == 0)

/-- REJECTED is set in the slots of a trial that ends without confirmation. -/
def Dev.rejectSlots (d : Dev) (slots : List (Nat × Nat)) : Dev :=
  slots.foldl (fun d k => (d.trailerMark k.1 k.2 44).setImg k.1 k.2 5) d

/-- CHANGEOVER_ABANDON (R418): the old pair goes on, the record reverts, the new slots are rejected; 0x0E06 with cause 5 follows. A
changeback that cannot be handed over ends as one without a resident pair (R420). -/
def Dev.abandonChange (d : Dev) : Dev :=
  match d.upd.back with
  | some cause =>
    let d := d.rejectSlots ((kindsOf d.upd.trialKinds).map (fun k => (k, d.runSlot k)))
    d.onUpd (fun u => { u with entered := none, back := none, resident := false, phase := 5, jobs := u.jobs ++ [UpdJob.revert cause] })
  | none =>
    let d := d.rejectSlots ((kindsOf d.upd.trialKinds).map (fun k => (k, d.idleSlot k)))
    d.onUpd (fun u => { u with entered := none, phase := 5, jobs := u.jobs ++ [UpdJob.revert 5] })

/-- The controller pair that is idle. -/
def Dev.idlePair (d : Dev) : Nat := if (d.flt.pairs.getD 0 {}).state == 0 then 0 else 1

/-- CHANGEOVER_READY (R416): the idle pair has loaded its firmware at the flash rate, hashed it and tested itself; Changeover is entered at the
next boundary. A resident pair holds its image. A body that fails its hash, or a section table that cannot be loaded, ends the changeover (R418). -/
def changeoverReady (d : Dev) (n : Now) : Dev :=
  let loading := d.upd.phase == 2 && d.upd.entered.isNone && d.upd.jobs.isEmpty && d.upd.seals.isEmpty && d.key.update.isNone
  let fw := d.newSlot d.upd.trialKinds 1
  if !d.sparePair then d
  else if loading then
    if n.abs < d.upd.loadAt + d.flashCycles (rd (d.imgHeader 1 fw) 20 4) then d
    else if d.bodyHashOk 1 fw && d.sectionsOk fw then (d.loadPair d.idlePair fw).onUpd (fun u => { u with entered := some (n.heat + 1) }) else d.abandonChange
  else if d.upd.phase == 5 && d.upd.back.isSome && d.upd.entered.isNone then d.onUpd (fun u => { u with entered := some (n.heat + 1) })
  else d

/-- The controller pairs change places. -/
def Dev.swapPairs (d : Dev) : Dev :=
  { d with flt := { d.flt with pairs := d.flt.pairs.map (fun (p : CtlPair) =>
      if p.state == 1 then { p with state := 0 } else if p.state == 0 then { p with state := 1 } else p) } }

/-- The key engine exchanges M and M_next (R391, R420): AK(M), its certificate, and the bound slots under the M that runs. -/
def Dev.swapMeasure (d : Dev) (n : Now) : Dev :=
  match d.key.mNext with
  | none => d
  | some m =>
    let d : Dev := { d with key := { d.key with
      m := m, mNext := some d.key.m, fwHash := d.key.fwHashN, patHash := d.key.patHashN, fwHashN := d.key.fwHash, patHashN := d.key.patHash } }
    let d := d.signAlias
    ((List.range 64).filter (fun i => (d.keySlot i).branch == 1 && (d.keySlot i).state == 1)).foldl (fun d i => d.loadSlot n i) d

/-- The images that run are reported. -/
def Dev.tellImages (d : Dev) : Dev :=
  let fw := d.imgHeader 1 d.upd.fwRun
  let pat := d.imgHeader 2 d.upd.patRun
  let d : Dev := { d with key := { d.key with fwSvn := rd fw 12 4, patSvn := rd pat 12 4 } }
  (d.setSN P.upd_fw_version 0 (rd fw 16 4)).setSN P.upd_pat_version 0 (rd pat 16 4)

/-- A pattern takes over a running device (R417): its values become the pattern's, one commit of the device applies them where no lease
is held, and its scenes stand. Scripts are not run. -/
def Dev.patternTakesOver (x : DM) (n : Now) : DM :=
  match readPattern (x.dev.imgBody 2 x.dev.upd.patRun) with
  | none => x
  | some p =>
    match x.dev.placePatBufs p.bufs with
    | none => x
    | some d =>
      let es := d.handoverEntries n.abs p
      let x := writePatBufs ⟨d, x.mem⟩ p.bufs
      let d := x.dev
      let d : Dev := { d with par := { d.par with pattern := p.store }, pwr := { d.pwr with scripts := p.scripts } }
      let d := p.skipped.foldl (fun d s => d.raise n 0x0103 whole (leBytes 2 s.1 ++ leBytes 4 s.2)) d
      let d : Dev := { d with integ := { d.integ with scenes := p.scenes.map (·.1) } }
      let judged := (d.projected (d.par.committed.write es)).judgeScenes p.scenes
      let d := (d.loadScenes n judged).sceneRefs
      let dropped := (judged.filter (fun s => s.2.isSome)).length
      let c : Commit :=
        { acc := d.txn.nextAcc, slot := 32, session := 0, txn := 0, isSet := false, entries := es, kind := 0, output := 0, target := 0
          eff := n.heat, planned := n.heat, shadow := true, writing := true, state := .pending, recheck := false, route := ⟨0, 0, 0⟩
          reqSeq := 0, cycles := 0, outs := [], adjusts := [], jseq := none }
      let d := (d.applyCommit n c).setS P.dev_pattern_name 0 (.blob p.name)
      ⟨d.setSN P.dev_pattern_status 0 (d.upd.patRun + sat 8 dropped * 256 + sat 16 p.skipped.length * 65536), x.mem⟩

/-- The slots change places: the running slot of each KIND that the trial names. -/
def Dev.swapSlots (d : Dev) (kinds : Nat) : Dev :=
  let fw := d.newSlot kinds 1
  let pat := d.newSlot kinds 2
  (d.onUpd (fun u => { u with fwRun := fw, patRun := pat })).tellImages

/-- CHANGEOVER_ABANDON as a command: while a changeover is under way. -/
def changeoverAbandon (d : Dev) : Dev :=
  if (d.upd.phase == 2 && d.upd.jobs.isEmpty && d.upd.seals.isEmpty && d.key.update.isNone) || (d.upd.phase == 5 && d.upd.back.isSome) then
    d.abandonChange
  else d

/-- CHANGEOVER_HANDOVER (R416, R417, R420): the new pair becomes active at this boundary; without one in service the changeover is abandoned. -/
def changeoverHandover (x : DM) (n : Now) (since : Nat) : DM :=
  let d := x.dev
  let kinds := d.upd.trialKinds
  let again := bit kinds 1 && d.upd.back.isNone && (d.newPatternFails n.abs (d.idleSlot 2)).isSome
  if again || !d.sparePair then ⟨d.abandonChange, x.mem⟩
  else
    let old := (kindsOf kinds).map (fun k => (k, d.runSlot k))
    let d := ((d.swapSlots kinds).swapMeasure n).swapPairs
    let x : DM := if bit kinds 1 then Dev.patternTakesOver ⟨d, x.mem⟩ n else ⟨d, x.mem⟩
    let d := x.dev
    let d := (d.raise n 0x0E04 whole (leBytes 1 (sat 8 (n.heat - since)) ++ leBytes 1 0 ++ leBytes 6 (n.heat % 2 ^ 48))).bumpField
      P.upd_stats 0 16 16 1
    let d := match d.upd.back with
      | some cause =>
        (d.rejectSlots old).onUpd (fun u => { u with
          entered := none, back := none, resident := false, trialFlag := false, phase := 5, since := none, condBits := 0
          jobs := u.jobs ++ [UpdJob.revert cause] })
      | none => d.onUpd (fun u => { u with
          entered := none, phase := 3, trialFlag := true, trialAt := n.abs, since := none, condBits := 0, confirmAsked := false
          resident := true, wasRunning := maskOf d.runningOutputs, causes0 := d.sn P.dev_degraded_causes 0, broke := false
          selfTestBad := false })
    ⟨d.ownVersion.pairSend 0x0E20 (d.imageInfo 0), x.mem⟩

/-- The changeover at a boundary: `applied` tells that the new pair has applied the capture and every delta. Within 16 heats of entry. -/
def changeoverBoundary (x : DM) (n : Now) (applied : Bool) : DM :=
  match x.dev.upd.entered with
  | none => x
  | some h =>
    let m := x.dev.pwr.mode
    if m == .changeover || (m == .takeover && decide (h < n.heat)) then
      if n.heat ≤ h then x
      else if decide (h + 16 < n.heat) then ⟨x.dev.abandonChange, x.mem⟩
      else if applied then changeoverHandover x n h
      else x
    else if decide (h < n.heat) then ⟨x.dev.onUpd (fun u => { u with entered := some n.heat }), x.mem⟩
    else x

/-! ## Trial (R419 to R421) -/

/-- The five conditions of R419 in this heat, as a mask. -/
def Dev.trialConds (d : Dev) : Nat :=
  let u := d.upd
  maskOf ((List.range 5).filter (fun i => match i with
    | 0 => !u.selfTestBad
    | 1 => !u.broke && decide (d.work.overrunRun < d.cn P.time_overrun_limit 0)
    | 2 => (setBits 16 u.wasRunning).all (fun g => (d.tgen g).state == .running)
    | 3 => d.pwr.mode != .latched && (setBits 16 (d.sn P.dev_degraded_causes 0)).all (bit u.causes0)
    | _ => !u.wasReady || (d.pair.mirrored && (d.pair.ready || d.pair.role != .standby))))

/-- Begin a changeback (R420): through the resident pair, or for the next start. -/
def Dev.changeBack (d : Dev) (cause : Nat) : Dev :=
  if d.upd.resident && d.sparePair then d.onUpd (fun u => { u with phase := 5, back := some cause, entered := none })
  else
    let d := d.rejectSlots ((kindsOf d.upd.trialKinds).map (fun k => (k, d.runSlot k)))
    d.onUpd (fun u => { u with phase := 5, resident := false, trialFlag := false, since := none, condBits := 0, jobs := u.jobs ++ [UpdJob.revert cause] })

/-- The hard window evaluates the trial (R419); a failed self-test changes back with cause 2 (R420). -/
def Dev.trialEval (d : Dev) (n : Now) (selfTestBad : Bool) : Dev :=
  if !(d.upd.trialFlag && d.upd.phase == 3) then d
  else
    let d := d.onUpd (fun u => { u with selfTestBad := u.selfTestBad || selfTestBad })
    let c := d.trialConds
    let d := d.onUpd (fun u => { u with
      condBits := c, broke := false, since := if c == 31 then some (u.since.getD n.abs) else none })
    if d.upd.selfTestBad then d.changeBack 2 else d

/-- Whether the conditions have held for 5 s. -/
def Dev.trialHeld (d : Dev) (t : Nat) : Bool := d.upd.since.any (fun s => decide (s + 5000 * msCycles ≤ t))

/-- Confirmation begins (R419 step 1): CONFIRMED is set, then the boot record is rewritten. -/
def Dev.beginConfirm (d : Dev) : Dev :=
  let d := (kindsOf d.upd.trialKinds).foldl (fun d k => d.trailerMark k (d.runSlot k) 40) d
  d.onUpd (fun u => { u with phase := 4, jobs := u.jobs ++ [.confirm] })

/-- TRIAL_CONFIRM (R419): the conditions have held for 5 s, and with `upd.confirm_mode` 1 UPD_CONFIRM has come. -/
def trialConfirm (d : Dev) (n : Now) : Dev :=
  if d.upd.trialFlag && d.upd.phase == 3 && d.trialHeld n.abs && (d.cn P.upd_confirm_mode 0 == 0 || d.upd.confirmAsked) then d.beginConfirm
  else d

/-- UPD_CONFIRM (R419): confirms at once when the conditions have held. -/
def handleUpdConfirm (d : Dev) (n : Now) (m : Msg) : Dev :=
  if !m.j.payload.isEmpty then d.reject m 0x8206
  else if d.upd.trialFlag && d.upd.phase == 3 && d.trialHeld n.abs then
    ((d.onUpd (fun u => { u with confirmAsked := true })).beginConfirm).reply m 0 []
  else d.reject m 0x8E0F

/-- UPD_REVERT (R420). -/
def handleUpdRevert (d : Dev) (m : Msg) : Dev :=
  if !m.j.payload.isEmpty then d.reject m 0x8206
  else if d.upd.trialFlag && d.upd.phase == 3 then (d.changeBack 3).reply m 0 []
  else d.reject m 0x8E0F

/-- CONFIRM_TIMEOUT (R420): `upd.confirm_s` has passed without confirmation. -/
def confirmTimeout (d : Dev) (n : Now) : Dev :=
  if d.upd.trialFlag && d.upd.phase == 3 && decide (d.upd.trialAt + d.cn P.upd_confirm_s 0 * 1000 * msCycles ≤ n.abs) then d.changeBack 1
  else d

/-- BOOT_RECORD_WRITTEN (R412): the record of the work in hand is written, copy A alone (`upTo` 1) or both. -/
def bootRecordWritten (d : Dev) (n : Now) (upTo : Nat) : Dev :=
  match d.upd.jobs.find? (fun j => match j with | .verify _ _ => false | _ => true) with
  | none => d
  | some j =>
    let b := d.jobRecord j
    if upTo < 2 then (if upTo == 1 then d.writeRecordCopy 0 b else d)
    else
      let d := (d.writeRecord b).onUpd (fun u => { u with jobs := u.jobs.erase j })
      match j with
      | .activate kinds mode reply =>
        (((d.onUpd (fun u => { u with loadAt := n.abs })).raise n 0x0E03 whole (leBytes 1 kinds ++ leBytes 1 mode ++ leBytes 1 (d.recField 13))).bumpField P.upd_stats 0 0 16 1).hold reply
      | .confirm => d.addSeal (.confirm d.upd.trialKinds)
      | .revert cause =>
        let d := (d.onUpd (fun u => { u with phase := 0, trialKinds := 0, trialFlag := false })).raise n 0x0E06 whole (leBytes 1 cause)
        (if cause == 5 then d else d.bumpField P.upd_stats 0 32 16 1).addSeal .unseal
      | .verify _ _ => d

/-! ## A trial pair's fault (R421) -/

/-- The handed-over state (R417) as the resident pair takes it from its checkpoint; the data path stays at its live registers. -/
def Dev.resumeFrom (d c : Dev) : Dev :=
  let slots := (List.range 32).map (fun i =>
    let a := c.slot i
    let b := d.slot i
    if a.gen == b.gen && a.state == b.state then { a with inbox := b.inbox } else a)
  let bufs := c.cru.bufs.map (fun (b : Buf) => (d.cru.bufs.find? (fun x => x.handle == b.handle)).getD b)
  let p := d.pair
  { d with
    par := { c.par with live := d.par.live, overlay := d.par.overlay }
    ctl := { c.ctl with slots := slots, pre := d.ctl.pre, eth := d.ctl.eth, can := d.ctl.can }
    txn := c.txn
    cru := { d.cru with bufs := bufs, gens := c.cru.gens }
    integ := { c.integ with reverse := d.integ.reverse }
    pair := { c.pair with
      drag := p.drag, checkedIn := p.checkedIn, missed := p.missed, expired := p.expired, forcedLow := p.forcedLow, ownOut := p.ownOut
      alivePin := p.alivePin, aliveAt := p.aliveAt, hbAt := p.hbAt, seqOut := p.seqOut, seqIn := p.seqIn, taken := p.taken } }

/-- The resident pair resumes at this boundary and completes the changeback with cause 4 (R421). -/
def trialResume (x : DM) (n : Now) (ckpt : Option Dev) : DM :=
  if !x.dev.upd.resume then x
  else
    let d := match ckpt with | some c => x.dev.resumeFrom c | none => x.dev
    let kinds := d.upd.trialKinds
    let old := (kindsOf kinds).map (fun k => (k, d.runSlot k))
    let d := (d.swapSlots kinds).swapMeasure n
    let x : DM := if bit kinds 1 then Dev.patternTakesOver ⟨d, x.mem⟩ n else ⟨d, x.mem⟩
    let d := (x.dev.rejectSlots old).onUpd (fun u => { u with
      entered := none, back := none, resident := false, trialFlag := false, phase := 5, since := none, condBits := 0, resume := false
      jobs := u.jobs.filter (fun j => match j with | .verify _ _ => true | _ => false) ++ [UpdJob.revert 4] })
    ⟨{ d with flt := { d.flt with halted := none } }, x.mem⟩

end Sys2Proof.Machine
end

