-- ==== Sys2Proof/Machine/Boot.lean ====
section
/-!
DEFINITION. Reset and the start from cold (R375, R376, R413, R414, R433 to R437).
-/

namespace Sys2Proof.Machine

/-! ## Reset (R429, R431, R433) -/

/-- The device in Reset. OTP, flash, the always-on pins and boot-class values that wait for a start stay; a reset that is not by RESET_N
also keeps the band memory, PAIR_ID and VDDIO_B (R276, R431). FAULT_N is low (R463). -/
def Dev.afterReset (d : Dev) (n : Now) (modeCause cause : Nat) : Dev :=
  let soft : Bool := cause != 1
  let cups : List Cupola := if soft then d.clk.cups.map (fun (c : Cupola) => ({ mem := c.mem } : Cupola)) else List.replicate 4 {}
  let r := Dev.reset
  let e : Dev := { r with
    variant := d.variant, otp := d.otp, flash := d.flash, out := d.out, fresh := d.fresh
    par := { r.par with bootPending := d.par.bootPending }
    clk := { r.clk with cups := cups }
    pair := { r.pair with drag := soft && d.pair.drag }
    pwr := { r.pwr with
      mode := d.pwr.mode, soft := soft, pwrEn := d.pwr.pwrEn, aon := d.pwr.aon, aonAt := d.pwr.aonAt, gpioIn := d.pwr.gpioIn } }
  let e := if soft then e.setSN P.dev_vddio_b 0 (d.sn P.dev_vddio_b 0) else e
  ((e.setSN P.dev_reset_cause 0 cause).setMode n .reset modeCause).pinAssert n

/-- RESET_N_ASSERT (R433): RESET_N low (cause 1) or a supply monitor trip (cause 2); the crucible holds nothing defined afterwards
(assumption 3). -/
def resetNAssert (x : DM) (n : Now) (cause : Nat) : DM :=
  if cause == 1 || cause == 2 then ⟨x.dev.afterReset n 1 cause, []⟩ else x

/-- A restart that a command asked for takes place at once (R429, R431). -/
def restartNow (x : DM) (n : Now) : DM :=
  match x.dev.pwr.restart with
  | some (modeCause, cause) => ⟨x.dev.afterReset n modeCause cause, []⟩
  | none => x

/-! ## The boot record and trials (R413, R414) -/

/-- The ROM chooses a boot record copy (R413); 0x0E07 with the case. -/
def Dev.bootRecordChoice (d : Dev) (n : Now) : Dev :=
  let a := d.flashBytes 0 64
  let b := d.flashBytes 0x1000 64
  let use (r : Bytes) : Dev := d.onUpd (fun u => { u with record := r })
  let told (d : Dev) (k : Nat) : Dev := (d.raise n 0x0E07 whole (leBytes 1 k)).bumpField P.upd_stats 0 48 16 1
  let slot (kind : Nat) : Nat := if d.confirmed kind 1 && !d.confirmed kind 0 then 1 else 0
  let fresh (seq k : Nat) : Dev := told (d.writeRecord (bootRecord seq (slot 1) (slot 2) (slot 1) (slot 2) 0 0)) k
  match recordIntact a, recordIntact b with
  | true, true =>
    if rd b 4 4 < rd a 4 4 then use a
    else if rd a 4 4 < rd b 4 4 then use b
    else if a == b then use a
    else fresh (rd a 4 4 + 1) 2
  | true, false => told ((use a).writeRecordCopy 1 a) 1
  | false, true => told ((use b).writeRecordCopy 0 b) 1
  | false, false => fresh 1 3

/-- The ROM handles a trial (R414): a finished one is confirmed, an attempt is consumed, or the record reverts. -/
def Dev.bootTrial (d : Dev) (n : Now) : Dev :=
  let kinds := d.recField 12
  let slots := (kindsOf kinds).map (fun k => (k, d.recField (k + 7)))
  let left := d.recField 13
  if slots.isEmpty then d
  else if slots.all (fun s => d.confirmed s.1 s.2) then
    d.onUpd (fun u => { u with phase := 4, trialKinds := kinds, jobs := u.jobs ++ [.confirm] })
  else if left == 0 then
    ((d.rejectSlots slots).writeRecord
      (bootRecord (d.recSeq + 1) (d.recField 10) (d.recField 11) (d.recField 10) (d.recField 11) 0 0)).raise n 0x0E08 whole
      (leBytes 1 2 ++ leBytes 1 0)
  else
    ((d.writeRecord (bootRecord (d.recSeq + 1) (d.recField 8) (d.recField 9) (d.recField 10) (d.recField 11) kinds (left - 1))).onUpd
      (fun u => { u with phase := 3, trialFlag := true, trialKinds := kinds, trialAt := n.abs })).raise n 0x0E08 whole
      (leBytes 1 1 ++ leBytes 1 (left - 1))

/-- Why a slot cannot start (R404, R414): its acceptance, its hash, or a section table that cannot be loaded (R405, assumption 74). -/
def Dev.startCode (d : Dev) (kind slot : Nat) : Option Nat :=
  match d.acceptCode kind (d.imgHeader kind slot) with
  | some c => some c
  | none => if d.bodyHashOk kind slot && (kind != 1 || d.sectionsOk slot) then none else some 0x8E0B

/-- The slot of a KIND that starts, and why the RUN slot does not: the other slot starts when it is marked confirmed and passes (R414). -/
def Dev.startSlot (d : Dev) (kind : Nat) : Option (Nat × Option Nat) :=
  let run := d.recField (kind + 7)
  match d.startCode kind run with
  | none => some (run, none)
  | some c =>
    let other := 1 - run
    if d.confirmed kind other && (d.startCode kind other).isNone then some (other, some c) else none

/-! ## The root secret (R375, R376) -/

/-- The check value of a root secret (R375). -/
def rootCheck (rs : Bytes) : Bytes := (kdf rs (ascii "elyel-root-check") [] 128).take 16

/-- The helper data an ELY-2416 writes at its enrolment (R375): 2,048 bytes that depend on the power-up state, free values (assumption 1). -/
def Dev.helperData (d : Dev) : Bytes × Dev :=
  (List.range 64).foldl (fun (x : Bytes × Dev) _ =>
    let (v, d) := x.2.draw
    (x.1 ++ freeBytes 32 v, d)) ([], d)

/-- The root secret is established at the first start (R375): 0x0D01; Provisioning follows. -/
def Dev.enrol (d : Dev) (n : Now) (b : BootIn) : Dev :=
  let two : Bool := d.variant == .ely2416
  let (v, d) := if two then (0#256, d) else d.draw
  let rs := if two then sha256 b.puf else freeBytes 32 v
  let (help, d) := if two then d.helperData else ([], d)
  let d : Dev := { d with otp := { d.otp with enrolled := true, check := rootCheck rs, root := if two then d.otp.root else rs, helper := help }
                          pwr := { d.pwr with enrolling := true } }
  (d.raise n 0x0D01 whole (leBytes 1 (if two then 0 else 1))).askMode 3

/-- The root secret is checked (R376): a mismatch latches the device, or in Returned leaves only Maintenance (Table 17.7). -/
def Dev.rootCheckStep (d : Dev) (n : Now) (b : BootIn) : Dev :=
  let two : Bool := d.variant == .ely2416
  let rs := if two then sha256 b.puf else d.otp.root
  let d : Dev := { d with key := { d.key with fromOtp := !two, bch := b.bch } }
  if !b.eccFail && !d.otp.erased && rootCheck rs == d.otp.check then
    let d : Dev := { d with key := { d.key with rs := some rs } }
    if two && decide (12 < b.bch) then d.raise n 0x0D02 whole (leBytes 1 b.bch) else d
  else
    let d := d.raise n 0x0D03 whole (leBytes 1 (if !two && b.eccFail then 2 else 1))
    if d.otp.lifecycle == 3 then d.askMode 7 else (d.fault n 16 0 [] true).askMode 21

/-! ## The pattern at a start (R437, R442) -/

/-- One pattern slot is applied; the code of its failure. -/
def patternAt (x : DM) (n : Now) (slot : Nat) : Except Nat DM :=
  match readPattern (x.dev.imgBody 2 slot) with
  | none => .error patternBad
  | some p => applyPattern x n p

/-- A pattern is in force: its slot and whether it is the fallback are reported, degraded cause 6 and 0x0104 told where it is. A pattern
that enables no output has no first pour to wait for: Boot then ends with the pattern (DESIGN CHOICE, assumption 40). -/
def Dev.patternRuns (d : Dev) (n : Now) (slot : Nat) (bad : Option Nat) : Dev :=
  let d := d.putField P.dev_pattern_status 0 0 2 (slot + 2 * b2n bad.isSome)
  let none' := (List.range d.nTx).all (fun g => d.cn P.tg_enable g == 0)
  let first := if none' then some n.abs else d.pwr.firstPour
  let d : Dev := { d with pwr := { d.pwr with applied := true, firstPour := first }, upd := { d.upd with patRun := slot } }
  match bad with
  | none => d
  | some c => (d.degrade 6).raise n 0x0104 whole (leBytes 1 (1 - slot) ++ leBytes 1 0 ++ leBytes 2 c)

/-- No acceptable pattern (R437): Maintenance with parameters at their reset values. -/
def Dev.noPattern (d : Dev) : Dev := ({ d with pwr := { d.pwr with maintOnly := true } } : Dev).askMode 7

/-- The pattern the ROM chose is applied, or the other confirmed slot, or none (R437). -/
def patternStart (x : DM) (n : Now) (pick : Option (Nat × Option Nat)) : DM :=
  match pick with
  | none => x.map Dev.noPattern
  | some (slot, bad) =>
    match patternAt x n slot with
    | .ok y => y.map (fun d => d.patternRuns n slot bad)
    | .error c =>
      let other := 1 - slot
      if bad.isNone && x.dev.confirmed 2 other && (x.dev.startCode 2 other).isNone then
        match patternAt x n other with
        | .ok y => y.map (fun d => d.patternRuns n other (some c))
        | .error _ => x.map Dev.noPattern
      else x.map Dev.noPattern

/-! ## The start (R434, R435) -/

/-- The time since RESET_N release at an instant, in 0.1 ms. -/
def Dev.bootTenths (d : Dev) (t : Nat) : Nat := (d.pwr.leadUs + (t - d.pwr.releasedAt) / 800) / 100

/-- Keys, slots and certificates of the running images (R378, R379, R384, R391). -/
def Dev.bootKeys (d : Dev) (n : Now) (pat : Option Nat) : Dev :=
  let fw := d.imgHash 1 d.upd.fwRun
  let ph := match pat with
    | some s => d.imgHash 2 s
    | none => List.replicate 32 0
  let d := d.tellImages
  let d : Dev := { d with key := { d.key with fwHash := fw, patHash := ph, m := measure fw ph d.key.debugOpen, remaskAt := n.heat } }
  if d.key.rs.isSome then ((d.chooseTable n).loadSlots n).signAlias else d

/-- A start without a trial ends what an earlier trial left in the slot table (R392): where BLOB1 is that of the running M the confirmation
is completed, otherwise BLOB1 is cleared. -/
def Dev.bootSeals (d : Dev) : Dev :=
  if d.recField 12 != 0 || d.key.rs.isNone then d
  else
    let staged := d.key.slots.filter (fun s => s.blob1 != 0xFFFF)
    if staged.isEmpty then d
    else if staged.any (fun s => s.mtag1 == mTag d.key.m) then d.addSeal (.confirm 0) else d.addSeal .unseal

/-- The scripts that begin with a trigger bit (R441), in script-number order. -/
def Dev.startScripts (d : Dev) (n : Now) (bit' : Nat) : Dev :=
  let l := (List.range 64).filter (fun k => d.pwr.scripts.any (fun (s : Script) => s.no == k && bit s.mask bit'))
  let run := d.pwr.running ++ (l.filter (fun k => !d.pwr.running.any (fun r => r.1 == k))).map (fun k => (k, n.abs))
  { d with pwr := { d.pwr with running := run } }

/-- The controller pair has loaded its firmware and the images' keys are in use (R405, R435), before the pattern. -/
def Dev.bootLoad (d : Dev) (n : Now) (fwAt fw : Nat) (pick : Option (Nat × Option Nat)) : Dev :=
  let d := d.faultEnds n 19
  let d : Dev := { d with pwr := { d.pwr with noFirmware := false } }
  let d := ((d.onUpd (fun u => { u with fwRun := fw })).loadPair 0 fw).ownVersion.setSN P.dev_boot_stats 0 (sat 16 (d.bootTenths fwAt))
  let d := match pick with
    | some (s, _) => d.onUpd (fun u => { u with patRun := s })
    | none => d
  d.bootKeys n (pick.map (·.1))

/-- What follows the pattern at a start: slot states, seals, what a trial watches, the pair, the scripts. -/
def bootFinish (x : DM) (n : Now) : DM :=
  let d := x.dev.loadImgStates.tellImages.bootSeals
  let d := d.putField P.dev_boot_stats 0 16 16 (sat 16 (d.bootTenths n.abs))
  let run := maskOf ((List.range d.nTx).filter (fun g => d.cn P.tg_enable g == 1))
  let ours := (kindsOf d.upd.trialKinds).all (fun k => d.runSlot k == d.recField (k + 7))
  let d := d.onUpd (fun u => { u with
    wasRunning := run, causes0 := d.sn P.dev_degraded_causes 0, trialFlag := u.trialFlag && ours
    phase := if u.trialFlag && !ours then 0 else u.phase })
  let d := if d.pairOn then d.onPair (fun p => { p with role := .joining }) else d
  ⟨if d.pwr.applied then d.startScripts n 0 else d, x.mem⟩

/-- The start from step 5 on: boot record, images, controller pair, keys, pattern, outputs (R435). -/
def bootFromFlash (x : DM) (n : Now) (fwAt : Nat) : DM :=
  let d := (x.dev.bootRecordChoice n).bootTrial n
  match d.startSlot 1 with
  | none =>
    let d := if d.flt.isActive 19 then d else d.fault n 19 0 [] true
    ⟨{ d with pwr := { d.pwr with noFirmware := true, retryAt := n.abs } }, x.mem⟩
  | some (fw, _) => bootFinish (patternStart ⟨d.bootLoad n fwAt fw (d.startSlot 2), x.mem⟩ n (d.startSlot 2)) n

/-- `dev.ref_pref` as the ROM finds it (R434): a value that waits for a start, else that of the running pattern's records, else 0. -/
def Dev.refPref (d : Dev) : Nat :=
  match d.par.bootPending.look (pkey P.dev_ref_pref 0) with
  | some v => v.toNat
  | none =>
    let slot := (d.bootRecordChoice ⟨0, 0⟩).recField 9
    match readPattern (d.imgBody 2 slot) with
    | some p => p.store.num P.dev_ref_pref 0
    | none => 0

/-- The source the ROM takes (R434): 0 REFCLK, 1 the crystal; `none` while it waits for REFCLK. -/
def refChoice (pref : Nat) (edges : Bool) : Option Nat :=
  if pref == 1 then (if edges then some 0 else none) else if pref == 2 then some 1 else if edges then some 0 else some 1

/-- Cupola 0 locks at the start (R276, R435 step 3). -/
def Dev.bootCupola (d : Dev) (n : Now) (b : BootIn) : Dev :=
  let d := d.onCup 0 (fun c => c.begin_ n.abs 384)
  cupolaLocked (bandFound d n 0 b.band) n 0 b.code

/-- The instant at which a start's work ends: heats run from cupola 0's lock, from 0 after RESET_N and on from the last one after any
other reset (R25). -/
def bootNow (d : Dev) (n : Now) (b : BootIn) : Now := ⟨(if d.pwr.soft then n.heat else 0) + b.heats, n.cycle⟩

/-- Whether a device is in Reset, or fresh from its first supply with the ROM not yet run. -/
def Dev.inReset (d : Dev) : Bool := d.pwr.mode == .reset || (d.pwr.mode == .boot && !d.pwr.booted)

/-- RESET_N_RELEASE (R433 to R435): the straps are sampled, the reference is chosen and the ROM and firmware start; the instant at which
that ends. With no source for the reference the ROM waits. -/
def resetNRelease (x : DM) (n : Now) (b : BootIn) : DM × Now :=
  let d := x.dev
  if !d.inReset then (x, n)
  else match refChoice d.refPref b.refEdges with
    | none => (x, n)
    | some src =>
      let m := bootNow d n b
      let soft := d.pwr.soft
      let base := if soft then n.heat else 0
      let d := if d.pwr.mode == .reset then d.setMode ⟨base, 0⟩ .boot 2 else d
      let d := if soft then d else (d.onPair (fun p => { p with drag := b.drag })).setSN P.dev_vddio_b 0 (b2n b.vddioB)
      let d : Dev := { d with
        pwr := { d.pwr with booted := true, releasedAt := base * heatCycles, leadUs := b.leadUs }
        flt := { d.flt with pinAt := base * heatCycles } }
      let d := (d.setSN P.dev_ref_source 0 src).onRef (fun r => { r with source := src })
      let d := d.bootCupola ⟨base, 0⟩ b
      if !d.otp.enrolled then (⟨d.enrol m b, x.mem⟩, m)
      else
        let d := d.rootCheckStep m b
        let (v, d) := d.draw
        let open' : Bool := d.otp.debugNext && d.otp.lifecycle == 1
        let d : Dev := { d with
          key := { d.key with bootId := freeBytes 8 v, debugOpen := open' }, otp := { d.otp with debugNext := false } }
        (bootFromFlash ⟨d, x.mem⟩ m ((base + b.fwAt) * heatCycles), m)

/-- BOOT_RETRY (R437): once per second the ROM tries again from step 5; a board programmer may have written the flash meanwhile. -/
def bootRetry (x : DM) (n : Now) (b : BootIn) : DM :=
  let d := x.dev
  if !(d.pwr.mode == .boot && d.pwr.noFirmware) || decide (n.abs < d.pwr.retryAt + 1000 * msCycles) then x
  else
    let d := b.flash.foldl (fun (d : Dev) w => d.program w.1 w.2) d
    bootFromFlash ⟨d, x.mem⟩ n n.abs

/-- FIRST_POUR_AFTER_BOOT (R370, R429): the first pour after the pattern was applied is reported with 0x0102; a single unit leaves Boot for
Autonomous, a unit of a pair begins to watch for its peer. At a boundary the mode changes at once. -/
def firstPourAfterBoot (d : Dev) (n : Now) : Dev :=
  match d.pwr.firstPour with
  | none => d
  | some t =>
    if !(d.pwr.mode == .boot && d.pwr.applied) || d.sn P.dev_boot_time_us 0 != 0 then d
    else
      let us := d.pwr.leadUs + (t - d.pwr.releasedAt) / 800
      let d := d.setSN P.dev_boot_time_us 0 (sat 32 us)
      let d := d.putField P.dev_boot_stats 0 32 16 (sat 16 (us / 100))
      let d := d.raise n 0x0102 whole (leBytes 4 us ++ leBytes 1 (d.sn P.dev_ref_source 0))
      let d := if d.pairOn then d.onPair (fun p => { p with role := .joining, bootWait := some n.abs }) else d.askMode 5
      if n.cycle == 0 then d.modeBoundary n else d

end Sys2Proof.Machine
end

