-- ==== Sys2Proof/Machine/Power.lean ====
section
/-!
DEFINITION. DEV_MODE, Banked and wake, the core supply, temperature, scripts and the always-on pins (R431, R432, R441, R444 to R453).
-/

namespace Sys2Proof.Machine

/-! ## DEV_MODE (R431, R444, R448) -/

/-- The wake sources armed, as `dev.wake_src`. -/
def Dev.armed (d : Dev) : Nat := d.cn P.dev_wake_src 0

/-- A heat no boundary reaches: Banked entry that waits for its journal record's release (R448). -/
abbrev bankLater : Nat := 2 ^ 49

/-- Banked entry is asked for (R444, R448): at the next boundary, or through the journal of a mirrored pair. -/
def Dev.askBank (d : Dev) (n : Now) (cause : Nat) : Dev :=
  if d.pair.mirrored then
    ({ d with pwr := { d.pwr with bankAt := some (cause, bankLater) } } : Dev).jPush n.abs 6 (n.heat + 2) 0
      (leBytes 2 0x0101 ++ leBytes 2 0 ++ leBytes 1 4 ++ leBytes 3 0)
  else { d with pwr := { d.pwr with bankAt := some (cause, n.heat + 1) } }

/-- DEV_MODE (R431): 0x8101 where the mode does not permit the operation, 0x8102 where a wake source is active or a mirrored standby is
asked alone (R444, R448). -/
def handleDevMode (d : Dev) (n : Now) (m : Msg) : Dev :=
  let op := rd m.j.payload 0 1
  let mode := d.pwr.mode
  let early : Bool := mode == .reset || mode == .boot || mode == .provisioning
  if m.j.payload.length != 4 || decide (4 < op) || op == 0 then d.reject m 0x8206
  else if op == 1 then
    if early || mode == .latched || mode == .maintenance then d.reject m 0x8101 else (d.askMode 19).reply m 0 []
  else if op == 2 then
    if mode != .maintenance then d.reject m 0x8101
    else { d.reply m 0 [] with pwr := { d.pwr with restart := some (20, 3) } }
  else if op == 3 then { d.reply m 0 [] with pwr := { d.pwr with restart := some (1, 3) } }
  else if !(mode == .autonomous || mode == .run || mode == .degraded || mode == .standby) then d.reject m 0x8101
  else if (setBits 5 d.armed).any (bit d.pwr.wakeLines) || (d.pair.mirrored && d.pair.role == .standby) then d.reject m 0x8102
  else if d.pwr.bankAt.isSome then d.reply m 0 []
  else (d.askBank n 2).reply m 0 []

/-! ## Banked entry (R444, R445) -/

/-- The wake sources at a boundary: WAKE, REVERSE_IN and every armed source inactive since (R444); REVERSE_IN is sampled (R268). -/
def Dev.wakeSample (d : Dev) (n : Now) (lines : Nat) : Dev :=
  let busy := (setBits 5 lines).any (fun i => decide (i < 2) || bit d.armed i)
  let since := if busy || d.pwr.mode != .autonomous then none else some (d.pwr.idleSince.getD n.abs)
  ({ d with pwr := { d.pwr with wakeLines := lines, idleSince := since } } : Dev).reverseSample (bit lines 1)

/-- BANK_IDLE_TIMEOUT (R444, R448): in Autonomous, with every wake source inactive for `dev.bank_idle_ms`; a unit of a pair that is not
mirrored enters on DEV_MODE only. -/
def bankIdleTimeout (d : Dev) (n : Now) : Dev :=
  let ms := d.cn P.dev_bank_idle_ms 0
  if ms == 0 || d.pwr.mode != .autonomous || d.pwr.bankAt.isSome || d.pwr.bankBegun || (d.pairOn && !d.pair.mirrored) then d
  else if d.pwr.idleSince.any (fun s => decide (s + ms * msCycles ≤ n.abs)) then d.askBank n 1
  else d

/-- Banked entry begins (R444 steps 1 and 2): sessions close, generators are to stop after their frame, receive ports, serial ports, PDM
inputs and sprues stop. -/
def Dev.bankBegin (d : Dev) (n : Now) : Dev :=
  let run := maskOf ((List.range d.nTx).filter (fun g => (d.tgen g).state != .stopped && !(d.tgen g).stopping))
  let d := d.closeAll n (fun _ => true)
  let d : Dev := { d with pwr := { d.pwr with bankBegun := true, sleepRunning := run, heldWake := none, wake := none } }
  let d := (setBits 16 run).foldl (fun d g => d.onTg g (fun t => { t with stopping := true })) d
  let d := (List.range d.nRx).foldl (fun d i => d.rxFollow n i []) d
  let d := (List.range 12).foldl (fun d p => d.sapFollow n p []) d
  let d := (List.range 4).foldl (fun d i => d.pdmFollow n i) d
  (List.range d.nSprue).foldl (fun d i => sprueAbandon d i) d

/-- Banked entry at a boundary: it waits for the end of Takeover and Changeover (R430); a mode that allows none drops it. -/
def Dev.bankBoundary (d : Dev) (n : Now) : Dev :=
  match d.pwr.bankAt with
  | none => d
  | some (_, h) =>
    let mode := d.pwr.mode
    if n.heat < h || d.pwr.bankBegun || mode == .takeover || mode == .changeover then d
    else if mode == .autonomous || mode == .run || mode == .degraded || mode == .standby then d.bankBegin n
    else { d with pwr := { d.pwr with bankAt := none } }

/-- What the crucible RAM keeps (R170): the retained region, when `cru.retention_en` is 1 (assumption 3). -/
def memBanked (keep : Bool) (m : Mem) : Mem := if keep then m.filter (fun c => decide (917504 ≤ c.1 % 1048576)) else []

/-- What a mould keeps at Banked entry: an ingot in use stays valid while the retained region is kept (R226, `keep`); a build is lost, and the
captures are discarded (R258). -/
def Dev.mouldBanked (d : Dev) (m : Nat) (keep : Bool) : Dev :=
  let d := (d.mouldIdle m).dropCaptures m
  d.onIngot m (fun g => { g with
    state := if g.state == .inUse && keep then .inUse else .idle, spoiled := false, dry := false
    cause := if keep then g.cause else none, told := if keep then g.told else [] })

/-- Supplies are lowered (R444 steps 4 and 5): cupolas stop but keep their bands, transmit ports are in ULPS, the link and audio lose their
state. -/
def Dev.bankDown (d : Dev) (n : Now) : Dev :=
  let cups : List Cupola := d.clk.cups.map (fun (c : Cupola) => ({ mem := c.mem, losses := c.losses } : Cupola))
  let d := (List.range d.nTx).foldl (fun d i => d.txEnter n i .ulps) d
  let keep := d.cn P.cru_retention_en 0 == 1
  let d := ((List.range d.nMould).foldl (fun d m => d.mouldBanked m keep) d).ingotRefs
  let d := (crucibleBanked d).audioBanked
  { d with
    clk := { d.clk with cups := cups, ladles := List.replicate 20 {} }
    mor := {}
    pair := { d.pair with expired := true, ownOut := false, checkedIn := false, aliveAt := none, hbAt := none, ready := false }
    pwr := { d.pwr with pwrEn := false, sramRet := true, bankAt := none } }

/-- The set point in force goes out over AVSBus, on rail `dev.avs_rail` (R449). -/
def Dev.sayAvs (d : Dev) : Dev := d.say (.avs (d.cn P.dev_avs_rail 0) (d.sn P.dev_avs_mv 0))

/-- A wake begins (R446, R447): the source, and the heat boundaries since; the set point is sent. -/
def Dev.wakeStart (d : Dev) (n : Now) (source : Nat) : Dev :=
  let d := if source == 1 then d.reverseSet n true else d
  let d : Dev := { d with pwr := { d.pwr with wake := some (source, 0), heldWake := none, pwrEn := true, sramRet := false } }
  let d := if d.cn P.dev_avs_en 0 == 1 then d.sayAvs else d
  let d := d.setSN P.dev_wake_cause 0 (2 ^ source)
  d.enabledCups.foldl (fun d k => d.onCup k (fun c => c.begin_ n.abs (d.cupN k))) d

/-- BANKED_ENTRY_COMPLETE (R444): every output has stopped, and the device is in Banked; a wake event that came meanwhile is acted on. -/
def bankedEntryComplete (x : DM) (n : Now) : DM :=
  let d := x.dev
  let mode := d.pwr.mode
  if !d.pwr.bankBegun || mode == .banked || (List.range d.nTx).any (fun g => (d.tgen g).state != .stopped) then x
  else
    let cause := (d.pwr.bankAt.map (·.1)).getD 2
    let keep : Bool := d.cn P.cru_retention_en 0 == 1
    let d := d.bankDown n
    let d := (d.raise n 0x0107 whole (leBytes 1 cause)).bumpField P.dev_bank_stats 0 0 16 1
    let d := d.setMode n .banked 17
    let d := match d.pwr.heldWake with
      | some s => d.wakeStart n s
      | none => d
    ⟨d, memBanked keep x.mem⟩

/-! ## Wake (R446, R447) -/

/-- Whether a wake source fires (R446): armed, and for CAN its identifier, for a GPIO its function. -/
def Dev.wakes (d : Dev) (source ident : Nat) : Bool :=
  bit d.armed source && decide (source < 5) &&
    (if source == 2 || source == 3 then ident == d.cn P.dev_can_wake_id 0
     else if source == 4 then decide (ident < 4) && d.cn P.gpio_func ident == 7 else true)

/-- WAKE_EVENT (R444, R446): in Banked the wake starts; during entry the event is held. -/
def wakeEvent (d : Dev) (n : Now) (source ident : Nat) : Dev :=
  if !d.wakes source ident then d
  else if d.pwr.mode == .banked then (if d.pwr.wake.isSome then d else d.wakeStart n source)
  else if d.pwr.bankBegun then { d with pwr := { d.pwr with heldWake := some (d.pwr.heldWake.getD source) } }
  else d

/-- T_wake in µs (R447). -/
def Dev.wakeUs (d : Dev) : Nat :=
  let h := (setBits 16 d.pwr.sleepRunning).foldl (fun a g => max a (d.cn P.tg_reseat_hold_us g)) 0
  if h ≤ 1070 then 5000 else 3930 + h

/-- A heat boundary during a wake: heats are counted; 2.90 ms after the event, 0.80 ms after heats resume, receive ports go to Wait and the
clocks start (Table 19.6). -/
def Dev.wakeHeat (d : Dev) (n : Now) : Dev :=
  match d.pwr.wake with
  | some (s, k) =>
    let d : Dev := { d with pwr := { d.pwr with wake := some (s, k + 1) } }
    if d.pwr.bankBegun && decide (8 ≤ k + 1) then
      let d : Dev := { d with pwr := { d.pwr with bankBegun := false } }
      let es : List Entry := (List.range 12).map (fun p => ⟨P.sap_enable, p, numVal 1⟩)
      d.followAll n es
    else d
  | none => d

/-- The layers of retained buffers that a sprue targets are lost until a new complete frame (R445). -/
def Dev.wakeLost (d : Dev) (n : Now) : Dev :=
  (List.range d.nMould).foldl (fun d m => (List.range 3).foldl (fun d k =>
    let h := d.ln P.vl_source (layerInst m k)
    let kept := (d.buf h).any (fun (b : Buf) => b.retained)
    if kept && (d.feeding h).isSome then
      d.onLayer m k (fun l => { l with lost := true, lastNew := h * 2 ^ 32 + (d.newestSeq n.abs h).getD 0 })
    else d) d) d

/-- An output that ran before Banked starts (R447): its values transfer and its first pour comes at T_wake. -/
def Dev.wakeOutput (d : Dev) (n : Now) (g : Nat) : Dev :=
  if d.comingVal P.tg_enable g != 1 || (d.tgen g).shed then d
  else
    let d := (d.onTg g (fun t => { t with reseat := false, stopping := false })).enterHold n g true
    let d := d.onTg g (fun t => { t with reseat := false, state := .running, latched := true })
    let d := d.latchOutput n g false true
    let d := if d.cn P.txp_enable g == 1 then (d.onTx g (fun t => { t with state := .stop })).portRestart n g else d
    (txDeskewDone d n g).freshPour n g

/-- WAKE_COMPLETE (R447): every output that ran before has its first pour at T_wake; 0x0108; the mode of cause 18 follows, or R370 decides
for a unit of a pair (R448). -/
def wakeComplete (d : Dev) (n : Now) : Dev :=
  match d.pwr.wake with
  | none => d
  | some (s, k) =>
    let us := d.wakeUs
    if d.pwr.mode != .banked || decide (k < (us - 2100) / 125) then d
    else
      let d := (d.wakeLost n).scrubWake
      let d := (setBits 16 d.pwr.sleepRunning).foldl (fun d g => d.wakeOutput n g) d
      let d := (d.putField P.dev_bank_stats 0 16 16 (sat 16 us)).setSN P.dev_boot_time_us 0 us
      let d := (d.setC P.time_epoch_ns 0 (numVal 0)).raise n 0x0108 whole (leBytes 1 s)
      let d : Dev := { d with pwr := { d.pwr with wake := none, sleepRunning := 0, idleSince := none } }
      let d := d.startScripts n 1
      if d.pairOn then d.onPair (fun p => { p with role := .joining, bootWait := some n.abs }) else d.askMode 18

/-! ## Bring-up scripts (R441) -/

/-- The effect of one operation: a bus transfer, or the level of a GPIO. -/
def Dev.scriptOp (d : Dev) (ctl : Nat) (o : ScrOp) : Dev :=
  match o.op with
  | 0 => if d.pinsHeld 2 then d else d.sayBus ctl [⟨0, o.addr, 0, true, o.len, o.data⟩]
  | 1 => if d.pinsHeld 2 then d else d.sayBus ctl [⟨0, o.addr, 0, false, 1, leBytes 1 o.ctrl⟩, ⟨1, o.addr, 0, true, o.len, []⟩]
  | 3 =>
    if decide (o.pin < 32) then d.setC P.gpio_ctrl o.pin (numVal (setBit (d.cn P.gpio_ctrl o.pin) 0 (bit o.ctrl 0))) else d
  | _ => d

/-- One entry of `dev.script_status` as kept: state, failing operation, runs. -/
def Dev.scriptNote (d : Dev) (k state op : Nat) : Dev :=
  let old := fit 256 (d.par.stat.bytes P.dev_script_status 0)
  let runs := rd old (4 * k + 3) 1
  let new := leBytes 1 state ++ leBytes 2 op ++ leBytes 1 (sat 8 (runs + 1))
  d.setS P.dev_script_status 0 (.blob (old.take (4 * k) ++ new ++ old.drop (4 * k + 4)))

/-- The time that a script's waits take, in core cycles (R441). -/
def scriptWait (l : List ScrOp) : Nat := (l.map (fun o => if o.op == 2 then leNat (o.data.take 4) * 800 else 0)).sum

/-- SCRIPT_COMPLETE (R441): the script in progress ends, no earlier than its waits allow, or stops at operation `fail` with 0x0106 after its
retries; a wait and a GPIO's drive do not fail. -/
def scriptComplete (d : Dev) (n : Now) (k : Nat) (fail : Option Nat) : Dev :=
  match d.scriptNow with
  | none => d
  | some s =>
    let ops := s.list
    let begun := ((d.pwr.running.find? (fun r => r.1 == k)).map (·.2)).getD 0
    let failing : List ScrOp := match fail with
      | some i => (ops.drop i).take 1
      | none => []
    let done := ops.take (fail.getD ops.length)
    if s.no != k || decide (n.abs < begun + scriptWait done) || (fail.isSome && !failing.any (fun o => !has [2, 3] o.op)) then d
    else
      let d := (done ++ failing.flatMap (List.replicate (s.retries + 1))).foldl (fun d o => d.scriptOp s.ctl o) d
      let d : Dev := { d with pwr := { d.pwr with running := d.pwr.running.filter (fun r => r.1 != k) } }
      let d := d.scriptNote k (if fail.isSome then 3 else 2) (fail.getD 0)
      let d := match fail with
        | some i => d.raise n 0x0106 whole (leBytes 1 k ++ leBytes 1 0 ++ leBytes 2 i)
        | none => d
      if decide (s.ctl < 8) && (d.ctl.i2c.getD s.ctl {}).running.isNone then d.nextXfer s.ctl else d

/-! ## Core supply (R449, R450) -/

/-- The set point moves, within `dev.avs_limits`, and is sent; steps are counted. -/
def Dev.avsMove (d : Dev) (want : Int) : Dev :=
  let lim := d.cn P.dev_avs_limits 0
  let now := d.sn P.dev_avs_mv 0
  let v := clamp (bits lim 0 16) (bits lim 16 16) want
  if v == now then d else ((d.setSN P.dev_avs_mv 0 v).bumpField P.dev_cpm_stats 0 16 16 1).sayAvs

/-- AVS_UPDATE (R449): the hard window reads the path monitors and moves the set point. -/
def Dev.avsUpdate (d : Dev) (n : Now) (h : HardIn) : Dev :=
  let d := (d.putField P.dev_cpm_stats 0 0 8 (sat 8 h.slack)).putField P.dev_cpm_stats 0 8 5 (h.slackAt % 32)
  let d := d.setSN P.dev_core_power_mw 0 (sat 32 h.powerMw)
  if d.cn P.dev_avs_en 0 == 0 then
    let d := if d.pwr.avsStopped then d.undegrade 4 else d
    ({ d with pwr := { d.pwr with avsRun := 0, avsFails := 0, avsTop := 0, avsStopped := false } } : Dev).setSN P.dev_avs_mv 0 750
  else if d.pwr.avsStopped then d
  else if !h.avsAck then
    let k := d.pwr.avsFails + 1
    let d : Dev := { d with pwr := { d.pwr with avsFails := k, avsStopped := decide (3 ≤ k) } }
    if k == 3 then (d.degrade 4).raise n 0x0F05 whole (leBytes 2 (d.sn P.dev_avs_mv 0)) else d
  else
    let goal := d.cn P.dev_avs_target 0
    let now : Int := d.sn P.dev_avs_mv 0
    let run := if bits goal 8 8 < h.slack then d.pwr.avsRun + 1 else 0
    let d := d.avsMove (if h.slack < bits goal 0 8 then now + 5 else if run == 64 then now - 5 else now)
    let top := if d.sn P.dev_avs_mv 0 == bits (d.cn P.dev_avs_limits 0) 16 16 then d.pwr.avsTop + 1 else 0
    let d : Dev := { d with pwr := { d.pwr with avsFails := 0, avsRun := if run == 64 then 0 else run, avsTop := top } }
    if top == 8000 then d.raise n 0x0F06 whole (leBytes 1 (sat 8 h.slack)) else d

/-- The core cycles in which a droop that holds for `cycles` suppresses every second edge (R450): 16, and 16 more while it holds. -/
def droopStretch (cycles : Nat) : Nat := 16 * max 1 (ceilDiv cycles 16)

/-- VOLTAGE_DROOP (R450): VDD_CORE falls `mv` below the set point for `cycles`; from `dev.droop_mv` on edges are suppressed, and the stretched
cycles count for this heat's 0x0F07. -/
def voltageDroop (d : Dev) (n : Now) (mv cycles : Nat) : Dev :=
  if mv < d.cn P.dev_droop_mv 0 then d else
  let stretch := droopStretch cycles
  let d := (d.bumpField P.dev_droop_stats 0 0 32 1).bumpField P.dev_droop_stats 0 32 32 stretch
  { d with pwr := { d.pwr with stretched := d.pwr.stretched.noteBy n stretch [] } }

/-- 0x0F07 for the heat that ends, when more than 1 % of it was stretched (R450). -/
def Dev.tellStretch (d : Dev) : Dev :=
  let t := d.pwr.stretched
  let d : Dev := { d with pwr := { d.pwr with stretched := {} } }
  if 1000 < t.count then d.tell t 0x0F07 whole (leBytes 4 t.count) else d

/-! ## Temperature (R451, R452) -/

/-- Tj as last sampled, in 0.125 °C. -/
def Dev.tj (d : Dev) : Int := signed 16 (d.sn P.dev_tj 0)

/-- The DETAIL of a thermal event. -/
def Dev.tjDetail (d : Dev) : Bytes := leBytes 2 (d.sn P.dev_tj 0)

/-- THERMAL_SAMPLE (R451, R452): Tj is the highest of the sensors and is compared with the thresholds. -/
def Dev.thermal (d : Dev) (n : Now) (l : List Int) : Dev :=
  match l with
  | [] => d
  | a :: r =>
    let tj := r.foldl max a
    let hyst := d.cn P.dev_therm_hyst_c 0
    let at_ (id : Nat) : Bool := decide (((d.cn id 0 * 8 : Nat) : Int) ≤ tj)
    let below (id : Nat) : Bool := decide (tj < (((d.cn id 0 - hyst) * 8 : Nat) : Int))
    let d := d.setS P.dev_tj_sensors 0 (.blob ((l.take 8).flatMap (fun v => leBytes 2 (unsigned 16 v))))
    let d := d.setSN P.dev_tj 0 (unsigned 16 tj)
    let d := if decide (signed 16 (d.sn P.dev_tj_max 0) < tj) then d.setSN P.dev_tj_max 0 (unsigned 16 tj) else d
    let d := if at_ P.dev_therm_warn_c && !d.pwr.warned then
        ({ d with pwr := { d.pwr with warned := true } } : Dev).raise n 0x0F01 whole d.tjDetail
      else if below P.dev_therm_warn_c && d.pwr.warned then
        ({ d with pwr := { d.pwr with warned := false } } : Dev).raise n 0x0F02 whole d.tjDetail
      else d
    let hot := if at_ P.dev_therm_latch_c then d.pwr.tjHot + 1 else 0
    let beyond := if at_ P.dev_therm_shed_c then some (d.pwr.overSince.getD n.heat) else none
    let under := if below P.dev_therm_shed_c then some (d.pwr.underSince.getD n.heat) else none
    let first : Bool := d.pwr.overSince.isNone && beyond.isSome
    let d : Dev := { d with pwr := { d.pwr with tjHot := hot, overSince := beyond, underSince := under } }
    let d := if first && d.pair.role == .active && d.pair.mirrored && d.pair.ready && d.pair.yieldTo.isNone then d.sendYield n 0 2 else d
    if hot == 2 then ((d.fault n 18 0 d.tjDetail true).raise n 0x0F08 whole d.tjDetail).askMode 21 else d

/-- The output that shedding takes next (R452): the lowest nonzero order, the higher number on equal ones. -/
def Dev.shedNext (d : Dev) : Option Nat :=
  let order (g : Nat) : Nat := ((d.portMould g).map (fun m => d.cn P.mould_shed_order m)).getD 0
  let l := (List.range d.nTx).filter (fun g => (d.tgen g).state == .running && !(d.tgen g).shed && order g != 0)
  l.foldl (fun best g =>
    match best with
    | none => some g
    | some b => if order g ≤ order b then some g else some b) none

/-- SHED_STEP (R452): above the threshold one output is shed, below it less the hysteresis one is restored, one in 8,000 heats. -/
def shedStep (d : Dev) (n : Now) : Dev :=
  let free : Bool := d.pwr.shedAt.all (fun h => decide (h + 8000 ≤ n.heat))
  let waits : Bool := d.pair.mirrored && d.pair.role == .active && d.pair.ready
  let due : Bool := d.pwr.overSince.any (fun h => d.pair.role != .standby || decide (h + 8000 ≤ n.heat))
  if !free || !d.pwr.mode.checksIn then d
  else if due && !waits then
    match d.shedNext with
    | none => d
    | some g =>
      let d := d.onTg g (fun t => { t with shed := true, stopping := true })
      let d : Dev := { d with pwr := { d.pwr with shed := g :: d.pwr.shed, shedAt := some n.heat } }
      ((d.setSN P.dev_shed_state 0 (maskOf d.pwr.shed)).degrade 3).raise n 0x0F03 g d.tjDetail
  else if d.pwr.underSince.any (fun h => decide (h + 8000 ≤ n.heat)) then
    match d.pwr.shed with
    | [] => d
    | g :: rest =>
      let d := d.onTg g (fun t => { t with shed := false })
      let d : Dev := { d with pwr := { d.pwr with shed := rest, shedAt := some n.heat } }
      let d := (d.setSN P.dev_shed_state 0 (maskOf rest)).reseat n g
      (if rest.isEmpty then d.undegrade 3 else d).raise n 0x0F04 g d.tjDetail
  else d

/-! ## The always-on domain (R432) -/

/-- VDD_AON_POWER_UP (R432): VDD_AON is in regulation and the timer of the enable pins starts. -/
def vddAonPowerUp (d : Dev) (n : Now) : Dev :=
  if d.pwr.aon then d else { d with pwr := { d.pwr with aon := true, aonAt := n.abs } }

/-- PWR_EN_DELAY_END (R432): 1 ms after VDD_AON is in regulation GPIO0 and GPIO1 go high. No heats run then, so the command itself tells that
the time is over. -/
def pwrEnDelayEnd (d : Dev) : Dev :=
  if d.pwr.aon && d.pwr.mode != .banked then { d with pwr := { d.pwr with pwrEn := true } } else d

end Sys2Proof.Machine
end

