-- ==== Sys2Proof/Machine/FaultCtl.lean ====
section
/-!
DEFINITION. The reactions of Table 20.1 that act on other blocks, the controller pairs, and key RAM, queue and driver faults (chapter 20).
-/

namespace Sys2Proof.Machine

/-! ## Memories (R168, R457) -/

/-- ECC_ERROR (R168, R457): a single-bit error is corrected and counted (fault 0), a double-bit error zeroes its group (fault 1). -/
def eccErrorCmd (x : DM) (n : Now) (bank granule group : Nat) (double : Bool) : DM :=
  if 64 ≤ bank || 256 ≤ granule then x
  else
    let x := x.map (fun d => d.dropInjected bank double)
    if double then
      (eccUncorrectable x n bank granule group).map (fun d => (d.ingotEcc bank granule).fault n 1 bank (leBytes 2 granule) false)
    else x.map (fun d => (eccCorrected d n bank).fault n 0 bank (leBytes 2 granule) false)

/-- FLASK_RISER_ECC_ERROR (R457 fault 2): the layer is transparent for the rest of the frame, counted as an underrun. -/
def flaskRiserError (d : Dev) (n : Now) (m k line x : Nat) : Dev :=
  if !(decide (m < d.nMould) && decide (k < 8)) then d
  else riserUnderrun ((d.bumpField P.flt_local_ecc_counts 0 32 32 1).fault n 2 (layerInst m k) (leBytes 2 line) false) n m k line x

/-- A session's event queue is reset (R65): the discarded entries go to LOST, with the one that was being written (R312), and 0x0205 becomes
the first entry, where the session's mask lets it in (R62). -/
def Session.resetEvents (s : Session) (n : Now) (write : Bool) : Session :=
  let k := s.ev.entries.length
  let s : Session := { s with ev := { s.ev with entries := [], lost := sat 16 (s.ev.lost + k + b2n write) } }
  s.event n 0x0205 whole (leBytes 2 k)

/-- QUEUE_POINTER_MISMATCH (R65, R312, fault 7): the queue is reset, then the fault is told. Kinds 1 to 4 are audio queues as 0x0B06 names them; 5 is a session's mailbox, 6 its event
queue, 7 the pre-session mailbox. The access that found it is a write to a full queue, or a read from an empty one: nothing. -/
def queueMismatch (d : Dev) (n : Now) (kind unit : Nat) (write : Bool) : Dev :=
  let ok : Bool := match kind with
    | 1 | 2 => decide (unit < 12)
    | 3 => decide (unit < 32)
    | 4 => decide (unit < 8)
    | 5 | 6 => decide (unit < 32)
    | 7 => true
    | _ => false
  if !ok then d
  else
    let d := match kind with
      | 5 =>
        let d := d.onSlot unit (fun s => { s with inbox := [] })
        if write then d.overflow n ((d.slot unit).id unit) else d
      | 6 => d.onSlot unit (fun s => s.resetEvents n write)
      | 7 =>
        let d : Dev := { d with ctl := { d.ctl with pre := [] } }
        if write then d.overflow n 0 else d
      | k => audioQueueReset d n k unit write
    (d.bump P.flt_queue_resets 0).fault n 7 unit (leBytes 1 kind) false

/-- KEY_RAM_CHECK_FAIL (R386, fault 8): an entry is reloaded or rewritten; where that fails too, the slot is unusable or the keys are
cleared. -/
def keyRamFail (d : Dev) (n : Now) (e : KeyEntry) (both : Bool) : Dev :=
  let d := d.bumpField P.key_ram_stats 0 32 16 1
  let d := if both then d else d.bumpField P.key_ram_stats 0 48 16 1
  match e with
  | .slot i =>
    if 64 ≤ i || !(d.keySlot i).usable then d
    else
      let d := d.raise n 0x0D07 i (leBytes 1 (b2n !both))
      if both then
        ({ d with key := { d.key with slots := modAt d.key.slots i (fun (s : KeySlot) => { s with usable := false, key := [] }) } } : Dev).fault n 8 i
          [] false
      else d
  | .session i =>
    if both && decide (i < 32) then
      (d.onSlot i (fun s => { s with keys := { s.keys with usable := false, kP2d := [], kD2p := [], kRpt := [] } })).fault n 8 i [] false
    else d
  | .pairLink => if both then ({ d with key := { d.key with kOut := [], kIn := [] } } : Dev).fault n 8 0xFFFF [] false else d

/-! ## Clocks (R277, R290) -/

/-- Loss of lock on a qualified reference (R277, faults 10 and 11): the ports of cupolas 1 to 3 enter Hold at once and restart as a reseat
does; with cupola 0 every output is quenched and the device restarts. -/
def cupolaLossFault (d : Dev) (n : Now) (k : Nat) (err : Int) : Dev :=
  let c := (d.cup k).state
  if 4 ≤ k || d.clk.ref.lost || c != .locked then d
  else
    let d := cupolaLost d n k err
    if k == 0 then { d.fault n 11 0 [] false with pwr := { d.pwr with restart := some (1, 3) } }
    else
      let d := d.fault n 10 k [] true
      let ports := (List.range d.nTx).filter (fun g => d.ln P.ladle_cupola g == k)
      ports.foldl (fun d g =>
        match (d.tgen g).state with
        | .running => ((d.onTg g (fun t => { t with reseat := true, relocked := true })).holdMould n g).enterHold n g false
        | .hold => d.onTg g (fun t => { t with relocked := true })
        | .stopped => if (d.txp g).state == .run || (d.txp g).state == .deskew then d.txEnter n g .hold else d) d

/-- CUPOLA_LOSS_OF_LOCK (R277): the phase error has exceeded 4 × `cupola.lock_win_ps`. -/
def cupolaLossCmd (d : Dev) (n : Now) (k : Nat) (err : Int) : Dev :=
  if err.natAbs ≤ 4 * d.cn P.cupola_lock_win_ps k then d else cupolaLossFault d n k err

/-- CUPOLA_LOCK (R277): after `cupola.lock_n` periods in the window; fault 10 ends once every enabled cupola is locked; forwarding ports that waited leave Hold. -/
def cupolaLockCmd (d : Dev) (n : Now) (k code : Nat) : Dev :=
  if 4 ≤ k || !d.lockDue n k then d
  else
    let was := (d.cup k).state
    let d := cupolaLocked d n k code
    if was == .acquire && d.allLocked then
      let d := d.faultEnds n 10
      (List.range d.nTx).foldl (fun d g =>
        if (d.txp g).state == .hold && (d.tgen g).state == .stopped && d.ln P.ladle_cupola g == k then d.portRestart n g else d) d
    else d

/-- LADLE_ROTATOR_FAULT (R290, fault 12): the divider fallback; Degraded. -/
def rotatorFault (d : Dev) (n : Now) (l : Nat) : Dev :=
  if !((d.ladle l).on && !(d.ladle l).dividing) then d
  else (rotatorFallback d n l |>.fault n 12 l [] true).degrade 5

/-! ## Transmit drivers and rails (R457, R458) -/

/-- A driver fault (R458, fault 13): the port goes Off until its enable is written again; Degraded. -/
def driverFault (d : Dev) (n : Now) (i lane : Nat) : Dev :=
  if d.nTx ≤ i then d
  else
    let d := (d.fault n 13 i (leBytes 1 lane) true).degrade 5
    let d : Dev := { d with flt := { d.flt with txDown := setBit d.flt.txDown i true, txRunAt := modAt d.flt.txRunAt i (fun _ => none) } }
    (d.setSN P.flt_tx_fault 0 (setBit (d.sn P.flt_tx_fault 0) i true)).txEnter n i .off

/-- TX_DRIVER_FAULT (R458): the monitor of a port, on, finds a lane that drives HS in disagreement with what was sent. -/
def txDriverFault (d : Dev) (n : Now) (i lane : Nat) : Dev :=
  let st := (d.txp i).state
  if bit (d.cn P.flt_tx_monitor 0) i && (st == .run || st == .deskew) && (decide (lane < d.ln P.txp_lanes i) || lane == 4) then
    driverFault d n i lane
  else d

/-- Whether a fault keeps the device Degraded: a driver fault, a pair out of service, a ladle's fallback (Table 20.1, R462). -/
def Dev.faultDegraded (d : Dev) : Bool :=
  d.sn P.flt_tx_fault 0 != 0 || d.flt.isActive 12 || d.flt.pairs.any (fun (p : CtlPair) => p.state == 3)

/-- The Degraded cause of faults is clear once none of them stands. -/
def Dev.faultRefresh (d : Dev) (n : Now) : Dev :=
  let d := if d.flt.isActive 12 && !d.clk.ladles.any (fun (l : Ladle) => l.faulted) then d.faultEnds n 12 else d
  if bit (d.sn P.dev_degraded_causes 0) 5 && !d.faultDegraded then d.undegrade 5 else d

/-- TX_MONITOR_CLEAR (R458): after `txp.enable` was written 1 the port has run 1 ms without disagreement. -/
def txMonitorClear (d : Dev) (n : Now) (i : Nat) : Dev :=
  match d.flt.txRunAt.getD i none with
  | none => d
  | some t =>
    if !(bit (d.sn P.flt_tx_fault 0) i && !bit d.flt.txDown i && (d.txp i).state == .run && decide (t + msCycles ≤ n.abs)) then d
    else
      let d : Dev := { d with flt := { d.flt with txRunAt := modAt d.flt.txRunAt i (fun _ => none) } }
      let d := d.setSN P.flt_tx_fault 0 (setBit (d.sn P.flt_tx_fault 0) i false)
      if d.sn P.flt_tx_fault 0 == 0 then d.faultEnds n 13 else d

/-- RAIL_FAULT (fault 14): a rail of groups 3 and 4 is `pct` percent below nominal for 10 µs, which from `flt.rail_margin_pct` on is out of regulation; every transmit port is undriven and the device latches. Rails count in
the order of Table 19.3, from VDD_AON 0. -/
def railFault (d : Dev) (n : Now) (rail pct : Nat) : Dev :=
  if pct < d.cn P.flt_rail_margin_pct 0 || rail < 3 || 8 ≤ rail || d.pwr.mode == .reset || d.pwr.mode == .banked && d.pwr.wake.isNone then d
  else
    let d := (d.fault n 14 rail [] true).bumpField P.flt_rail_status 0 8 8 1
    let d := d.putField P.flt_rail_status 0 rail 1 0
    ((List.range d.nTx).foldl (fun d i => d.txEnter n i .off) d).askMode 21

/-! ## Controller pairs (R460 to R462) -/

/-- The index of the active pair. -/
def Dev.activePair (d : Dev) : Nat := if ((d.flt.pairs.getD 1 {}).state == 1) then 1 else 0

/-- Change a pair's record. -/
def Dev.onPairCtl (d : Dev) (i : Nat) (f : CtlPair → CtlPair) : Dev := { d with flt := { d.flt with pairs := modAt d.flt.pairs i f } }

/-- No controller pair is in service (fault 15): Latched (R462). -/
def Dev.noPair (d : Dev) (n : Now) : Dev := (if d.flt.isActive 15 then d else d.fault n 15 0xFFFF [] true).askMode 21

/-- CONTROLLER_FAULT (R460): the active pair halts; commits whose shadow sets are not complete are cancelled; the trial pair's fault
brings the resident pair back (R421), a cold policy restarts an unpaired unit, and without another pair in service the device latches. -/
def controllerFault (d : Dev) (n : Now) (k : Nat) : Dev :=
  if !(d.fwRuns && decide (4 ≤ k) && decide (k ≤ 6)) then d
  else
    let a := d.activePair
    let d := d.fault n k a [] false
    let d := if k == 4 then d.bumpField P.flt_ecc_ctl_counts 0 32 32 1 else d
    let window := d.cn P.flt_ctl_window_s 0 * 8000
    let d := d.onPairCtl a (fun p => { p with
      state := 2, faultAt := some n.heat, faultNo := k, again := p.faultAt.any (fun h => decide (n.heat < h + window)) })
    let d : Dev := { d with flt := { d.flt with halted := some n.heat, haltedAt := n.abs, warm := none } }
    let d := d.cancelCommits n 0x0212 (fun c => !c.shadow) true
    let d := if d.upd.entered.isSome then d.abandonChange else d
    let spare : Bool := (d.flt.pairs.getD (1 - a) {}).state == 0
    if d.upd.trialFlag && d.upd.resident && spare then d.onUpd (fun u => { u with broke := true, resume := true })
    else
      let d := d.onUpd (fun u => { u with broke := true })
      if d.cn P.flt_warm_policy 0 == 1 && !d.pairOn then { d with pwr := { d.pwr with restart := some (1, 3) } }
      else if spare then d
      else d.noPair n

/-- TRIAL_PAIR_FAULT (R421): a fault stops the trial pair after a changeover. -/
def trialPairFault (d : Dev) (n : Now) (k : Nat) : Dev :=
  if d.upd.trialFlag && d.upd.resident then controllerFault d n k else d

/-- The bytes of a firmware slot's load sections (R405). -/
def Dev.loadSize (d : Dev) (slot : Nat) : Nat :=
  (((firmwareSections (d.imgBody 1 slot)).getD []).filter (fun s => s.type == 1)).foldl (fun a s => a + s.length) 0

/-- WARM_RESTART_READY (R460): the other pair has loaded the running firmware, at the flash rate, and is ready; it becomes active at the next
boundary. -/
def warmReady (d : Dev) (n : Now) (adopted : Bool) : Dev :=
  if d.flt.halted.isSome && decide (d.flt.haltedAt + d.flashCycles (d.loadSize d.upd.fwRun) ≤ n.abs) && d.sparePair && !d.upd.resume && !d.flt.isActive 15 then
    let d := d.loadPair d.idlePair d.upd.fwRun
    { d with flt := { d.flt with warm := some adopted } }
  else d

/-- A paused check is restarted from stage 1 when its message is handled again (R460). -/
def Dev.requeueCheck (d : Dev) : Dev :=
  let l := d.txn.paused
  let d : Dev := { d with txn := { d.txn with paused := [] } }
  l.foldl (fun d j => d.onSlot j.slot (fun s => if s.state == .open then { s with inbox := j.msg :: s.inbox } else s)) d

/-- The parameters in force or the leases were not adopted: sessions close, leases go, and the pattern is applied as at boot (R460). -/
def coldState (x : DM) (n : Now) : DM :=
  let d := x.dev.closeAll n (fun _ => true)
  let d := d.ctl.leases.foldl (fun d l => d.releaseLease n l) d
  let d : Dev := { d with par := { d.par with committed := [] } }
  match patternAt ⟨d, x.mem⟩ n d.upd.patRun with
  | .ok y => y
  | .error _ => ⟨d.followAll n [], x.mem⟩

/-- The idle pair becomes active. -/
def Dev.otherActive (d : Dev) : Dev :=
  match (List.range 2).find? (fun i => (d.flt.pairs.getD i {}).state == 0) with
  | some i => d.onPairCtl i (fun p => { p with state := 1 })
  | none => d

/-- The restarted pair becomes active at a boundary (R460, R461): 0x0F13; a unit of a pair holds OWN_OUT low until it knows its peer. -/
def warmActivate (x : DM) (n : Now) : DM :=
  match x.dev.flt.warm, x.dev.flt.halted with
  | some adopted, some h =>
    let d := x.dev.otherActive
    let d : Dev := { d with flt := { d.flt with halted := none, warm := none } }
    let d := (d.bumpField P.flt_ctl_state 0 16 16 1).requeueCheck
    let x : DM := if adopted then ⟨d, x.mem⟩ else coldState ⟨d, x.mem⟩ n
    let d := x.dev.raise n 0x0F13 x.dev.activePair (leBytes 2 (n.heat - h) ++ leBytes 1 (b2n adopted))
    let held : Bool := d.pairOn && d.pair.role == .active
    let d := d.onPair (fun p => { p with forcedLow := false, ownOut := p.ownOut && !held })
    ⟨if held then { d with flt := { d.flt with holdOwn := some n.abs } } else d, x.mem⟩
  | _, _ => x

/-- After the trial pair's fault the resident pair is the active one (R421). -/
def Dev.residentActive (d : Dev) (was : Bool) : Dev := if was && !d.upd.resume then d.otherActive else d

/-- R461 in the hard window: with neither heartbeat nor PAIR_ALIVE_IN for 248 µs, or with heartbeats that show the peer not active, the unit
resumes ownership; an active peer settles the roles as R370 says. -/
def Dev.holdOwnStep (d : Dev) (n : Now) : Dev :=
  match d.flt.holdOwn with
  | none => d
  | some t =>
    let quiet : Bool := !d.hbSeen n.abs && !d.aliveSeen n.abs && decide (t + aliveLimit ≤ n.abs)
    let heard : Bool := d.pair.hbAt.any (fun h => decide (t < h))
    if d.pair.role != .active || quiet || heard then { d with flt := { d.flt with holdOwn := none } } else d

/-- A pair goes out of service (R462): 0x0F14 with the fault; Degraded; without another one fault 15. -/
def Dev.pairOut (d : Dev) (n : Now) (i : Nat) : Dev :=
  let d := (d.onPairCtl i (fun p => { p with state := 3 })).raise n 0x0F14 i (leBytes 1 (d.flt.pairs.getD i {}).faultNo)
  let d := d.degrade 5
  if (d.flt.pairs.getD (1 - i) {}).state == 0 || (d.flt.pairs.getD (1 - i) {}).state == 1 then d else d.noPair n

/-- HALTED_PAIR_SELFTEST_DONE (R462): after the takeover the halted pair becomes idle, or goes out of service when the test fails or an earlier fault of it lies
within the window. -/
def haltedSelftest (d : Dev) (n : Now) (pass : Bool) : Dev :=
  if d.flt.halted.isSome then d
  else match (List.range 2).find? (fun i => (d.flt.pairs.getD i {}).state == 2) with
  | none => d
  | some i => if pass && !(d.flt.pairs.getD i {}).again then d.onPairCtl i (fun p => { p with state := 0 }) else d.pairOut n i

/-- IDLE_PAIR_SELFTEST (R462): at its period the idle pair repeats its self-test; a failure takes it out of service. -/
def idleSelftest (d : Dev) (n : Now) (pass : Bool) : Dev :=
  let s := d.cn P.flt_selftest_s 0
  if s == 0 || !d.fwRuns || decide (n.heat < d.flt.selftestAt + s * 8000) then d
  else match (List.range 2).find? (fun i => (d.flt.pairs.getD i {}).state == 0) with
    | none => d
    | some i =>
      let d : Dev := { d with flt := { d.flt with selftestAt := n.heat } }
      if pass then d else d.pairOut n i

/-! ## Injection (R465) -/

/-- `flt.inject` (Table 20.3): one occurrence of a fault at an instance. -/
def injectNow (x : DM) (n : Now) : DM :=
  match x.dev.flt.inject with
  | none => x
  | some (k, i) =>
    let d : Dev := { x.dev with flt := { x.dev.flt with inject := none } }
    let dev (d : Dev) : DM := ⟨d, x.mem⟩
    match k with
    | 0 => dev ((eccCorrected d n (i % 64)).fault n 0 (i % 64) [] false)
    | 1 => eccErrorCmd ⟨d, x.mem⟩ n (i % 64) 0 0 true
    | 2 => dev (flaskRiserError d n (i / 8) (i % 8) 0 0)
    | 3 =>
      if i < 16 || 32 ≤ i then
        match (List.range 64).find? (fun e => (d.stream e).inFrame && (d.stream e).takes i) with
        | some e => dev (d.routeDrop n e i 3)
        | none => dev ((d.bumpField P.flt_parity_counts 0 0 32 1).fault n 3 i [] false)
      else dev (((sprueAbandon d (i - 16)).bumpField P.flt_parity_counts 0 32 32 1).fault n 3 (i - 16) [] false)
    | 4 | 5 | 6 => dev (controllerFault d n k)
    | 7 => dev (queueMismatch d n (i / 32) (i % 32) false)
    | 9 => dev ((d.bump P.cru_lat_overrun_count 0).fault n 9 (i % 64) [] false)
    | 10 => dev (cupolaLossFault d n i 0)
    | 12 => dev (rotatorFault d n i)
    | 13 => dev (driverFault d n i 0)
    | 17 => dev (d.fault n 17 i [] false)
    | _ => dev d

end Sys2Proof.Machine
end

