-- ==== Sys2Proof/Machine/Status.lean ====
section
/-!
DEFINITION. What GET returns for the read-only parameters that are read from the state of their block (R76); the others stand in
`Params.stat`, kept by the block that counts or measures.
-/

namespace Sys2Proof.Machine

/-- The first value whose definition is asked for. -/
def valueFor (id : Nat) : List (Nat × PVal) → Option PVal
  | [] => none
  | (i, v) :: l => if i == id then some v else valueFor id l

/-- 4-byte words of a list of numbers. -/
def words (l : List Nat) : PVal := .blob (l.flatMap (fun x => leBytes 4 (sat 32 x)))

/-- `time` (Table 2.5). -/
def Dev.timeValue (d : Dev) (n : Now) (id : Nat) : Option PVal :=
  valueFor id [
    (P.time_heat, numVal (n.heat % 2 ^ 48)),
    (P.time_pair_status, numVal (b2n d.work.aligned + 2 * b2n (d.pair.role == .active) + 4 * b2n d.work.pulseMissing))]

/-- A row of `ctl.session_table`. -/
def Dev.sessionRow (d : Dev) (t slot : Nat) : Bytes :=
  let s := d.slot slot
  let held := (d.ctl.leases.filter (fun (l : Lease) => l.slot == slot && l.live t)).length
  leBytes 2 (s.id slot) ++ leBytes 1 s.cls ++ leBytes 1 s.route.transport ++ leBytes 8 s.partner ++ leBytes 2 held ++ leBytes 2 0

/-- Slots in use. -/
def Dev.usedSlots (d : Dev) : List Nat := (List.range 32).filter (fun i => (d.slot i).state != .free)

/-- `ctl` (Table 3.14): a session or lease table lists what is in use. -/
def Dev.ctlValue (d : Dev) (n : Now) (id : Nat) : Option PVal :=
  let can (i : Nat) : Nat := let c := d.ctl.can.getD i {}; c.state % 4 + sat 8 c.tec * 256
  valueFor id [
    (P.ctl_eth_mac0, numVal d.otp.mac0), (P.ctl_eth_mac1, numVal d.otp.mac1),
    (P.ctl_sessions_open, numVal d.usedSlots.length),
    (P.ctl_session_table, .blob (d.usedSlots.flatMap (d.sessionRow n.abs))),
    (P.ctl_lease_table, .blob ((d.ctl.leases.filter (fun (l : Lease) => l.live n.abs)).flatMap (fun (l : Lease) =>
      leBytes 1 l.kind ++ leBytes 1 l.idx ++ leBytes 2 l.session ++ (nowOf l.deadline).stamp))),
    (P.ctl_eth_status, numVal d.ethStatus),
    (P.ctl_can_status, numVal (can 0 + can 1 * 65536))]

/-- `rxp` (Table 5.7): what a port reports is 0 while it is Off. -/
def Dev.rxValue (d : Dev) (id i : Nat) : Option PVal :=
  let r := d.rxp i
  let off := r.state == .off
  let rated := r.state == .train || r.state == .map || r.state == .up
  let lane (k : Nat) : Nat := let l := r.lanes.getD k {}; (l.ctle % 16 + l.los % 64 * 256) * 2 ^ (16 * k)
  valueFor id [
    (P.rxp_status, numVal (r.state.code + r.ulps % 16 * 8 + b2n r.clockUlps * 128 +
      (if off then 0 else d.cn P.rxp_lanes i % 8 * 256) + sat 16 r.bringUps * 65536)),
    (P.rxp_found, numVal (if r.found then r.order % 256 + r.pol % 32 * 256 + 32768 else 0)),
    (P.rxp_rate_meas_kbps, numVal (if rated then r.rate else 0)),
    (P.rxp_lane_state, numVal (if off then 0 else ((List.range 4).map lane).sum))]

/-- `txp.status`. -/
def Dev.txStatus (d : Dev) (i : Nat) : Nat :=
  let x := d.txp i
  x.state.code + (if x.state == .off then 0 else sat 16 (d.laneKbps i / 1000) * 65536)

/-- The owners that `cru.owner_summary` lists, rising. -/
def Dev.bufOwnersNow (d : Dev) : List Nat := (List.range 256).filter (fun o => d.cru.bufs.any (fun (b : Buf) => b.owner == o))

/-- The granules of some buffers. -/
def bufGranules (l : List Buf) : Nat := (l.map (fun (b : Buf) => b.granules * b.depth)).sum

/-- The buffers of an owner. -/
def Dev.bufsOf (d : Dev) (o : Nat) : List Buf := d.cru.bufs.filter (fun (b : Buf) => b.owner == o)

/-- `cru` (Table 7.5). -/
def Dev.cruValue (d : Dev) (id : Nat) : Option PVal :=
  valueFor id [
    (P.cru_status, numVal (d.cru.bufs.length + b2n d.cru.restripe * 65536 + b2n (d.cn P.cru_scrub_period_s 0 != 0 && d.allocated != 0) * 131072)),
    (P.cru_free_general, numVal (d.freeGranules false)), (P.cru_free_retained, numVal (d.freeGranules true)),
    (P.cru_largest_k, numVal (d.leastFree false + d.leastFree true * 65536)),
    (P.cru_owner_summary, .blob ((d.bufOwnersNow.take 33).flatMap (fun o =>
      leBytes 1 o ++ leBytes 1 0 ++ leBytes 2 (d.bufsOf o).length ++ leBytes 4 (bufGranules (d.bufsOf o))))),
    (P.cru_pending_clear, numVal (d.cru.clearing.length + (d.cru.dying.map (fun (x : DyingSlot) => x.slot.granules.length)).sum)),
    (P.cru_conflicts, words d.cru.conflicts), (P.cru_bank_load, words d.cru.busy),
    (P.cru_lat_bound_cycles, numVal 1200),
    (P.cru_ecc_log, .blob (d.cru.eccLog.flatMap (fun (e : EccLog) =>
      leBytes 2 e.handle ++ leBytes 1 e.slot ++ leBytes 1 e.bank ++ leBytes 2 e.granule ++ leBytes 2 0 ++ e.time.stamp))),
    (P.cru_scrub_status, numVal (sat 16 d.cru.scrubbed + sat 16 d.cru.scrubPass * 65536)),
    (P.cru_orphan_count, numVal (d.bufsOf 0xFE).length),
    (P.cru_pattern_granules, numVal (bufGranules (d.bufsOf 0xFF)))]

/-- The blocks of chapters 8 to 12. -/
def Dev.pictureValue (d : Dev) (n : Now) (id i : Nat) : Option PVal :=
  if id == P.sprue_status then some (numVal (d.sprueStatus i))
  else if id == P.mould_status then some (numVal (d.mouldStatus i))
  else if id == P.mould_flask_status then some (numVal (d.flaskStatus i))
  else if id == P.mould_fetch_rate then some (numVal (d.mouldRate i))
  else if id == P.mould_ingot_status then some (numVal (d.ingotStatus i n.heat))
  else if id == P.vl_status then some (numVal (d.vlStatus i))
  else if id == P.gl_status then some (numVal (d.glStatus i))
  else if id == P.tg_status then some (numVal (d.tgStatus i n.abs))
  else if id == P.chk_status then some (numVal (d.chkStatus i))
  else none

/-- A rotation rate as ROT counts it, in 2⁻³² of f_c. -/
def rotCode (v : Int) : Nat := unsigned 32 (v / 65536)

/-- A ladle's status. -/
def Dev.ladleStatus (d : Dev) (i : Nat) : Nat :=
  let l := d.ladle i
  if !l.on then 0
  else sat 32 (d.ladleMean i) + l.d % 8192 * 2 ^ 32 + l.code * 2 ^ 45 + b2n (!l.profile.isEmpty) * 2 ^ 48 + b2n l.synced * 2 ^ 49

/-- `cupola`, `ladle` and `clkout` (chapter 13). -/
def Dev.clockValue (d : Dev) (n : Now) (id i : Nat) : Option PVal :=
  let c := d.cup i
  let r := d.clk.ref
  let l := d.ladle i
  valueFor id [
    (P.cupola_status, numVal (c.state.code + c.band % 64 * 8 + b2n c.fromMem * 512 + sat 16 c.losses * 65536)),
    (P.cupola_band_mem, .blob (if c.mem.isEmpty then [] else
      fit 64 ((c.mem.take 16).flatMap (fun (b : Band) => leBytes 2 b.n ++ leBytes 1 b.band ++ leBytes 1 1)))),
    (P.cupola_phase_err, numVal c.err),
    (P.cupola_holdover_stats, numVal (sat 32 (if r.lost then d.holdoverMs n.abs else r.lastMs) + unsigned 32 r.err * 2 ^ 32)),
    (P.ladle_status, numVal (d.ladleStatus i)),
    (P.ladle_rot, numVal (rotCode (d.rotBase i n) + rotCode (l.ssc n.abs) * 2 ^ 32)),
    (P.clkout_status, numVal (d.clkoutHz i % 2 ^ 31 + b2n (d.clk.clkout.getD i {}).sub * 2 ^ 31))]

/-- The audio blocks (chapter 14). -/
def Dev.audioValue (d : Dev) (id i : Nat) : Option PVal :=
  let s := d.sap i
  let t := d.tun i
  let e := d.eaud i
  let p := d.pdm i
  valueFor id [
    (P.sap_status, numVal (s.state + bits (d.sn P.sap_status i) 2 2 * 4 + s.frame.toNat * 256)),
    (P.sap_rate_meas, numVal s.rate),
    (P.pdm_status, numVal (b2n p.on + p.stuck % 4 * 2 + (if p.on then sat 16 (d.pdmClk i / 1000) * 65536 else 0))),
    (P.tundish_ratio, numVal (if t.state == 0 then 0 else t.ratio % 2 ^ 40)),
    (P.tundish_status, numVal (t.state + sat 8 t.outq.q.length * 256 + (if t.state == 0 then 0 else (d.tunMap i).length % 32 * 65536))),
    (P.eaud_status, numVal ((match d.eaudMode i with | 1 => e.lastSeq.getD 0 | _ => e.seq) % 256 + sat 8 e.channels * 256 +
      sat 16 e.discarded * 65536 + sat 16 e.late * 2 ^ 32 + sat 16 e.q.q.length * 2 ^ 48))]

/-- The code of a role (`pair.status` bits 2:0). -/
def Role.code : Role → Nat
  | .single => 0 | .active => 1 | .standby => 2 | .takeover => 3 | .joining => 4

/-- `pair` (Tables 15.8 and 16.8). -/
def Dev.pairValue (d : Dev) (n : Now) (id : Nat) : Option PVal :=
  let p := d.pair
  valueFor id [
    (P.pair_mor_status, numVal d.morStatus), (P.pair_mor_lane_state, .blob d.morLaneState), (P.pair_mor_load, numVal d.mor.load),
    (P.pair_status, numVal (p.role.code + b2n p.mirrored * 8 + b2n p.ready * 16 + b2n p.resync.isSome * 32 +
      b2n (d.pairOn && d.hbSeen n.abs) * 64 + b2n (d.aliveSeen n.abs) * 128 + b2n p.ownOut * 256 + b2n p.drag * 512 + d.outsReady * 65536)),
    (P.pair_epoch, numVal p.epoch.toNat),
    (P.pair_config_digest, numVal p.digest.toNat), (P.pair_peer_digest, numVal (rd p.peer 20 8)),
    (P.pair_takeover_log, .blob p.takeovers.flatten),
    (P.pair_chk_state, .blob (if p.common.all (fun (c : ChkCommon) => c == {}) then [] else
      p.common.flatMap (fun (c : ChkCommon) => leBytes 4 c.pour ++ leBytes 4 c.own ++ leBytes 4 c.peer)))]

/-- A mask of the key slots with a property. -/
def Dev.slotMask (d : Dev) (p : KeySlot → Bool) : Nat := maskOf ((List.range 64).filter (fun i => p (d.keySlot i)))

/-- `key` (Table 17.9). -/
def Dev.keyValue (d : Dev) (id : Nat) : Option PVal :=
  let k := d.key
  let valid (s : KeySlot) : Bool := s.state == 1
  valueFor id [
    (P.key_lifecycle, numVal d.otp.lifecycle),
    (P.key_root_status, numVal (b2n k.rs.isSome + b2n k.fromOtp * 2 + sat 8 k.bch * 256)),
    (P.key_slots_valid, numVal (d.slotMask valid)),
    (P.key_slots_unusable, numVal (d.slotMask (fun s => valid s && !s.usable))),
    (P.key_table_seq, numVal k.tableSeq),
    (P.key_fw_ctr, numVal d.otp.fwCtr), (P.key_pat_ctr, numVal d.otp.patCtr),
    (P.key_owner_hash, .blob (d.otp.owners.getLast?.getD [])), (P.key_owner_index, numVal d.otp.owners.length),
    (P.key_rom_ver, numVal Config.romVer.toNat),
    (P.key_measure, .blob (if k.m.isEmpty then [] else fit 32 k.fwHash ++ fit 32 k.patHash ++ k.m)),
    (P.key_measure_next, .blob (match k.mNext with | some m => fit 32 k.fwHashN ++ fit 32 k.patHashN ++ m | none => [])),
    (P.key_cert_chain, .blob (if k.aliasCert.isEmpty then [] else d.certChain)),
    (P.key_debug_status, numVal (b2n k.debugOpen + b2n (d.jtagAllows .test) * 2 + b2n d.otp.debugNext * 4)),
    (P.key_unit_id, numVal d.otp.unitId)]

/-- A record of `upd.slot_state`: a slot under download shows the header it was begun with. -/
def Dev.slotStateRow (d : Dev) (kind slot : Nat) : Bytes :=
  let st := (d.upd.slots.getD (slotIndex kind slot) {}).state
  let h := match d.upd.transfers.find? (fun (t : Transfer) => t.kind == kind && t.slot == slot) with
    | some t => t.header
    | none => d.imgHeader kind slot
  leBytes 1 st ++ leBytes 3 0 ++ (if st == 0 then leBytes 12 0 else leBytes 4 (rd h 16 4) ++ leBytes 4 (rd h 12 4) ++ leBytes 4 (rd h 20 4))

/-- A record of `upd.transfer`. -/
def Transfer.row (t : Transfer) : Bytes :=
  leBytes 4 t.id ++ leBytes 1 t.kind ++ leBytes 1 t.slot ++ leBytes 2 0 ++ leBytes 4 t.size ++ leBytes 4 t.received ++
    leBytes 2 t.partial.length ++ leBytes 2 0 ++ leBytes 4 ((t.missing.head?).map (·.1) |>.getD t.size)

/-- `upd` (Table 18.7). -/
def Dev.updValue (d : Dev) (n : Now) (id : Nat) : Option PVal :=
  let u := d.upd
  let secs := if u.trialFlag then sat 16 ((n.abs - u.trialAt) / (1000 * msCycles)) else 0
  valueFor id [
    (P.upd_state, numVal (u.phase % 8 + b2n u.trialFlag * 8 + d.recField 13 % 16 * 16 + u.condBits % 32 * 256 + secs * 65536)),
    (P.upd_slot_state, .blob ([(1, 0), (1, 1), (2, 0), (2, 1)].flatMap (fun k => d.slotStateRow k.1 k.2))),
    (P.upd_boot_record, .blob u.record),
    (P.upd_transfer, .blob (u.transfers.flatMap Transfer.row))]

/-- `dev` (Table 19.8). Scripts in progress show state 1. -/
def Dev.devValue (d : Dev) (id : Nat) : Option PVal :=
  let kept := d.par.stat.bytes P.dev_script_status 0
  let busy (k : Nat) : Bool := d.pwr.running.any (fun r => r.1 == k)
  let row (k : Nat) : Bytes := if busy k then leBytes 1 1 ++ slice (fit 256 kept) (4 * k + 1) 3 else slice (fit 256 kept) (4 * k) 4
  valueFor id [
    (P.dev_mode, numVal d.pwr.mode.code), (P.dev_mode_cause, numVal d.pwr.cause),
    (P.dev_hw_type, numVal d.variant.hwType), (P.dev_stepping, numVal d.otp.stepping),
    (P.dev_script_status, .blob (if kept.isEmpty && d.pwr.running.isEmpty then [] else (List.range 64).flatMap row)),
    (P.dev_mode_log, .blob d.pwr.log.flatten)]

/-- The level that a GPIO's function drives at instant `t` (Table 19.7); `none` where it drives nothing. `gpio.ctrl` bit 1 turns the functions over
whose level R453 and R235 leave to it (assumption 73). -/
def Dev.gpioDrive (d : Dev) (i t : Nat) : Option Bool :=
  let c := d.cn P.gpio_ctrl i
  let low := bit c 1
  if d.pinsHeld 5 then none
  else match d.cn P.gpio_func i with
    | 2 => some (bit c 0 != low)
    | 3 => some d.pwr.pwrEn
    | 4 => some d.pwr.pwrEn
    | 5 => some d.pwr.sramRet
    | 6 => some ((d.pwr.mode == .banked) != low)
    | 8 => some (d.pwr.warned != low)
    | 9 => if decide (bits c 4 4 < d.nTx) then some (d.hSync (bits c 4 4) t) else none
    | 10 => if decide (bits c 4 4 < d.nTx) then some (d.vSync (bits c 4 4) t) else none
    | _ => none

/-- The level at a GPIO's pin: what the device drives on it, else what the pins showed at the last boundary (R350, R453). An open drain lets go of
a high level (`gpio.ctrl` bit 2). -/
def Dev.gpioLevel (d : Dev) (i t : Nat) : Bool :=
  match d.gpioDrive i t with
  | some v => if v && bit (d.cn P.gpio_ctrl i) 2 then bit d.pwr.gpioIn i else v
  | none => bit d.pwr.gpioIn i

/-- `i2c` and `gpio`. -/
def Dev.pinValue (d : Dev) (n : Now) (id i : Nat) : Option PVal :=
  let c := d.ctl.i2c.getD i {}
  valueFor id [
    (P.i2c_status, numVal (b2n (c.running.isSome || d.scriptOn i) + b2n c.stuck * 2 + sat 8 c.queue.length * 256 + sat 16 c.nacks * 65536)),
    (P.gpio_status, numVal (b2n (d.gpioLevel i n.abs) + d.cn P.gpio_func i % 16 * 16))]

/-- `flt` (Table 20.3). -/
def Dev.fltValue (d : Dev) (id : Nat) : Option PVal :=
  let f := d.flt
  let last := (f.log.head?).getD []
  let latched := d.sn P.flt_latched 0
  let waits : Bool := f.pin && d.cn P.flt_pin_latch 0 == 1 && f.pinBy.any (fun k => bit latched k)
  valueFor id [
    (P.flt_active, numVal d.activeMask),
    (P.flt_pin_state, numVal (b2n f.pin + b2n waits * 2 + b2n (f.pin && d.pinByMode) * 4)),
    (P.flt_ctl_state, numVal ((f.pairs.getD 0 {}).state % 4 + (f.pairs.getD 1 {}).state % 4 * 4 + d.sn P.flt_ctl_state 0 / 65536 * 65536)),
    (P.flt_counts, words f.counts), (P.flt_log, .blob f.log.flatten), (P.flt_last, .blob last),
    (P.flt_summary, numVal (popCount 20 d.activeMask + popCount 20 latched * 256 + rd last 12 1 * 65536 +
      b2n (bit (d.sn P.dev_degraded_causes 0) 5) * 2 ^ 24))]

/-- The value of a parameter that is read from the state of its block. -/
def Dev.blockValue (d : Dev) (n : Now) (id i : Nat) : Option PVal :=
  match id / 256 with
  | 0x00 => d.devValue id
  | 0x01 => if id < 0x180 then d.ctlValue n id else d.timeValue n id
  | 0x02 => d.rxValue id i
  | 0x03 => if id == P.txp_status then some (numVal (d.txStatus i)) else none
  | 0x06 => d.cruValue id
  | 0x05 | 0x07 | 0x08 | 0x09 | 0x0A | 0x0B => d.pictureValue n id i
  | 0x0C => d.clockValue n id i
  | 0x0D => d.audioValue id i
  | 0x0E => d.pairValue n id
  | 0x0F => d.keyValue id
  | 0x10 => d.updValue n id
  | 0x11 => if id == P.clkout_status then d.clockValue n id i else d.pinValue n id i
  | 0x12 => d.fltValue id
  | _ => none

/-- Whether a definition is one that the hardware writes: read only by its map. -/
def statusId (id : Nat) : Bool := (paramDef id).any (fun p => p.range == .readOnly)

/-- What GET returns for a parameter (R11, R76): the value a block reports, or the committed one. -/
def Dev.getValue (d : Dev) (n : Now) (id i : Nat) : PVal :=
  if statusId id then (d.blockValue n id i).getD (d.par.stat.val id i)
  else d.par.committed.val id i

end Sys2Proof.Machine
end

