-- ==== Sys2Proof/Machine/Messages.lean ====
section
/-!
DEFINITION. The message window (R33, R66, R76, R77, R81, R83, R84): which message is handled when, and what each type does. Checks take
message-window time; every other message takes none, but a window handles no more messages than its time allows.
-/

namespace Sys2Proof.Machine

/-! ## Types and classes (Table 22.4, R51, R360) -/

/-- The least class of a request's type (the chapters' message tables); `none` for a type a partner cannot send in a session (R490). -/
def leastClass (typ : Nat) : Option Nat :=
  if has [0x0205, 0x0206, 0x0208, 0x0230, 0x0604, 0x0D01, 0x0D06, 0x0D08, 0x0E03] typ then some 0
  else if has [0x0210, 0x0211, 0x0212, 0x0220, 0x0231, 0x0232, 0x0233, 0x0234, 0x0235, 0x0601, 0x0602, 0x0603, 0x0904] typ then some 1
  else if has [0x0901, 0x0903, 0x0905, 0x0F01] typ then some 2
  else if has [0x0101, 0x0C10, 0x0D02, 0x0D03, 0x0D04, 0x0D05, 0x0D0A, 0x0E01, 0x0E02, 0x0E04, 0x0E05, 0x0E06, 0x0E07, 0x0E08] typ then some 3
  else none

/-- What a standby unit rejects a type with (R360): its sessions act as Observers, with the additions named there. -/
def standbyCode (typ : Nat) : Option Nat :=
  if has [0x0231, 0x0232, 0x0233, 0x0234] typ then some 0x8239
  else if has [0x0210, 0x0212, 0x0220, 0x0601, 0x0602, 0x0603, 0x0604, 0x0903, 0x0904, 0x0905] typ then some 0x8C01
  else if has [0x0211, 0x0235, 0x0F01] typ then some 0x8205
  else none

/-- What Latched rejects a type with (Table 1.7): it leaves an Observer's requests and a Maintainer's DEV_MODE, and what R87 says of commits:
the check of a SET, CHECK or COMMIT answers 0x8239 except to a Maintainer. The code 0x8205 of the others is the model's (DESIGN CHOICE,
assumption 68). -/
def latchedCode (cls least typ : Nat) : Option Nat :=
  if least == 0 || has [0x0231, 0x0233, 0x0234] typ || (cls == 3 && has [0x0101, 0x0232, 0x0235] typ) then none else some 0x8205

/-- Why a session's request is not handled: its type, its class, the rights of a standby and of Latched. -/
def Dev.typeCode (d : Dev) (cls typ : Nat) : Option Nat :=
  match leastClass typ with
  | none => some 0x8202
  | some least =>
    if cls < least then some 0x8205
    else if d.pair.role == .standby && d.pwr.mode == .standby then standbyCode typ
    else if d.pwr.mode == .latched then latchedCode cls least typ
    else none

/-! ## GET (R76) -/

/-- An entry of WIDTH 3 (Table 4.1). -/
def errorEntry (id inst code : Nat) : Bytes := leBytes 2 id ++ leBytes 1 inst ++ leBytes 1 3 ++ leBytes 4 code

/-- The answer to one reference. -/
def Dev.getEntry (d : Dev) (n : Now) (id inst : Nat) : Bytes :=
  match paramDef id with
  | none => errorEntry id inst 0x8230
  | some p =>
    if instances d.variant id ≤ inst then errorEntry id inst 0x8213 else entryBytes id inst p.width.code (d.getValue n id inst)

/-- GET. -/
def handleGet (d : Dev) (n : Now) (m : Msg) : Dev :=
  let p := m.j.payload
  let k := rd p 0 2
  if k == 0 || decide (256 < k) || p.length != 4 + 4 * k then d.reject m 0x8206
  else
    let data := leBytes 2 k ++ leBytes 2 0 ++
      (List.range k).flatMap (fun i => d.getEntry n (rd p (4 + 4 * i) 2) (rd p (6 + 4 * i) 1))
    if 4096 < 8 + data.length then d.reject m 0x823B else d.reply m 0 data

/-! ## Checks (R77, R81, R83 to R85) -/

/-- The types that ask for a check. -/
def checkType (typ : Nat) : Bool := has [0x0231, 0x0233, 0x0234] typ

/-- The most message-window cycles a check of `k` entries takes (R83). -/
def checkBound (k : Nat) : Nat := 6000 + 36 * k

/-- The job of a SET: an entry that fails by its syntax is recorded as a check records it (R77, R81). -/
def Dev.setJob (d : Dev) (m : Msg) : Except Nat CheckJob :=
  match if m.j.payload.length < 4 then none else takeEntries 1 (m.j.payload.drop 4) with
  | some [e] =>
    match e.syntaxCode d.variant with
    | c => .ok { slot := slotOf m.j.session, session := m.j.session, msg := m, txn := 0, isSet := true, isCheck := false
                 entries := [e.entry], kind := 0, output := 0, target := 0, cost := 0, left := 0, again := false, flaw := c }
  | _ => .error 0x8206

/-- The job of a CHECK or COMMIT (Table 4.4). -/
def Dev.commitJob (d : Dev) (m : Msg) : Except Nat CheckJob :=
  let p := m.j.payload
  if p.length != 16 then .error 0x8206
  else match (d.slot (slotOf m.j.session)).txnOf (rd p 0 4) with
    | none => .error 0x8233
    | some t => .ok { slot := slotOf m.j.session, session := m.j.session, msg := m, txn := t.id, isSet := false, isCheck := m.j.typ == 0x0233
                      entries := t.entries, kind := rd p 4 1, output := rd p 5 1, target := rd p 8 8, cost := 0, left := 0, again := false }

/-- A SET of an immediate parameter takes effect at once (R9, R77). -/
def Dev.applyImmediate (d : Dev) (n : Now) (j : CheckJob) : Dev :=
  let d := j.entries.foldl (fun d e => (d.applyEntry e).writeAction n e) d
  let c : Commit := { j.commit d.txn.nextAcc ⟨0, ⟨n.heat, n.heat, false⟩, [], [], []⟩ true with state := .applied }
  (d.raiseTo n j.slot 0x0230 whole c.heatDetail).reply j.msg 0 c.answer

/-- A check completes (R81, R84, R90): rejected, answered, or accepted. The learned values of R261 are committed as a commit is; their
rejection carries the code alone. -/
def Dev.finishCheck (d : Dev) (n : Now) (slow : Bool) (j : CheckJob) : Dev :=
  let r := d.checkNow n slow j
  if r.status != 0 then d.reply j.msg r.status (if j.learn.isSome then [] else j.rejection r)
  else if j.isCheck then d.reply j.msg 0 (j.prediction r)
  else if j.isSet && j.entries.all (fun e => takesOf e.id == .immediate) then d.applyImmediate n j
  else d.accept n slow j r

/-- Whether a message window is in progress or due (R31): the heat's hard window is over and the message window has not been. -/
def Dev.messageTime (d : Dev) : Bool := d.fwRuns && d.work.hardDone && !d.work.messagesDone && d.pwr.mode.takesMessages

/-- CONSISTENCY_CHECK_DONE (R83, R84): a paused check completes in a message window; R83 bounds its time and lets it take less. -/
def consistencyCheckDone (d : Dev) (n : Now) (slow : Bool) : Dev :=
  match d.txn.paused with
  | j :: rest =>
    if d.messageTime then ({ d with txn := { d.txn with paused := rest } } : Dev).finishCheck n slow j else d
  | [] => d

/-! ## The other messages -/

/-- A request of a session that asks for no check. -/
def Dev.request (d : Dev) (n : Now) (m : Msg) : Dev :=
  match m.j.typ with
  | 0x0205 => handleClose d n m
  | 0x0206 => handleSubscribe d m
  | 0x0208 => handleEventAck d m
  | 0x0210 => handleLease d n m
  | 0x0211 => handleRenew d m
  | 0x0212 => handleRelease d n m
  | 0x0220 => handleXfer d n m
  | 0x0230 => handleGet d n m
  | 0x0232 => handleStage d m
  | 0x0235 => handleAbort d n m
  | 0x0601 => handleBufCreate d m
  | 0x0602 => handleBufDelete d n m
  | 0x0603 => handleBufUpload d n m
  | 0x0604 => handleBufQuery d m
  | 0x0901 => handleReportSet d m
  | 0x0903 => handleLearn d n m
  | 0x0904 => handleScene d n m (n.heat + 1)
  | 0x0905 => handleChkClear (d.jChkClear n m) n m
  | 0x0101 => handleDevMode d n m
  | 0x0C10 => handlePairCtl d n m
  | 0x0D01 => handleKeyQuery d m
  | 0x0D02 => handleKeyGen d m
  | 0x0D03 => handleKeyImport d m
  | 0x0D04 => handleKeyDerive d m
  | 0x0D05 => handleKeyDelete d m
  | 0x0D06 => handleKeyPublic d m
  | 0x0D08 => handleAttest d n m d.upd.trialFlag (d.pair.role == .active) d.pair.drag
  | 0x0D0A => handleLifecycle d n m
  | 0x0E01 => handleUpdBegin d n m
  | 0x0E02 => handleUpdBlock d n m
  | 0x0E03 => handleUpdStatus d m
  | 0x0E04 => handleUpdVerify d n m
  | 0x0E05 => handleUpdActivate d n m
  | 0x0E06 => handleUpdConfirm d n m
  | 0x0E07 => handleUpdRevert d m
  | 0x0E08 => handleUpdAbort d n m
  | 0x0F01 => handleFltClear d m
  | _ => d.reject m 0x8202

/-! ## The window (R33, R66) -/

/-- A message window in progress: the cycles of its budget that are left, what its coming checks take, the messages its time still allows. -/
structure MsgRun where
  dev    : Dev
  left   : Nat
  cycles : List Nat
  limit  : Nat

/-- Act on the device alone. -/
def MsgRun.map (r : MsgRun) (f : Dev → Dev) : MsgRun := { r with dev := f r.dev }

/-- Whether the window's time is spent. -/
def MsgRun.spent (r : MsgRun) : Bool := r.left == 0 || r.limit == 0

/-- The oldest SEQ of a mailbox first (R66), also ahead of messages that the limit left over (DESIGN CHOICE, assumption 67). -/
def firstMsg : List Msg → Option Msg
  | [] => none
  | m :: l => match firstMsg l with
    | none => some m
    | some x => if x.j.seq < m.j.seq then some x else some m

/-- Remove a message from a mailbox. -/
def dropMsg (m : Msg) : List Msg → List Msg
  | [] => []
  | x :: l => if x == m then l else x :: dropMsg m l

/-- A session's message is taken from its mailbox; an authenticated one is among the last 8 handled (R41). -/
def Dev.takeMsg (d : Dev) (slot : Nat) (m : Msg) : Dev :=
  d.onSlot slot (fun s =>
    let kept := (s.handled ++ [⟨m.j.seq, m.j.tag, m.j.typ, none⟩])
    { s with inbox := dropMsg m s.inbox, handled := kept.drop (kept.length - 8) })

/-- A check begins (R83): it completes when the window's time covers it, else it pauses (R33). -/
def MsgRun.check (r : MsgRun) (n : Now) (slow : Bool) (j : CheckJob) : MsgRun :=
  let bound := checkBound j.entries.length
  let cost := min bound (r.cycles.headD bound)
  let j := { j with cost := cost, left := cost - r.left }
  let r := { r with cycles := r.cycles.drop 1, left := r.left - cost }
  if j.left == 0 then r.map (fun d => d.finishCheck n slow j)
  else r.map (fun d => { d with txn := { d.txn with paused := j :: d.txn.paused } })

/-- One message of a session is handled. -/
def MsgRun.one (r : MsgRun) (n : Now) (slow : Bool) (slot : Nat) (m : Msg) : MsgRun :=
  let s := r.dev.slot slot
  let r : MsgRun := { r with limit := r.limit - 1 }
  if m.j.typ == 0x0203 then r.map (fun d => handleProve (d.onSlot slot (fun s => { s with inbox := dropMsg m s.inbox })) n m)
  else match r.dev.typeCode s.cls m.j.typ with
    | some c => r.map (fun d => (d.takeMsg slot m).reject m c)
    | none =>
      let r := r.map (fun d => d.takeMsg slot m)
      if checkType m.j.typ then
        match if m.j.typ == 0x0231 then r.dev.setJob m else r.dev.commitJob m with
        | .error c => r.map (fun d => d.reject m c)
        | .ok j => r.check n slow j
      else r.map (fun d => d.request n m)

/-- Whether a session's next message waits for a check in progress (R84): its own, or any when it asks for a check itself and is no
Safety session. -/
def Dev.checkWaits (d : Dev) (slot : Nat) (m : Msg) : Bool :=
  d.txn.paused.any (fun (j : CheckJob) => j.slot == slot) || (!d.txn.paused.isEmpty && checkType m.j.typ && (d.slot slot).cls != 2)

/-- A session's turn (R66): up to `k` of its messages in SEQ order. -/
def MsgRun.turn (n : Now) (slow : Bool) (slot : Nat) : Nat → MsgRun → MsgRun
  | 0, r => r
  | k + 1, r =>
    let s := r.dev.slot slot
    match firstMsg s.inbox with
    | none => r
    | some m =>
      if r.spent || s.state == .free || r.dev.checkWaits slot m then r
      else MsgRun.turn n slow slot k (r.one n slow slot m)

/-- The sessions of a class from its start slot on, wrapping (R66). -/
def Dev.classSlots (d : Dev) (cls : Nat) : List Nat :=
  let start := d.ctl.starts.getD cls 0
  ((List.range 32).map (fun i => (start + i) % 32)).filter (fun i => (d.slot i).state != .free && (d.slot i).cls == cls)

/-- The sessions of a class have their turns; the class's start slot moves past the first of them, also in a window whose time is spent
before the class is reached (DESIGN CHOICE, assumption 67). -/
def MsgRun.cls (n : Now) (slow : Bool) (r : MsgRun) (cls : Nat) : MsgRun :=
  match r.dev.classSlots cls with
  | [] => r
  | f :: rest =>
    let k := r.dev.cn P.ctl_msg_max_per_session 0
    let r := r.map (fun d => { d with ctl := { d.ctl with starts := modAt d.ctl.starts cls (fun _ => (f + 1) % 32) } })
    (f :: rest).foldl (fun r slot => MsgRun.turn n slow slot k r) r

/-- Up to `k` OPENs (R66). -/
def MsgRun.opens (n : Now) : Nat → MsgRun → MsgRun
  | 0, r => r
  | k + 1, r =>
    match r.dev.ctl.pre with
    | [] => r
    | m :: l =>
      if r.spent then r
      else MsgRun.opens n k { r.map (fun d => handleOpen { d with ctl := { d.ctl with pre := l } } n m) with limit := r.limit - 1 }

/-- The check that is first in line goes on with what is left of the window, and completes when it has had all its time (R33, R83). -/
def MsgRun.resumeOne (n : Now) (slow : Bool) (r : MsgRun) : MsgRun :=
  match r.dev.txn.paused with
  | [] => r
  | j :: rest =>
    let use := min j.left r.left
    let r : MsgRun := { r with left := r.left - use }
    if j.left == use then r.map (fun d => ({ d with txn := { d.txn with paused := rest } } : Dev).finishCheck n slow j)
    else r.map (fun d => { d with txn := { d.txn with paused := { j with left := j.left - use } :: rest } })

/-- The checks in progress go on, one after the other (R84). -/
def MsgRun.resume (n : Now) (slow : Bool) (r : MsgRun) : MsgRun :=
  r.dev.txn.paused.foldl (fun r _ => if r.left == 0 then r else r.resumeOne n slow) r

/-- The mailboxes in their order (R66). -/
def MsgRun.mailboxes (n : Now) (slow : Bool) (r : MsgRun) : MsgRun :=
  let r := (MsgRun.cls n slow r 2).resume n slow
  let r := MsgRun.opens n 4 r
  let r := MsgRun.cls n slow r 3
  let r := MsgRun.cls n slow r 1
  MsgRun.cls n slow r 0

/-- Whether work is left for a later heat because the window's time is spent (R33). -/
def MsgRun.defers (r : MsgRun) : Bool :=
  r.dev.txn.paused.any (fun (j : CheckJob) => decide (0 < j.left)) ||
    (r.spent && (!r.dev.ctl.pre.isEmpty || r.dev.ctl.slots.any (fun (s : Session) => s.state != .free && !s.inbox.isEmpty)))

/-- The count and event of a heat that defers messages (R33): 0x0302 once for each run of such heats. -/
def Dev.deferNote (d : Dev) (n : Now) (defers : Bool) : Dev :=
  let was := d.work.deferring
  let d : Dev := { d with work := { d.work with deferring := defers } }
  if !defers then d
  else
    let d := d.bump P.time_defer_count 0
    if was then d else d.raise n 0x0302 whole []

/-- Replies that waited for a message window (R69, R90) go out. -/
def Dev.sendHeld (d : Dev) : Dev :=
  let l := d.ctl.held
  let d : Dev := { d with ctl := { d.ctl with held := [] } }
  l.foldl (fun d h => d.replyTo h.slot h.session h.route h.typ h.seq h.status h.data) d

/-- Whether the mailboxes are served: in Takeover and Changeover messages stay queued (R87). -/
def Mode.serves (m : Mode) : Bool := m.takesMessages && m != .takeover && m != .changeover

/-- MESSAGE_WINDOW (R31, R33, R66): once a heat, after the hard window's work: re-checks and replies that are due, the mailboxes within
`time.msg_budget_cycles`, then reports and events. -/
def messageWindow (d : Dev) (n : Now) (limit : Nat) (slow : Bool) (cycles : List Nat) : Dev :=
  if !d.messageTime then d
  else
    let budget := d.cn P.time_msg_budget_cycles 0
    let d := ((d.recheckAll n).sendHeld).commitReplies n
    let r : MsgRun := ⟨d, budget, cycles, limit⟩
    let r := if d.pwr.mode.serves then r.mailboxes n slow else r
    let d := r.dev.deferNote n r.defers
    let used := d.work.workCycles + (budget - r.left)
    let d := d.setSN P.time_max_work_cycles 0 (max (d.sn P.time_max_work_cycles 0) used)
    let d := (List.range 32).foldl (fun d i => d.sendReports i) d
    let d := (d.sendAllEvents n).closeExhausted n
    { d with work := { d.work with messagesDone := true } }

/-! ## Learning (R261) -/

/-- The job that commits learned values: it waits for a message window as any check does (R83). -/
def Learn.job (l : Learn) (mould txn : Nat) : CheckJob :=
  { slot := slotOf l.msg.j.session, session := l.msg.j.session, msg := l.msg, txn := txn, isSet := false, isCheck := false
    entries := [⟨P.chk_expect, winInst mould l.win, .blob (l.values.flatMap (fun v => leBytes 4 v.toNat))⟩]
    kind := 0, output := 0, target := 0, cost := checkBound 1, left := checkBound 1, again := false, learn := some (winInst mould l.win) }

/-- A check joins those in progress (R84): that of a Safety session ahead of the others' and behind those of Safety sessions. -/
def Dev.queueCheck (d : Dev) (j : CheckJob) : Dev :=
  let safe (x : CheckJob) : Bool := (d.slot x.slot).cls == 2
  let l := d.txn.paused
  { d with txn := { d.txn with paused := if safe j then l.takeWhile safe ++ j :: l.dropWhile safe else l ++ [j] } }

/-- LEARN_COMPLETE (R261): the P frames are over or the learning was abandoned: 0x8904 or 0x8905 answers, or the commit of the values goes
to its check. -/
def learnComplete (d : Dev) (mould : Nat) : Dev :=
  match (d.mould mould).learn with
  | none => d
  | some l =>
    if (l.failed == 0 && l.left != 0) || !d.fwRuns then d
    else
      let slot := slotOf l.msg.j.session
      let d := d.onMould mould (fun x => { x with learn := none })
      if (d.slot slot).id slot != l.msg.j.session || (d.slot slot).state != .open then d
      else if l.failed != 0 then d.reject l.msg l.failed
      else if 4 < l.values.length then d.reject l.msg 0x8904
      else
        let txn := (d.slot slot).nextTxn
        let d := d.onSlot slot (fun s => { s with nextTxn := nextTxnId s.nextTxn })
        d.queueCheck (l.job mould txn)

end Sys2Proof.Machine
end

