-- ==== Sys2Proof/Machine/Windows.lean ====
section
/-!
DEFINITION. The heat (chapter 2): HEAT_BOUNDARY, HARD_WINDOW and BACKGROUND_WINDOW (R24, R31, R32), each over the operations of the blocks.
-/

namespace Sys2Proof.Machine

/-- Whether heats run: cupola 0 has locked since the last Reset, and in Banked only during a wake (R25, R446). -/
def Dev.heatsRun (d : Dev) : Bool := !d.inReset && (d.pwr.mode != .banked || d.pwr.wake.isSome)

/-- The overrun of a heat at its end (R32): the hard window's work is not finished; 0x0301, and Degraded after `time.overrun_limit` in a
row. The next heat's hard window and message window are to come. -/
def Dev.overrunStep (d : Dev) (n : Now) : Dev :=
  let late : Bool := !d.work.hardDone && d.fwRuns
  let d := if late then
      let d : Dev := { d with work := { d.work with overrunRun := d.work.overrunRun + 1 } }
      let d := (d.bump P.time_overrun_count 0).raise n 0x0301 whole []
      if d.cn P.time_overrun_limit 0 ≤ d.work.overrunRun then d.degrade 0 else d
    else ({ d with work := { d.work with overrunRun := 0 } } : Dev).undegrade 0
  { d with work := { d.work with hardDone := !d.fwRuns, messagesDone := false } }

/-- The events that count what happened in the heat that ends, each at most once for its resource: tag failures and mailboxes (R42, R67),
receive ports (R109, R123), transmit ports offered too much (R132), corrected errors (R168), sprues (R186), the reference (R280), extractors (R320), the Morcel link (R330, R339),
stretched clocks (R450). -/
def Dev.tellHeat (d : Dev) : Dev :=
  let d := (List.range d.nRx).foldl Dev.tellRx d.tellOverflow.tellTagFails
  let d := (List.range 16).foldl Dev.tellOut d
  let d := (List.range d.nSprue).foldl Dev.tellSprue d.tellEcc
  ((List.range 8).foldl Dev.tellEaud d.tellGlitches).tellMorcel.tellStretch

/-- What the boundary samples: rails in regulation and GPIO levels (R453, R457), and the counts of single-bit errors that the SECDED of the
local memories corrected (R18, R465). -/
def Dev.sampleBoundary (d : Dev) (b : BoundaryIn) : Dev :=
  let d := (d.bumpField P.flt_local_ecc_counts 0 0 32 b.eccLocal).bumpField P.flt_ecc_ctl_counts 0 0 32 b.eccCtl
  let d := (d.setSN P.dev_supply_status 0 (b.rails % 256)).putField P.flt_rail_status 0 0 8 (b.rails % 256)
  { d with pwr := { d.pwr with gpioIn := b.gpio } }

/-- PAIR_SYNC_OUT at a boundary of the time master whose HEAT[2:0] is 0 (R35): the pulse, and the ladle phases latched at it and told to the
follower (R291). -/
def Dev.masterPulse (d : Dev) (n : Now) (phases : List (Nat × Nat × Nat)) : Dev :=
  if d.pairOn && d.pair.role == .active && n.heat % 8 == 0 then
    let d := d.say (.pairSync n.heat)
    let d := phases.foldl (fun (d : Dev) p => if p.1 < 20 && bit (d.cn P.ladle_mode p.1) 2 then d.ladlePulse n p.1 p.2.1 p.2.2 else d) d
    d.sendLadles n phases
  else d

/-- The boundary's hardware and the controllers that change places at it: clocks, link, alive pin, the resident pair after a trial's fault, a
restarted pair, journal, changeover, takeover, wake and Banked entry. -/
def boundaryUnits (x : DM) (n : Now) (ckpt : Option Dev) (b : BoundaryIn) : DM :=
  let was := x.dev.upd.resume
  let x := x.map (fun d => (((((d.runnerHeat n).rastersHeat n).clocksHeat n).morHeat n).aliveHeat))
  let x := warmActivate ((trialResume x n ckpt).map (fun d => d.residentActive was)) n
  let x := changeoverBoundary (x.map (fun d => d.jBoundary n)) n b.handover
  x.map (fun d => (((d.pairTakeover n).wakeHeat n).wakeSample n b.wake).bankBoundary n)

/-- The boundary's transfers and reports: expiry policies and commits (R60, R89), scenes, the audio batch, faults, reports, orphans. -/
def Dev.boundaryData (d : Dev) (n : Now) (b : BoundaryIn) : Dev :=
  let d := audioBatch ((commitEffective (d.risersHeat b.risers) n).sceneBoundary n) n b
  let d := ((d.endMoments n).faultRefresh n).pinBoundary n
  rxLimits (d.pruneReports.deleteOrphans n) n

/-- The pair at the end of a boundary: the version in force (R425), digest and sequences, a snapshot to capture (R363), the sync pulse. -/
def Dev.boundaryPair (d : Dev) (n : Now) (b : BoundaryIn) : Dev :=
  let v := d.verBoundary n
  let d := if v.2 && v.1.pair.role == .standby then v.1.startResync n 6 else v.1
  (((d.pairHeat n).snapLate n).snapCapture n).masterPulse n b.phases

/-- The mode at a boundary (R429); a unit enrolled at this start goes on to a restart from Provisioning (Table 19.2 cause 4). -/
def Dev.boundaryMode (d : Dev) (n : Now) (b : BoundaryIn) : Dev :=
  let d := ((d.thermal n b.tj).sampleBoundary b).modeBoundary n
  if d.pwr.mode == .provisioning && d.pwr.enrolling then { d with pwr := { d.pwr with restart := some (4, 3) } } else d

/-- HEAT_BOUNDARY (R24, R31): the heat number of the heat that begins, and the machine after the boundary's work. While no heats run it is no
event. -/
def heatBoundary (x : DM) (heat : Nat) (ckpt : Option Dev) (b : BoundaryIn) : DM × Now :=
  let h := x.dev.tellHeat.nextHeat heat
  let n : Now := ⟨h.1, 0⟩
  let x := boundaryUnits ⟨h.2.overrunStep n, x.mem⟩ n ckpt b
  (x.map (fun d => ((d.boundaryData n b).boundaryPair n b).boundaryMode n b), n)

/-- The records the hard window releases, and the heartbeat that names them (R355, R358). -/
def Dev.hardJournal (d : Dev) (n : Now) : Dev :=
  let d := if d.journals then d.jTriggers n else d
  let r := d.jRelease n
  let d := if r.1.pairOn then r.1.sendHeartbeat n r.2 else r.1
  d.joinResync n

/-- The adaptive loops and measurements of the hard window (Table 2.4): loss of signal, AVS, watermarks, re-striping, tundishes, rates. -/
def Dev.hardLoops (d : Dev) (n : Now) (h : HardIn) : Dev :=
  let d := ((losLoop d h.noise).avsUpdate n h).watermarks n
  let d := crucibleHard d n h
  let d := h.slowU.foldl (fun (d : Dev) p => if decide (1200 < p.2) then d.fault n 9 p.1 (leBytes 2 p.2) false else d) d
  ((d.tunUpdate n h.ratios).sapRates n).phaseErrs h.phaseErr

/-- HARD_WINDOW (R31 and Table 2.4, R32): the firmware's work of the heat. What it measured and decides takes its effect also in a heat that
it overruns, but the shadow sets it writes are then not complete. -/
def hardWindow (d : Dev) (n : Now) (h : HardIn) : Dev :=
  let d := (d.lapseDue n).sceneHard
  let d := (d.hardLoops n h).writeShadows n h.finished
  let d := (d.signReports n).checkIn
  let d := ((d.trialEval n h.selfTestBad).holdOwnStep n).hardJournal n
  { d with work := { d.work with workCycles := h.cycles, hardDone := h.finished } }

/-- The checkpoint at the end of a hard window, while a trial runs beside its resident pair (R421). -/
def Dev.checkpoint (d : Dev) (old : Option Dev) : Option Dev :=
  if d.upd.trialFlag && d.upd.resident then some d else if d.upd.resident then old else none

/-- Whether the heat's hard and message windows are over (R31). A mode that takes no messages has no message window. -/
def Dev.backgroundTime (d : Dev) : Bool := d.fwRuns && d.work.hardDone && (d.work.messagesDone || !d.pwr.mode.takesMessages)

/-- BACKGROUND_WINDOW (R31): after the heat's other windows, ingots that wait for their build are started (R225). Its other work is that of
KEY_REMASK, LEARN_COMPLETE, SCRUB_PASS, UPLOAD_WRITTEN and IMAGE_VERIFY_DONE. -/
def backgroundWindow (d : Dev) (n : Now) : Dev :=
  if d.backgroundTime then (List.range d.nMould).foldl (fun d m => d.ingotStart n m) d else d

/-- KEY_REMASK (R387): in the background window, `key.remask_heats` after the last pass, a new mask is drawn and every entry is rewritten under
it; a period of 0 turns it off. -/
def keyRemask (d : Dev) (n : Now) : Dev :=
  let k := d.cn P.key_remask_heats 0
  if k == 0 || !d.backgroundTime || decide (n.heat < d.key.remaskAt + k) then d
  else
    let (_, d) := d.draw
    ({ d with key := { d.key with masks := d.key.masks + 1, remaskAt := n.heat } }).bumpField P.key_ram_stats 0 0 32 1

end Sys2Proof.Machine
end

