-- ==== Sys2Proof/Machine/Exec.lean ====
section
/-!
DEFINITION. What stands around every command: its instant, the outputs it gives, and what follows from it at once whatever the command was
(an injected fault, the pair's link edges and journal, table updates that wait, a restart that was asked for).
-/

namespace Sys2Proof.Machine

/-- What follows a command on the device: the yield after a fault (R459), edges of the pair's link (R361, R394), RELOCK (R284), the shared
buses (R350), a table update that waits (R383), and the journal of what was decided (R357). `d0`: the device before. -/
def Dev.follow (d0 d : Dev) (n : Now) : Dev :=
  let d := (d.yieldAfterFault n).pairLink d0.mor.up n
  let d := ((d.sendRelock d0.clk.ref.relockAt).busFollow n d0.pair.ownOut).startSeals
  d0.journal d n

/-- What follows every command at once; a fault to be injected comes first (R465), a restart that was asked for last (R429, R431). -/
def settle (d0 : Dev) (x : DM) (n : Now) : DM :=
  restartNow ((injectNow x n).map (fun d => (d0.follow d n).morBusy n.abs)) n

/-- The state after a command: its instant, its machine, and the resident pair's checkpoint while there is one (R421). -/
def State.after (s : State) (n : Now) (x : DM) : State :=
  { s with
    tb := ⟨BitVec.ofNat 48 n.heat, BitVec.ofNat 17 n.cycle⟩, mem := x.mem, dev := x.dev
    ckpt := if x.dev.upd.resident then s.ckpt else none }

/-- The machine a command finds: nothing on the outputs but what it will give itself. -/
def State.dm (s : State) : DM := ⟨{ s.dev with out := [] }, s.mem⟩

/-- The instant of a command: the heat in progress and its core cycle `t` (R26). -/
def State.now (s : State) (t : Nat) : Now := ⟨s.tb.heat.toNat, t⟩

/-- Run a command that may touch the crucible RAM. -/
def State.actMem (s : State) (t : Nat) (f : DM → Now → DM) : State :=
  let n := s.now t
  s.after n (settle s.dm.dev (f s.dm n) n)

/-- Run a command that touches the device alone. -/
def State.act (s : State) (t : Nat) (f : Dev → Now → Dev) : State := s.actMem t (fun x n => x.map (fun d => f d n))

/-- Run a command after which the device has no past: a Reset or a start, with the instant at which it ends. -/
def State.actStart (s : State) (t : Nat) (f : DM → Now → DM × Now) : State :=
  let r := f s.dm (s.now t)
  s.after r.2 (settle r.1.dev r.1 r.2)

end Sys2Proof.Machine
end

