-- ==== Sys2Proof/Machine/CmdAudio.lean ====
section
/-!
DEFINITION. Audio (chapter 14): one meaning for each command, over the operations of its block.
-/

namespace Sys2Proof.Machine

/-- SAP_FSYNC_EDGE (R307). -/
def execSapFsyncEdge (t : Nat) (port clocks : Nat) (slots : List Nat) (s : State) : Host.Outcome State Fault Refusal :=
  .next (s.act t (fun d n => sapEdge d n port clocks slots))

/-- SAP_CLOCK_STOP (R309). -/
def execSapClockStop (t : Nat) (port : Nat) (s : State) : Host.Outcome State Fault Refusal :=
  .next (s.act t (fun d n => sapClockStop d n port))

/-- SAP_CLOCK_RESUME (R309). -/
def execSapClockResume (t : Nat) (port : Nat) (s : State) : Host.Outcome State Fault Refusal :=
  .next (s.act t (fun d n => sapClockResume d n port))

/-- SLOT_MASK_APPLY (R310). -/
def execSlotMaskApply (t : Nat) (port : Nat) (s : State) : Host.Outcome State Fault Refusal :=
  .next (s.act t (fun d n => slotMaskApply d n port))

/-- QUEUE_POINTER_MISMATCH (R312). -/
def execQueuePointerMismatch (t : Nat) (kind : Nat) (at_ : QueueAccess) (s : State) : Host.Outcome State Fault Refusal :=
  .next (s.act t (fun d n => queueMismatch d n kind at_.unit at_.write))

/-- PDM_STUCK (R314). -/
def execPdmStuck (t : Nat) (inst mic : Nat) (level : Bool) (s : State) : Host.Outcome State Fault Refusal :=
  .next (s.act t (fun d n => pdmStuck d n inst mic level))

/-- TUNDISH_HOLD (R316). -/
def execTundishHold (t : Nat) (inst : Nat) (outOfRange : Bool) (s : State) : Host.Outcome State Fault Refusal :=
  .next (s.act t (fun d n => tundishHold d n inst outOfRange))

/-- AUDIO_PACKET_SEND (R321). -/
def execAudioPacketSend (t : Nat) (inst : Nat) (s : State) : Host.Outcome State Fault Refusal :=
  .next (s.act t (fun d n => audioSend d n inst))

end Sys2Proof.Machine
end

