-- ==== Sys2Proof/Machine/CmdClock.lean ====
section
/-!
DEFINITION. Cupolas, the reference and ladles (chapter 13): one meaning for each command, over the operations of its block.
-/

namespace Sys2Proof.Machine

/-- GLIDE_END (R244). -/
def execGlideEnd (t : Nat) (ladle : Nat) (s : State) : Host.Outcome State Fault Refusal :=
  .next (s.act t (fun d n => glideEnd d n ladle))

/-- BAND_SEARCH_DONE (R276). -/
def execBandSearchDone (t : Nat) (cupola band : Nat) (s : State) : Host.Outcome State Fault Refusal :=
  .next (s.act t (fun d n => bandFound d n cupola band))

/-- CUPOLA_LOCK (R277). -/
def execCupolaLock (t : Nat) (cupola code : Nat) (s : State) : Host.Outcome State Fault Refusal :=
  .next (s.act t (fun d n => cupolaLockCmd d n cupola code))

/-- CUPOLA_LOCK_TIMEOUT (R276). -/
def execCupolaLockTimeout (t : Nat) (cupola : Nat) (s : State) : Host.Outcome State Fault Refusal :=
  .next (s.act t (fun d n => cupolaTimeout d n cupola))

/-- CUPOLA_LOSS_OF_LOCK (R277). -/
def execCupolaLossOfLock (t : Nat) (cupola : Nat) (err : Int) (s : State) : Host.Outcome State Fault Refusal :=
  .next (s.act t (fun d n => cupolaLossCmd d n cupola err))

/-- REFERENCE_GLITCH (R280). -/
def execReferenceGlitch (t : Nat) (s : State) : Host.Outcome State Fault Refusal :=
  .next (s.act t (fun d n => refGlitch d n))

/-- FLYWHEEL_RECOVER (R278). -/
def execFlywheelRecover (t : Nat) (s : State) : Host.Outcome State Fault Refusal :=
  .next (s.act t (fun d n => flywheelRecover d n))

/-- REFERENCE_LOSS (R281). -/
def execReferenceLoss (t : Nat) (cause : Nat) (s : State) : Host.Outcome State Fault Refusal :=
  .next (s.act t (fun d n => refLoss d n cause))

/-- HOLDOVER_LIMIT (R281). -/
def execHoldoverLimit (t : Nat) (s : State) : Host.Outcome State Fault Refusal :=
  .next (s.act t (fun d n => holdoverLimit d n))

/-- REFERENCE_REQUALIFIED (R282). -/
def execReferenceRequalified (t : Nat) (e : Int) (s : State) : Host.Outcome State Fault Refusal :=
  .next (s.act t (fun d n => refRequalified d n e))

/-- LADLE_RECENTRE (R285). -/
def execLadleRecentre (t : Nat) (ladle : Nat) (s : State) : Host.Outcome State Fault Refusal :=
  .next (s.act t (fun d _ => ladleRecentre d ladle))

/-- LADLE_ROTATOR_FAULT (R290). -/
def execLadleRotatorFault (t : Nat) (ladle : Nat) (s : State) : Host.Outcome State Fault Refusal :=
  .next (s.act t (fun d n => rotatorFault d n ladle))

/-- LADLE_PROFILE_LOOP_END (R289). -/
def execLadleProfileLoopEnd (t : Nat) (ladle : Nat) (s : State) : Host.Outcome State Fault Refusal :=
  .next (s.act t (fun d n => profileLoopEnd d n ladle))

/-- FSYNC_PULSE (R294). -/
def execFsyncPulse (t : Nat) (output : Nat) (s : State) : Host.Outcome State Fault Refusal :=
  .next (s.act t (fun d n => fsyncPulse d n output))

end Sys2Proof.Machine
end

