-- ==== Sys2Proof/Machine/CmdCtl.lean ====
section
/-!
DEFINITION. Transports, sessions, events, leases and buses (chapter 3): one meaning for each command, over the operations of its block.
-/

namespace Sys2Proof.Machine

/-- ANNOUNCE with what the device is (R49, Table 3.5). -/
def announceNow (d : Dev) (n : Now) : Dev :=
  d.announce n (d.announcePayload n d.pair.drag (d.pair.role == .active) d.upd.trialFlag (d.sn P.upd_fw_version 0) (d.sn P.upd_pat_version 0))

/-- MESSAGE_ARRIVAL (R42). -/
def execMessageArrival (t : Nat) (r : Route) (b : Bytes) (s : State) : Host.Outcome State Fault Refusal :=
  .next (s.act t (fun d n => d.arrive n r b))

/-- ETH_FRAME_RECEIVE (R44). -/
def execEthFrameReceive (t : Nat) (port : Nat) (f : EthFrame) (s : State) : Host.Outcome State Fault Refusal :=
  .next (s.act t (fun d n => ethFrame d n port f))

/-- FRAG_TIMEOUT (R44). -/
def execFragTimeout (t : Nat) (port : Nat) (s : State) : Host.Outcome State Fault Refusal :=
  .next (s.act t (fun d n => fragTimeout d n port))

/-- ETH_LINK_CHANGE (R73). -/
def execEthLinkChange (t : Nat) (port : Nat) (up fast : Bool) (s : State) : Host.Outcome State Fault Refusal :=
  .next (s.act t (fun d n => ethLink d n port up fast))

/-- CAN_FRAME_RECEIVE (R47). -/
def execCanFrameReceive (t : Nat) (ctl ident : Nat) (data : Bytes) (s : State) : Host.Outcome State Fault Refusal :=
  .next (s.act t (fun d n => canFrame d n ctl ident data))

/-- CAN_SEG_TIMEOUT (R47). -/
def execCanSegTimeout (t : Nat) (ctl node : Nat) (s : State) : Host.Outcome State Fault Refusal :=
  .next (s.act t (fun d n => canSegTimeout d n ctl node))

/-- CAN_STATE_CHANGE (R73). -/
def execCanStateChange (t : Nat) (ctl st tec : Nat) (s : State) : Host.Outcome State Fault Refusal :=
  .next (s.act t (fun d n => canState d n ctl st tec))

/-- ANNOUNCE (R49). -/
def execAnnounce (t : Nat) (s : State) : Host.Outcome State Fault Refusal :=
  .next (s.act t (fun d n => announceNow d n))

/-- HANDSHAKE_TIMEOUT (R52). -/
def execHandshakeTimeout (t : Nat) (slot : Nat) (s : State) : Host.Outcome State Fault Refusal :=
  .next (s.act t (fun d n => handshakeTimeout d n slot))

/-- SESSION_IDLE_TIMEOUT (R56). -/
def execSessionIdleTimeout (t : Nat) (slot : Nat) (s : State) : Host.Outcome State Fault Refusal :=
  .next (s.act t (fun d n => sessionIdle d n slot))

/-- EVENT_RESEND_TIMEOUT (R63). -/
def execEventResendTimeout (t : Nat) (slot : Nat) (s : State) : Host.Outcome State Fault Refusal :=
  .next (s.act t (fun d n => eventResend d n slot))

/-- LEASE_LAPSE (R60). -/
def execLeaseLapse (t : Nat) (kind idx : Nat) (s : State) : Host.Outcome State Fault Refusal :=
  .next (s.act t (fun d n => Sys2Proof.Machine.leaseLapse d n kind idx))

/-- XFER_COMPLETE (R69). -/
def execXferComplete (t : Nat) (ctl : Nat) (r : List BusAnswer) (s : State) : Host.Outcome State Fault Refusal :=
  .next (s.act t (fun d n => Sys2Proof.Machine.xferComplete d n ctl r))

/-- I3C_IBI (R70). -/
def execI3cIbi (t : Nat) (ctl addr : Nat) (payload : Bytes) (s : State) : Host.Outcome State Fault Refusal :=
  .next (s.act t (fun d n => Sys2Proof.Machine.i3cIbi d n ctl addr payload))

end Sys2Proof.Machine
end

