-- ==== Sys2Proof/Machine/CmdFault.lean ====
section
/-!
DEFINITION. Faults (chapter 20): one meaning for each command, over the operations of its block.
-/

namespace Sys2Proof.Machine

/-- TX_DRIVER_FAULT (R458). -/
def execTxDriverFault (t : Nat) (port lane : Nat) (s : State) : Host.Outcome State Fault Refusal :=
  .next (s.act t (fun d n => txDriverFault d n port lane))

/-- RAIL_FAULT (R457). -/
def execRailFault (t : Nat) (level : RailLevel) (s : State) : Host.Outcome State Fault Refusal :=
  .next (s.act t (fun d n => railFault d n level.rail level.pct))

/-- CONTROLLER_FAULT (R460). -/
def execControllerFault (t : Nat) (fault : Nat) (s : State) : Host.Outcome State Fault Refusal :=
  .next (s.act t (fun d n => controllerFault d n fault))

/-- WARM_RESTART_READY (R460). -/
def execWarmRestartReady (t : Nat) (adopted : Bool) (s : State) : Host.Outcome State Fault Refusal :=
  .next (s.act t (fun d n => warmReady d n adopted))

/-- IDLE_PAIR_SELFTEST (R462). -/
def execIdlePairSelftest (t : Nat) (pass : Bool) (s : State) : Host.Outcome State Fault Refusal :=
  .next (s.act t (fun d n => idleSelftest d n pass))

/-- HALTED_PAIR_SELFTEST_DONE (R462). -/
def execHaltedPairSelftestDone (t : Nat) (pass : Bool) (s : State) : Host.Outcome State Fault Refusal :=
  .next (s.act t (fun d n => haltedSelftest d n pass))

/-- TX_MONITOR_CLEAR (R458). -/
def execTxMonitorClear (t : Nat) (port : Nat) (s : State) : Host.Outcome State Fault Refusal :=
  .next (s.act t (fun d n => txMonitorClear d n port))

end Sys2Proof.Machine
end

