-- ==== Sys2Proof/Machine/CmdHeat.lean ====
section
/-!
DEFINITION. Windows of a heat and their work (chapter 2): one meaning for each command, over the operations of its block.
-/

namespace Sys2Proof.Machine

/-- HEAT_BOUNDARY (R24). -/
def execHeatBoundary (b : BoundaryIn) (s : State) : Host.Outcome State Fault Refusal :=
  if s.dev.heatsRun then
    let r := heatBoundary s.dm s.tb.heat.toNat s.ckpt b
    .next (s.after r.2 (settle s.dm.dev r.1 r.2))
  else .next s

/-- HARD_WINDOW (R31). -/
def execHardWindow (t : Nat) (h : HardIn) (s : State) : Host.Outcome State Fault Refusal :=
  if s.dev.heatsRun && s.dev.fwRuns && !s.dev.work.hardDone then
    let u := s.act t (fun d n => hardWindow d n h)
    .next { u with ckpt := u.dev.checkpoint s.ckpt }
  else .next s

/-- MESSAGE_WINDOW (R66). -/
def execMessageWindow (t : Nat) (limit : Nat) (slow : Bool) (cycles : List Nat) (s : State) : Host.Outcome State Fault Refusal :=
  .next (s.act t (fun d n => messageWindow d n limit slow cycles))

/-- BACKGROUND_WINDOW (R31). -/
def execBackgroundWindow (t : Nat) (s : State) : Host.Outcome State Fault Refusal :=
  .next (s.act t (fun d n => backgroundWindow d n))

/-- CONSISTENCY_CHECK_DONE (R83). -/
def execConsistencyCheckDone (t : Nat) (slow : Bool) (s : State) : Host.Outcome State Fault Refusal :=
  .next (s.act t (fun d n => Sys2Proof.Machine.consistencyCheckDone d n slow))

/-- COMMIT_EFFECTIVE (R89). -/
def execCommitEffective (t : Nat) (s : State) : Host.Outcome State Fault Refusal :=
  .next (s.act t (fun d n => Sys2Proof.Machine.commitEffective d n))

end Sys2Proof.Machine
end

