-- ==== Sys2Proof/Machine/Frames.lean ====
section
/-!
DEFINITION. MOR_FRAME_RECEIVE (R339 to R342): what a received frame brings to its channel, and the pair's messages by type (R372, R490).
-/

namespace Sys2Proof.Machine

/-- A message on channel 0 reaches its meaning by TYPE; one of an unknown TYPE is discarded without reply (R490). -/
def pairMessage (x : DM) (n : Now) (b : Bytes) : DM :=
  match Jorek.parse b with
  | none => x
  | some j =>
    if j.typ == 0x0C01 then ⟨heartbeatReceive x.dev n b, x.mem⟩
    else if j.typ == 0x0C02 then ⟨yieldReceive x.dev n b, x.mem⟩
    else if j.typ == 0x0C03 then snapReqReceive x n b
    else if j.typ == 0x0C04 then ⟨ladleSync x.dev b, x.mem⟩
    else if j.typ == 0x0C05 then ⟨relockReceive x.dev b, x.mem⟩
    else if j.typ == 0x0D10 then ⟨pairKeyReceive x.dev n b, x.mem⟩
    else if j.typ == 0x0E20 then ⟨imageInfoReceive x.dev n b, x.mem⟩
    else x

/-- MOR_FRAME_RECEIVE (R339 to R342): a frame at stage 7 goes to its channel. `good`: the CRC and every block of it are right; `full`,
`parity`: as PACKET_RECEIVE. -/
def morFrameReceive (x : DM) (n : Now) (f : MorFrame) (good : Bool) (full parity : BitVec 48) : DM :=
  let d := (x.dev.morTick n.abs).onMor (fun m => { m with rxSlots := m.rxSlots + frameSlots f })
  if d.mor.stage != 7 then ⟨d, x.mem⟩
  else if !frameOk f good then ⟨d.morDiscard n f.ch, x.mem⟩
  else if f.ch == 0 then pairMessage ⟨d, x.mem⟩ n f.data
  else if f.ch == 1 then
    let r := d.morJournal f
    ⟨match r.2 with | some b => r.1.jReceive n b | none => r.1, x.mem⟩
  else if f.ch == 2 then ⟨d.snapReceive n f.data, x.mem⟩
  else if f.ch ≤ 10 then
    let r := d.morPiece f
    match r.2 with
    | some p => deliver ⟨r.1, x.mem⟩ n 2 (f.ch - 3) false p ⟨full, parity, none⟩
    | none => ⟨r.1, x.mem⟩
  else ⟨d.morUnknown n f.ch, x.mem⟩

end Sys2Proof.Machine
end

