-- ==== Sys2Proof/Machine/CmdMorcel.lean ====
section
/-!
DEFINITION. The Morcel link (chapter 15): one meaning for each command, over the operations of its block.
-/

namespace Sys2Proof.Machine

/-- MOR_STAGE_COMPLETE (R334). -/
def execMorStageComplete (t : Nat) (inverted map : Nat) (skew ctle eye : List Nat) (s : State) : Host.Outcome State Fault Refusal :=
  .next (s.act t (fun d n => morStageComplete d n inverted map skew ctle eye))

/-- MOR_STAGE_TIMEOUT (R334). -/
def execMorStageTimeout (t : Nat) (cause lane : Nat) (s : State) : Host.Outcome State Fault Refusal :=
  .next (s.act t (fun d n => morStageTimeout d n cause lane))

/-- TRAIN (R332). -/
def execTrain (t : Nat) (lane state req pre post ask : Nat) (s : State) : Host.Outcome State Fault Refusal :=
  .next (s.act t (fun d n => morTrain d n lane state req pre post ask))

/-- MOR_TRAINING_DEADLINE (R335). -/
def execMorTrainingDeadline (t : Nat) (s : State) : Host.Outcome State Fault Refusal :=
  .next (s.act t (fun d n => morTrainingDeadline d n))

/-- LINKSTAT (R335). -/
def execLinkstat (t : Nat) (state : Nat) (s : State) : Host.Outcome State Fault Refusal :=
  .next (s.act t (fun d n => morLinkstat d n state))

/-- MOR_LINK_LOSS (R337). -/
def execMorLinkLoss (t : Nat) (cause lane : Nat) (s : State) : Host.Outcome State Fault Refusal :=
  .next (s.act t (fun d n => morLinkLoss d n cause lane))

/-- SLUMBER (R338). -/
def execSlumber (t : Nat) (s : State) : Host.Outcome State Fault Refusal :=
  .next (s.act t (fun d n => morSlumber d n))

/-- WAKE (R338). -/
def execWake (t : Nat) (s : State) : Host.Outcome State Fault Refusal :=
  .next (s.act t (fun d n => morWake d n))

/-- MOR_SLUMBER_RECEIVE (R338). -/
def execMorSlumberReceive (t : Nat) (s : State) : Host.Outcome State Fault Refusal :=
  .next (s.act t (fun d _ => morSlumberReceive d))

/-- MOR_WAKE_RECEIVE (R338). -/
def execMorWakeReceive (t : Nat) (s : State) : Host.Outcome State Fault Refusal :=
  .next (s.act t (fun d _ => morWakeReceive d))

/-- MOR_FRAME_RECEIVE (R339). -/
def execMorFrameReceive (t : Nat) (f : MorFrame) (good : Bool) (full parity : BitVec 48) (s : State) : Host.Outcome State Fault Refusal :=
  .next (s.actMem t (fun x n => morFrameReceive x n f good full parity))

/-- MOR_CONTROL_UNKNOWN (R330). -/
def execMorControlUnknown (t : Nat) (typ : Nat) (s : State) : Host.Outcome State Fault Refusal :=
  .next (s.act t (fun d n => morControlUnknown d n typ))

/-- ACK (R341). -/
def execAck (t : Nat) (seq : Nat) (nak : Bool) (s : State) : Host.Outcome State Fault Refusal :=
  .next (s.act t (fun d n => morAckReceive d n seq nak))

/-- MOR_RESEND_TIMEOUT (R341). -/
def execMorResendTimeout (t : Nat) (s : State) : Host.Outcome State Fault Refusal :=
  .next (s.act t (fun d n => morResendTimeout d n))

end Sys2Proof.Machine
end

