-- ==== Sys2Proof/Machine/CmdPair.lean ====
section
/-!
DEFINITION. The pair (chapter 16): one meaning for each command, over the operations of its block.
-/

namespace Sys2Proof.Machine

/-- PAIR_SYNC_PULSE (R36). -/
def execPairSyncPulse (t : Nat) (offset : Int) (phases : List (Nat × Nat × Nat)) (s : State) : Host.Outcome State Fault Refusal :=
  .next (s.act t (fun d n => pairSyncPulse d n offset phases))

/-- PAIR_SYNC_MISSING (R36). -/
def execPairSyncMissing (t : Nat) (s : State) : Host.Outcome State Fault Refusal :=
  .next (s.act t (fun d n => syncMissing d n))

/-- HEARTBEAT (R355). -/
def execHeartbeat (t : Nat) (j : Bytes) (s : State) : Host.Outcome State Fault Refusal :=
  .next (s.act t (fun d n => heartbeatReceive d n j))

/-- SNAP_REQ (R363). -/
def execSnapReq (t : Nat) (j : Bytes) (s : State) : Host.Outcome State Fault Refusal :=
  .next (s.actMem t (fun x n => snapReqReceive x n j))

/-- SNAPSHOT_APPLY (R363). -/
def execSnapshotApply (t : Nat) (s : State) : Host.Outcome State Fault Refusal :=
  .next (s.actMem t (fun x n => snapshotApply x n))

/-- PAIR_ALIVE_IN_EDGE (R349). -/
def execPairAliveInEdge (t : Nat) (s : State) : Host.Outcome State Fault Refusal :=
  .next (s.act t (fun d n => aliveEdge d n))

/-- PAIR_ALIVE_IN_LOST (R365). -/
def execPairAliveInLost (t : Nat) (s : State) : Host.Outcome State Fault Refusal :=
  .next (s.act t (fun d n => aliveLost d n))

/-- HEARTBEAT_LOST (R365). -/
def execHeartbeatLost (t : Nat) (s : State) : Host.Outcome State Fault Refusal :=
  .next (s.act t (fun d n => heartbeatLost d n))

/-- ALIVE_WATCHDOG_EXPIRY (R349). -/
def execAliveWatchdogExpiry (t : Nat) (s : State) : Host.Outcome State Fault Refusal :=
  .next (s.act t (fun d _ => aliveExpiry d))

/-- TAKEOVER_DETECT (R364). -/
def execTakeoverDetect (t : Nat) (s : State) : Host.Outcome State Fault Refusal :=
  .next (s.act t (fun d n => takeoverDetect d n))

/-- OWN_OUT_SWITCH (R366). -/
def execOwnOutSwitch (t : Nat) (s : State) : Host.Outcome State Fault Refusal :=
  .next (s.act t (fun d n => ownOutSwitch d n))

/-- YIELD (R369). -/
def execYield (t : Nat) (j : Bytes) (s : State) : Host.Outcome State Fault Refusal :=
  .next (s.act t (fun d n => yieldReceive d n j))

/-- PAIR_BOOT_WAIT_END (R370). -/
def execPairBootWaitEnd (t : Nat) (s : State) : Host.Outcome State Fault Refusal :=
  .next (s.act t (fun d n => bootWaitEnd d n))

/-- IMAGE_INFO (R425). -/
def execImageInfo (t : Nat) (j : Bytes) (s : State) : Host.Outcome State Fault Refusal :=
  .next (s.act t (fun d n => imageInfoReceive d n j))

/-- LADLE_SYNC (R291). -/
def execLadleSync (t : Nat) (j : Bytes) (s : State) : Host.Outcome State Fault Refusal :=
  .next (s.act t (fun d _ => ladleSync d j))

/-- RELOCK (R284). -/
def execRelock (t : Nat) (j : Bytes) (s : State) : Host.Outcome State Fault Refusal :=
  .next (s.act t (fun d _ => relockReceive d j))

/-- PAIR_KEY (R394). -/
def execPairKey (t : Nat) (j : Bytes) (s : State) : Host.Outcome State Fault Refusal :=
  .next (s.act t (fun d n => pairKeyReceive d n j))

end Sys2Proof.Machine
end

