-- ==== Sys2Proof/Machine/CmdPicture.lean ====
section
/-!
DEFINITION. Crucible, sprues, moulds, ingots and integrity (chapters 7 to 10 and 12): one meaning for each command, over the operations of its block.
-/

namespace Sys2Proof.Machine

/-- RISER_UNDERRUN (R205). -/
def execRiserUnderrun (t : Nat) (mould layer line x : Nat) (s : State) : Host.Outcome State Fault Refusal :=
  .next (s.act t (fun d n => riserUnderrun d n mould layer line x))

/-- SPRUE_DRAIN_COMPLETE (R184). -/
def execSprueDrainComplete (t : Nat) (sprue : Nat) (s : State) : Host.Outcome State Fault Refusal :=
  .next (s.act t (fun d n => sprueDrain d n sprue))

/-- REPLAY_FRAME_START (R136). -/
def execReplayFrameStart (t : Nat) (reader : Nat) (r : ReplayIn) (s : State) : Host.Outcome State Fault Refusal :=
  .next (s.actMem t (fun x n => replayFrame x n reader r.late r.drops))

/-- UPLOAD_WRITTEN (R161). -/
def execUploadWritten (t : Nat) (s : State) : Host.Outcome State Fault Refusal :=
  .next (s.actMem t (fun x n => uploadWritten x n))

/-- UPLOAD_TIMEOUT (R161). -/
def execUploadTimeout (t : Nat) (handle slot : Nat) (s : State) : Host.Outcome State Fault Refusal :=
  .next (s.act t (fun d n => uploadTimeout d n handle slot))

/-- GRANULE_CLEARED (R160). -/
def execGranuleCleared (t : Nat) (bank granule : Nat) (s : State) : Host.Outcome State Fault Refusal :=
  .next (s.actMem t (fun x _ => granuleCleared x bank granule))

/-- ECC_ERROR (R168). -/
def execEccError (t : Nat) (bank granule group : Nat) (double : Bool) (s : State) : Host.Outcome State Fault Refusal :=
  .next (s.actMem t (fun x n => eccErrorCmd x n bank granule group double))

/-- SCRUB_PASS (R169). -/
def execScrubPass (t : Nat) (s : State) : Host.Outcome State Fault Refusal :=
  .next (s.act t (fun d n => scrubPass d n))

/-- INGOT_BUILD_DONE (R225). -/
def execIngotBuildDone (t : Nat) (mould : Nat) (s : State) : Host.Outcome State Fault Refusal :=
  .next (s.actMem t (fun x n => ingotBuildDone x n mould))

/-- CHECK_WINDOW_RESULT (R256). -/
def execCheckWindowResult (t : Nat) (inst : Nat) (s : State) : Host.Outcome State Fault Refusal :=
  .next (s.actMem t (fun x n => checkWindowResult x n inst))

/-- LEARN_COMPLETE (R261). -/
def execLearnComplete (t : Nat) (mould : Nat) (s : State) : Host.Outcome State Fault Refusal :=
  .next (s.act t (fun d _ => learnComplete d mould))

/-- REVERSE_IN_DEBOUNCE (R268). -/
def execReverseInDebounce (t : Nat) (level : Bool) (s : State) : Host.Outcome State Fault Refusal :=
  .next (s.act t (fun d n => reverseDebounce d n level))

/-- FLASK_RISER_ECC_ERROR (R457). -/
def execFlaskRiserEccError (t : Nat) (mould layer line x : Nat) (s : State) : Host.Outcome State Fault Refusal :=
  .next (s.act t (fun d n => flaskRiserError d n mould layer line x))

end Sys2Proof.Machine
end

