-- ==== Sys2Proof/Machine/CmdPower.lean ====
section
/-!
DEFINITION. Reset, start, modes and power (chapter 19): one meaning for each command, over the operations of its block.
-/

namespace Sys2Proof.Machine

/-- RESET_N_ASSERT (R433). -/
def execResetNAssert (t cause : Nat) (s : State) : Host.Outcome State Fault Refusal :=
  .next (s.actStart t (fun x n => (resetNAssert x n cause, n)))

/-- RESET_N_RELEASE (R435). -/
def execResetNRelease (t : Nat) (b : BootIn) (s : State) : Host.Outcome State Fault Refusal :=
  .next (s.actStart t (fun x n => resetNRelease x n b))

/-- FIRST_POUR_AFTER_BOOT (R429). -/
def execFirstPourAfterBoot (t : Nat) (s : State) : Host.Outcome State Fault Refusal :=
  .next (s.act t (fun d n => firstPourAfterBoot d n))

/-- BOOT_RETRY (R437). -/
def execBootRetry (t : Nat) (b : BootIn) (s : State) : Host.Outcome State Fault Refusal :=
  .next (s.actStart t (fun x n => (bootRetry x n b, n)))

/-- SCRIPT_COMPLETE (R441). -/
def execScriptComplete (t : Nat) (script : Nat) (fail : Option Nat) (s : State) : Host.Outcome State Fault Refusal :=
  .next (s.act t (fun d n => scriptComplete d n script fail))

/-- BANK_IDLE_TIMEOUT (R444). -/
def execBankIdleTimeout (t : Nat) (s : State) : Host.Outcome State Fault Refusal :=
  .next (s.act t (fun d n => bankIdleTimeout d n))

/-- BANKED_ENTRY_COMPLETE (R444). -/
def execBankedEntryComplete (t : Nat) (s : State) : Host.Outcome State Fault Refusal :=
  .next (s.actMem t (fun x n => bankedEntryComplete x n))

/-- WAKE_EVENT (R446). -/
def execWakeEvent (t : Nat) (source ident : Nat) (s : State) : Host.Outcome State Fault Refusal :=
  .next (s.act t (fun d n => wakeEvent d n source ident))

/-- WAKE_COMPLETE (R447). -/
def execWakeComplete (t : Nat) (s : State) : Host.Outcome State Fault Refusal :=
  .next (s.act t (fun d n => wakeComplete d n))

/-- VOLTAGE_DROOP (R450). -/
def execVoltageDroop (t : Nat) (droop : Droop) (s : State) : Host.Outcome State Fault Refusal :=
  .next (s.act t (fun d n => voltageDroop d n droop.mv droop.cycles))

/-- SHED_STEP (R452). -/
def execShedStep (t : Nat) (s : State) : Host.Outcome State Fault Refusal :=
  .next (s.act t (fun d n => shedStep d n))

/-- VDD_AON_POWER_UP (R432). -/
def execVddAonPowerUp (t : Nat) (s : State) : Host.Outcome State Fault Refusal :=
  .next (s.act t (fun d n => vddAonPowerUp d n))

/-- PWR_EN_DELAY_END (R432). -/
def execPwrEnDelayEnd (t : Nat) (s : State) : Host.Outcome State Fault Refusal :=
  .next (s.act t (fun d _ => pwrEnDelayEnd d))

end Sys2Proof.Machine
end

