-- ==== Sys2Proof/Machine/CmdScan.lean ====
section
/-!
DEFINITION. Scan-out (chapter 11): one meaning for each command, over the operations of its block.
-/

namespace Sys2Proof.Machine

/-- POUR (R28). -/
def execPour (t : Nat) (tg : Nat) (torn : List Nat) (s : State) : Host.Outcome State Fault Refusal :=
  .next (s.act t (fun d n => pour d n tg torn))

/-- LATCH_LINE (R237). -/
def execLatchLine (t : Nat) (tg : Nat) (s : State) : Host.Outcome State Fault Refusal :=
  .next (s.actMem t (fun x n => ⟨latchLine x n tg, x.mem⟩))

/-- TEST_LINE (R250). -/
def execTestLine (t : Nat) (tg : Nat) (s : State) : Host.Outcome State Fault Refusal :=
  .next (s.act t (fun d n => testLine d n tg))

/-- RESEAT_HOLD_START (R246). -/
def execReseatHoldStart (t : Nat) (tg : Nat) (s : State) : Host.Outcome State Fault Refusal :=
  .next (s.act t (fun d n => reseatHoldStart d n tg))

/-- RESEAT_RESTART (R246). -/
def execReseatRestart (t : Nat) (tg : Nat) (s : State) : Host.Outcome State Fault Refusal :=
  .next (s.act t (fun d n => reseatRestart d n tg))

/-- TG_STOP (R234). -/
def execTgStop (t : Nat) (tg : Nat) (s : State) : Host.Outcome State Fault Refusal :=
  .next (s.act t (fun d n => tgStop d n tg))

end Sys2Proof.Machine
end

