-- ==== Sys2Proof/Machine/CmdUpdate.lean ====
section
/-!
DEFINITION. Keys and update (chapters 17 and 18): one meaning for each command, over the operations of its block.
-/

namespace Sys2Proof.Machine

/-- KEY_TABLE_UPDATE (R385). -/
def execKeyTableUpdate (t : Nat) (upTo : Nat) (s : State) : Host.Outcome State Fault Refusal :=
  .next (s.act t (fun d n => keyTableUpdate d n upTo))

/-- KEY_REMASK (R387). -/
def execKeyRemask (t : Nat) (s : State) : Host.Outcome State Fault Refusal :=
  .next (s.act t (fun d n => keyRemask d n))

/-- KEY_RAM_CHECK_FAIL (R386). -/
def execKeyRamCheckFail (t : Nat) (e : KeyEntry) (both : Bool) (s : State) : Host.Outcome State Fault Refusal :=
  .next (s.act t (fun d n => keyRamFail d n e both))

/-- DOWNLOAD_TIMEOUT (R410). -/
def execDownloadTimeout (t : Nat) (id : Nat) (s : State) : Host.Outcome State Fault Refusal :=
  .next (s.act t (fun d n => downloadTimeout d n id))

/-- FLASH_ERASE_DONE (R408). -/
def execFlashEraseDone (t : Nat) (addr : Nat) (s : State) : Host.Outcome State Fault Refusal :=
  .next (s.act t (fun d _ => flashEraseDone d addr))

/-- IMAGE_VERIFY_DONE (R411). -/
def execImageVerifyDone (t : Nat) (s : State) : Host.Outcome State Fault Refusal :=
  .next (s.act t (fun d n => imageVerifyDone d n))

/-- BOOT_RECORD_WRITTEN (R412). -/
def execBootRecordWritten (t : Nat) (upTo : Nat) (s : State) : Host.Outcome State Fault Refusal :=
  .next (s.act t (fun d n => bootRecordWritten d n upTo))

/-- CHANGEOVER_READY (R416). -/
def execChangeoverReady (t : Nat) (s : State) : Host.Outcome State Fault Refusal :=
  .next (s.act t (fun d n => changeoverReady d n))

/-- CHANGEOVER_ABANDON (R418). -/
def execChangeoverAbandon (t : Nat) (s : State) : Host.Outcome State Fault Refusal :=
  .next (s.act t (fun d _ => changeoverAbandon d))

/-- TRIAL_CONFIRM (R419). -/
def execTrialConfirm (t : Nat) (s : State) : Host.Outcome State Fault Refusal :=
  .next (s.act t (fun d n => trialConfirm d n))

/-- CONFIRM_TIMEOUT (R420). -/
def execConfirmTimeout (t : Nat) (s : State) : Host.Outcome State Fault Refusal :=
  .next (s.act t (fun d n => confirmTimeout d n))

/-- TRIAL_PAIR_FAULT (R421). -/
def execTrialPairFault (t : Nat) (fault : Nat) (s : State) : Host.Outcome State Fault Refusal :=
  .next (s.act t (fun d n => trialPairFault d n fault))

end Sys2Proof.Machine
end

