-- ==== Sys2Proof/Machine/CmdVideo.lean ====
section
/-!
DEFINITION. Receive ports, the runner and transmit ports (chapters 5 and 6): one meaning for each command, over the operations of its block.
-/

namespace Sys2Proof.Machine

/-- RX_CLOCK_HS_ENTRY (R99). -/
def execRxClockHsEntry (t : Nat) (port : Nat) (inverted : Bool) (s : State) : Host.Outcome State Fault Refusal :=
  .next (s.act t (fun d n => rxClockHs d n port inverted))

/-- RX_RATE_MEASURED (R99). -/
def execRxRateMeasured (t : Nat) (port kbps : Nat) (s : State) : Host.Outcome State Fault Refusal :=
  .next (s.act t (fun d n => rxRate d n port kbps))

/-- RX_TRAINING_DONE (R100). -/
def execRxTrainingDone (t : Nat) (port pins inverted : Nat) (found : TrainedIn) (s : State) : Host.Outcome State Fault Refusal :=
  .next (s.act t (fun d n => rxTrained d n port pins inverted found.codes found.burst))

/-- RX_DESKEW_TIMEOUT (R100). -/
def execRxDeskewTimeout (t : Nat) (port : Nat) (s : State) : Host.Outcome State Fault Refusal :=
  .next (s.act t (fun d n => rxDeskewTimeout d n port))

/-- RX_LANE_ORDER_FOUND (R101). -/
def execRxLaneOrderFound (t : Nat) (port order : Nat) (s : State) : Host.Outcome State Fault Refusal :=
  .next (s.act t (fun d n => rxOrderFound d n port order))

/-- RX_MAP_FAILURE (R101). -/
def execRxMapFailure (t : Nat) (port : Nat) (s : State) : Host.Outcome State Fault Refusal :=
  .next (s.act t (fun d n => rxMapFailure d n port))

/-- RX_MAP_RETRY_TIMEOUT (R101). -/
def execRxMapRetryTimeout (t : Nat) (port : Nat) (s : State) : Host.Outcome State Fault Refusal :=
  .next (s.act t (fun d n => rxMapRetry d n port))

/-- RX_CLOCK_LANE_LOSS (R104). -/
def execRxClockLaneLoss (t : Nat) (port lineState : Nat) (s : State) : Host.Outcome State Fault Refusal :=
  .next (s.act t (fun d n => rxClockLoss d n port lineState))

/-- RX_DATA_LANE_DROPOUT (R104). -/
def execRxDataLaneDropout (t : Nat) (port lane : Nat) (s : State) : Host.Outcome State Fault Refusal :=
  .next (s.act t (fun d n => rxDropout d n port lane))

/-- RX_DATA_LANE_PERSISTENT_LOSS (R104). -/
def execRxDataLanePersistentLoss (t : Nat) (port lane : Nat) (s : State) : Host.Outcome State Fault Refusal :=
  .next (s.act t (fun d n => rxPersistent d n port lane))

/-- RX_LANE_ULPS_ENTRY (R105). -/
def execRxLaneUlpsEntry (t : Nat) (port lane : Nat) (s : State) : Host.Outcome State Fault Refusal :=
  .next (s.act t (fun d n => rxUlps d n port lane))

/-- RX_LANE_WAKE (R105). -/
def execRxLaneWake (t : Nat) (port lane : Nat) (s : State) : Host.Outcome State Fault Refusal :=
  .next (s.act t (fun d n => rxWake d n port lane))

/-- CTLE_ADAPT (R102). -/
def execCtleAdapt (t : Nat) (port lane : Nat) (up : Bool) (s : State) : Host.Outcome State Fault Refusal :=
  .next (s.act t (fun d n => ctleAdapt d n port lane up))

/-- PACKET_RECEIVE (R107). -/
def execPacketReceive (t : Nat) (port : Nat) (u : RxUnit) (s : State) : Host.Outcome State Fault Refusal :=
  .next (s.actMem t (fun x n => packetReceive x n port u))

/-- FE_TIMEOUT (R135). -/
def execFeTimeout (t : Nat) (output vc : Nat) (s : State) : Host.Outcome State Fault Refusal :=
  .next (s.act t (fun d n => feTimeout d n output vc))

/-- TX_STOP_DONE (R114). -/
def execTxStopDone (t : Nat) (port : Nat) (s : State) : Host.Outcome State Fault Refusal :=
  .next (s.act t (fun d n => txStopDone d n port))

/-- TX_DESKEW_DONE (R114). -/
def execTxDeskewDone (t : Nat) (port : Nat) (s : State) : Host.Outcome State Fault Refusal :=
  .next (s.act t (fun d n => deskewDone d n port))

/-- TX_ULPS_TIMEOUT (R106). -/
def execTxUlpsTimeout (t : Nat) (port : Nat) (s : State) : Host.Outcome State Fault Refusal :=
  .next (s.act t (fun d n => txUlpsTimeout d n port))

/-- TX_WAKE_DONE (R106). -/
def execTxWakeDone (t : Nat) (port : Nat) (s : State) : Host.Outcome State Fault Refusal :=
  .next (s.act t (fun d n => txWakeDone d n port))

end Sys2Proof.Machine
end

