-- ==== Sys2Proof/Machine/Dispatch.lean ====
section
/-!
DEFINITION. The dispatch: one arm per command, each a direct call of its meaning.
-/

namespace Sys2Proof.Machine

/-- The effect of a command on everything but the queue. -/
def exec (i : Instr) (s : State) : Host.Outcome State Fault Refusal :=
  match i with
  | .heatBoundary b => Sys2Proof.Machine.execHeatBoundary b s
  | .hardWindow t h => Sys2Proof.Machine.execHardWindow t h s
  | .messageWindow t limit slow cycles => Sys2Proof.Machine.execMessageWindow t limit slow cycles s
  | .backgroundWindow t => Sys2Proof.Machine.execBackgroundWindow t s
  | .messageArrival t r b => Sys2Proof.Machine.execMessageArrival t r b s
  | .ethFrameReceive t port f => Sys2Proof.Machine.execEthFrameReceive t port f s
  | .fragTimeout t port => Sys2Proof.Machine.execFragTimeout t port s
  | .ethLinkChange t port up fast => Sys2Proof.Machine.execEthLinkChange t port up fast s
  | .canFrameReceive t ctl ident data => Sys2Proof.Machine.execCanFrameReceive t ctl ident data s
  | .canSegTimeout t ctl node => Sys2Proof.Machine.execCanSegTimeout t ctl node s
  | .canStateChange t ctl st tec => Sys2Proof.Machine.execCanStateChange t ctl st tec s
  | .announce t => Sys2Proof.Machine.execAnnounce t s
  | .handshakeTimeout t slot => Sys2Proof.Machine.execHandshakeTimeout t slot s
  | .sessionIdleTimeout t slot => Sys2Proof.Machine.execSessionIdleTimeout t slot s
  | .eventResendTimeout t slot => Sys2Proof.Machine.execEventResendTimeout t slot s
  | .leaseLapse t kind idx => Sys2Proof.Machine.execLeaseLapse t kind idx s
  | .xferComplete t ctl r => Sys2Proof.Machine.execXferComplete t ctl r s
  | .i3cIbi t ctl addr payload => Sys2Proof.Machine.execI3cIbi t ctl addr payload s
  | .consistencyCheckDone t slow => Sys2Proof.Machine.execConsistencyCheckDone t slow s
  | .commitEffective t => Sys2Proof.Machine.execCommitEffective t s
  | .rxClockHsEntry t port inverted => Sys2Proof.Machine.execRxClockHsEntry t port inverted s
  | .rxRateMeasured t port kbps => Sys2Proof.Machine.execRxRateMeasured t port kbps s
  | .rxTrainingDone t port pins inverted found => Sys2Proof.Machine.execRxTrainingDone t port pins inverted found s
  | .rxDeskewTimeout t port => Sys2Proof.Machine.execRxDeskewTimeout t port s
  | .rxLaneOrderFound t port order => Sys2Proof.Machine.execRxLaneOrderFound t port order s
  | .rxMapFailure t port => Sys2Proof.Machine.execRxMapFailure t port s
  | .rxClockLaneLoss t port lineState => Sys2Proof.Machine.execRxClockLaneLoss t port lineState s
  | .rxDataLaneDropout t port lane => Sys2Proof.Machine.execRxDataLaneDropout t port lane s
  | .rxDataLanePersistentLoss t port lane => Sys2Proof.Machine.execRxDataLanePersistentLoss t port lane s
  | .rxLaneUlpsEntry t port lane => Sys2Proof.Machine.execRxLaneUlpsEntry t port lane s
  | .rxLaneWake t port lane => Sys2Proof.Machine.execRxLaneWake t port lane s
  | .ctleAdapt t port lane up => Sys2Proof.Machine.execCtleAdapt t port lane up s
  | .packetReceive t port u => Sys2Proof.Machine.execPacketReceive t port u s
  | .feTimeout t output vc => Sys2Proof.Machine.execFeTimeout t output vc s
  | .txStopDone t port => Sys2Proof.Machine.execTxStopDone t port s
  | .txDeskewDone t port => Sys2Proof.Machine.execTxDeskewDone t port s
  | .txUlpsTimeout t port => Sys2Proof.Machine.execTxUlpsTimeout t port s
  | .txWakeDone t port => Sys2Proof.Machine.execTxWakeDone t port s
  | .pour t tg torn => Sys2Proof.Machine.execPour t tg torn s
  | .latchLine t tg => Sys2Proof.Machine.execLatchLine t tg s
  | .testLine t tg => Sys2Proof.Machine.execTestLine t tg s
  | .reseatHoldStart t tg => Sys2Proof.Machine.execReseatHoldStart t tg s
  | .reseatRestart t tg => Sys2Proof.Machine.execReseatRestart t tg s
  | .tgStop t tg => Sys2Proof.Machine.execTgStop t tg s
  | .glideEnd t ladle => Sys2Proof.Machine.execGlideEnd t ladle s
  | .riserUnderrun t mould layer line x => Sys2Proof.Machine.execRiserUnderrun t mould layer line x s
  | .sprueDrainComplete t sprue => Sys2Proof.Machine.execSprueDrainComplete t sprue s
  | .replayFrameStart t reader r => Sys2Proof.Machine.execReplayFrameStart t reader r s
  | .uploadWritten t => Sys2Proof.Machine.execUploadWritten t s
  | .uploadTimeout t handle slot => Sys2Proof.Machine.execUploadTimeout t handle slot s
  | .granuleCleared t bank granule => Sys2Proof.Machine.execGranuleCleared t bank granule s
  | .eccError t bank granule group double => Sys2Proof.Machine.execEccError t bank granule group double s
  | .scrubPass t => Sys2Proof.Machine.execScrubPass t s
  | .ingotBuildDone t mould => Sys2Proof.Machine.execIngotBuildDone t mould s
  | .checkWindowResult t inst => Sys2Proof.Machine.execCheckWindowResult t inst s
  | .learnComplete t mould => Sys2Proof.Machine.execLearnComplete t mould s
  | .reverseInDebounce t level => Sys2Proof.Machine.execReverseInDebounce t level s
  | .bandSearchDone t cupola band => Sys2Proof.Machine.execBandSearchDone t cupola band s
  | .cupolaLock t cupola code => Sys2Proof.Machine.execCupolaLock t cupola code s
  | .cupolaLockTimeout t cupola => Sys2Proof.Machine.execCupolaLockTimeout t cupola s
  | .cupolaLossOfLock t cupola err => Sys2Proof.Machine.execCupolaLossOfLock t cupola err s
  | .referenceGlitch t => Sys2Proof.Machine.execReferenceGlitch t s
  | .flywheelRecover t => Sys2Proof.Machine.execFlywheelRecover t s
  | .referenceLoss t cause => Sys2Proof.Machine.execReferenceLoss t cause s
  | .holdoverLimit t => Sys2Proof.Machine.execHoldoverLimit t s
  | .referenceRequalified t e => Sys2Proof.Machine.execReferenceRequalified t e s
  | .ladleRecentre t ladle => Sys2Proof.Machine.execLadleRecentre t ladle s
  | .ladleRotatorFault t ladle => Sys2Proof.Machine.execLadleRotatorFault t ladle s
  | .pairSyncPulse t offset phases => Sys2Proof.Machine.execPairSyncPulse t offset phases s
  | .pairSyncMissing t => Sys2Proof.Machine.execPairSyncMissing t s
  | .fsyncPulse t output => Sys2Proof.Machine.execFsyncPulse t output s
  | .sapFsyncEdge t port clocks slots => Sys2Proof.Machine.execSapFsyncEdge t port clocks slots s
  | .sapClockStop t port => Sys2Proof.Machine.execSapClockStop t port s
  | .sapClockResume t port => Sys2Proof.Machine.execSapClockResume t port s
  | .slotMaskApply t port => Sys2Proof.Machine.execSlotMaskApply t port s
  | .queuePointerMismatch t kind at_ => Sys2Proof.Machine.execQueuePointerMismatch t kind at_ s
  | .pdmStuck t inst mic level => Sys2Proof.Machine.execPdmStuck t inst mic level s
  | .tundishHold t inst outOfRange => Sys2Proof.Machine.execTundishHold t inst outOfRange s
  | .audioPacketSend t inst => Sys2Proof.Machine.execAudioPacketSend t inst s
  | .morStageComplete t inverted map skew ctle eye => Sys2Proof.Machine.execMorStageComplete t inverted map skew ctle eye s
  | .morStageTimeout t cause lane => Sys2Proof.Machine.execMorStageTimeout t cause lane s
  | .train t lane state req pre post ask => Sys2Proof.Machine.execTrain t lane state req pre post ask s
  | .linkstat t state => Sys2Proof.Machine.execLinkstat t state s
  | .morLinkLoss t cause lane => Sys2Proof.Machine.execMorLinkLoss t cause lane s
  | .slumber t => Sys2Proof.Machine.execSlumber t s
  | .wake t => Sys2Proof.Machine.execWake t s
  | .morFrameReceive t f good full parity => Sys2Proof.Machine.execMorFrameReceive t f good full parity s
  | .morControlUnknown t typ => Sys2Proof.Machine.execMorControlUnknown t typ s
  | .ack t seq nak => Sys2Proof.Machine.execAck t seq nak s
  | .morResendTimeout t => Sys2Proof.Machine.execMorResendTimeout t s
  | .heartbeat t j => Sys2Proof.Machine.execHeartbeat t j s
  | .snapReq t j => Sys2Proof.Machine.execSnapReq t j s
  | .snapshotApply t => Sys2Proof.Machine.execSnapshotApply t s
  | .pairAliveInEdge t => Sys2Proof.Machine.execPairAliveInEdge t s
  | .pairAliveInLost t => Sys2Proof.Machine.execPairAliveInLost t s
  | .heartbeatLost t => Sys2Proof.Machine.execHeartbeatLost t s
  | .aliveWatchdogExpiry t => Sys2Proof.Machine.execAliveWatchdogExpiry t s
  | .takeoverDetect t => Sys2Proof.Machine.execTakeoverDetect t s
  | .ownOutSwitch t => Sys2Proof.Machine.execOwnOutSwitch t s
  | .yield t j => Sys2Proof.Machine.execYield t j s
  | .pairBootWaitEnd t => Sys2Proof.Machine.execPairBootWaitEnd t s
  | .imageInfo t j => Sys2Proof.Machine.execImageInfo t j s
  | .ladleSync t j => Sys2Proof.Machine.execLadleSync t j s
  | .relock t j => Sys2Proof.Machine.execRelock t j s
  | .pairKey t j => Sys2Proof.Machine.execPairKey t j s
  | .keyTableUpdate t upTo => Sys2Proof.Machine.execKeyTableUpdate t upTo s
  | .keyRemask t => Sys2Proof.Machine.execKeyRemask t s
  | .keyRamCheckFail t e both => Sys2Proof.Machine.execKeyRamCheckFail t e both s
  | .downloadTimeout t id => Sys2Proof.Machine.execDownloadTimeout t id s
  | .changeoverReady t => Sys2Proof.Machine.execChangeoverReady t s
  | .changeoverAbandon t => Sys2Proof.Machine.execChangeoverAbandon t s
  | .trialConfirm t => Sys2Proof.Machine.execTrialConfirm t s
  | .confirmTimeout t => Sys2Proof.Machine.execConfirmTimeout t s
  | .trialPairFault t fault => Sys2Proof.Machine.execTrialPairFault t fault s
  | .resetNAssert t cause => Sys2Proof.Machine.execResetNAssert t cause s
  | .resetNRelease t b => Sys2Proof.Machine.execResetNRelease t b s
  | .firstPourAfterBoot t => Sys2Proof.Machine.execFirstPourAfterBoot t s
  | .bootRetry t b => Sys2Proof.Machine.execBootRetry t b s
  | .scriptComplete t script fail => Sys2Proof.Machine.execScriptComplete t script fail s
  | .bankIdleTimeout t => Sys2Proof.Machine.execBankIdleTimeout t s
  | .bankedEntryComplete t => Sys2Proof.Machine.execBankedEntryComplete t s
  | .wakeEvent t source ident => Sys2Proof.Machine.execWakeEvent t source ident s
  | .wakeComplete t => Sys2Proof.Machine.execWakeComplete t s
  | .voltageDroop t droop => Sys2Proof.Machine.execVoltageDroop t droop s
  | .shedStep t => Sys2Proof.Machine.execShedStep t s
  | .txDriverFault t port lane => Sys2Proof.Machine.execTxDriverFault t port lane s
  | .railFault t level => Sys2Proof.Machine.execRailFault t level s
  | .controllerFault t fault => Sys2Proof.Machine.execControllerFault t fault s
  | .warmRestartReady t adopted => Sys2Proof.Machine.execWarmRestartReady t adopted s
  | .idlePairSelftest t pass => Sys2Proof.Machine.execIdlePairSelftest t pass s
  | .rxMapRetryTimeout t port => Sys2Proof.Machine.execRxMapRetryTimeout t port s
  | .morTrainingDeadline t => Sys2Proof.Machine.execMorTrainingDeadline t s
  | .morSlumberReceive t => Sys2Proof.Machine.execMorSlumberReceive t s
  | .morWakeReceive t => Sys2Proof.Machine.execMorWakeReceive t s
  | .flaskRiserEccError t mould layer line x => Sys2Proof.Machine.execFlaskRiserEccError t mould layer line x s
  | .flashEraseDone t addr => Sys2Proof.Machine.execFlashEraseDone t addr s
  | .imageVerifyDone t => Sys2Proof.Machine.execImageVerifyDone t s
  | .bootRecordWritten t upTo => Sys2Proof.Machine.execBootRecordWritten t upTo s
  | .haltedPairSelftestDone t pass => Sys2Proof.Machine.execHaltedPairSelftestDone t pass s
  | .txMonitorClear t port => Sys2Proof.Machine.execTxMonitorClear t port s
  | .ladleProfileLoopEnd t ladle => Sys2Proof.Machine.execLadleProfileLoopEnd t ladle s
  | .vddAonPowerUp t => Sys2Proof.Machine.execVddAonPowerUp t s
  | .pwrEnDelayEnd t => Sys2Proof.Machine.execPwrEnDelayEnd t s

end Sys2Proof.Machine
end

