-- ==== Sys2Proof/Safety.lean ====
section
/-!
DEFINITION. What a claim about the block means by a good state and by a quiet device: the crucible RAM in its canonical form and
well-formed commands in the queue; nothing that follows a command on its own account.
-/

namespace Sys2Proof.Machine

/-- The device is calm: nothing waits that would follow the next command whatever that command is (`settle`): no Morcel frame newly
queued, no fault to inject (R465), no restart asked for, no yield owed after a fault (R459), no table update that could start now
(R383), and no journal of decisions (R357). -/
abbrev Dev.Calm (d : Dev) : Prop :=
  d.mor.fresh = false ∧ d.flt.inject = none ∧ d.pwr.restart = none ∧
  (d.pair.forcedLow && d.pair.role == .active && d.pair.yieldTo.isNone && d.flt.halted.isNone) = false ∧
  (d.key.update.isSome = true ∨ d.upd.seals = []) ∧ d.journals = false

/-- What of the device decides whether anything follows a command: while a command leaves it as it was, a calm device stays so. -/
def Dev.echo (d : Dev) : Bool × Bool × Option (Nat × Nat) × Option Nat × Option (Nat × Nat) × Bool × List AfterUpdate × Bool × Role × Bool × Bool ×
    Bool × Bool × Option Nat × Bool :=
  (d.mor.fresh, d.mor.up, d.flt.inject, d.flt.halted, d.pwr.restart, d.key.update.isSome, d.upd.seals, d.pair.forcedLow, d.pair.role,
    d.pair.yieldTo.isNone, d.pair.ownOut, d.pair.mirrored, d.pair.captured.isSome, d.clk.ref.relockAt, d.pairOn)

/-- A safe state: the crucible RAM is in its canonical form and inside the crucible. -/
abbrev State.Safe (s : State) : Prop := Mem.wf s.mem = true

/-- Every waiting command is well formed. -/
abbrev State.QueueWf (s : State) : Prop := ∀ c ∈ s.pending, c.wf = true

/-- The command `c`, given at core cycle `t`, answers a next state in which the device is `d` and, of the rest, only the instant is new. -/
abbrev Answers (s : State) (c : Instr) (t : Nat) (d : Dev) : Prop :=
  exec c s = .next { s with
    tb := ⟨s.tb.heat, BitVec.ofNat 17 t⟩, dev := d, ckpt := if d.upd.resident then s.ckpt else none }

/-- The same for a command that leaves the crucible RAM as `m`. -/
abbrev AnswersRam (s : State) (c : Instr) (t : Nat) (d : Dev) (m : Mem) : Prop :=
  exec c s = .next { s with
    tb := ⟨s.tb.heat, BitVec.ofNat 17 t⟩, mem := m, dev := d, ckpt := if d.upd.resident then s.ckpt else none }

/-- The command `c` answers a next state of which `P` holds. -/
abbrev Reaches (s : State) (c : Instr) (P : State → Prop) : Prop := ∃ u, exec c s = .next u ∧ P u

end Sys2Proof.Machine
end

