-- ==== Sys2Proof/Certificates/Slice0/Obligations.lean ====
section
/-!
DEFINITION. The statements about the hub for the provers. `s` is any state, `t` the core cycle at which a command comes, `s.now t` that
instant, and `s.dm.dev` the device with nothing yet on its outputs. A statement says of a calm device (`Dev.Calm`) what the command in
hand does; `Answers` gives the whole next state, so that what it does not change is stated with it.
-/

section

open Sys2Proof Sys2Proof.Machine

/-! ## The block as a whole -/

/-- A step takes the command at the front of the queue and is that command's effect on the state with the rest of the queue. -/
def Obligations.StepRunsTheFirstWaitingCommand : Prop :=
  ∀ (s : State) (c : Instr) (rest : List Instr), s.pending = c :: rest → step s = exec c { s with pending := rest }

/-- Every command answers a next state, and none of them touches the queue of the commands that wait behind it. -/
def Obligations.EveryCommandCompletesAndKeepsTheQueue : Prop :=
  ∀ (c : Instr) (s : State), Reaches s c (fun u => u.pending = s.pending)

/-- Reset: no time has passed, nothing waits, no byte of the crucible is listed, no session, lease, commit or buffer exists, every port,
generator and clock is off, no fault is active, every parameter has its reset value and FAULT_N's register shows no fault. Boot as the
mode of a device whose ROM has not run yet is the model's reading (log entry 41). -/
def Obligations.ResetLeavesTheTableValues : Prop :=
  State.reset.pending = [] ∧ State.reset.tb = ⟨0, 0⟩ ∧ State.reset.mem = [] ∧ State.reset.dev.pwr.mode = .boot ∧
  (∀ i, State.reset.dev.slot i = {}) ∧ State.reset.dev.ctl.leases = [] ∧ State.reset.dev.txn.commits = [] ∧ State.reset.dev.cru.bufs = [] ∧
  (∀ i, (State.reset.dev.rxp i).state = .off) ∧ (∀ i, (State.reset.dev.txp i).state = .off) ∧
  (∀ g, (State.reset.dev.tgen g).state = .stopped) ∧ (∀ k, (State.reset.dev.cup k).state = .off) ∧
  (∀ k, State.reset.dev.flt.isActive k = false) ∧ State.reset.dev.pair.ownOut = false ∧
  (∀ id i, State.reset.dev.par.committed.val id i = resetVal id i)

/-- The crucible RAM after reset is in its canonical form. -/
def Obligations.ResetRamIsCanonical : Prop := State.reset.Safe

/-- The crucible RAM stays in its canonical form: addresses strictly rising and inside the 64 MiB, no byte listed that reads as an
unlisted one, whatever command a step runs. -/
def Obligations.StepKeepsTheRamCanonical : Prop := ∀ (s u : State), s.Safe → step s = .next u → u.Safe

/-- R39 and Table 3.1: a message of at most 4,096 bytes of payload whose fields fit their places is read back from its own bytes, with
its tag exactly when FLAGS[1] is set. -/
def Obligations.JorekEncodingIsReadBack : Prop :=
  ∀ (j : Jorek), j.version < 256 → j.typ < 65536 → j.session < 65536 → j.seq < 4294967296 → j.flags < 65536 →
    j.payload.length ≤ 4096 → j.tag.length = (if bit j.flags 1 then 8 else 0) →
    Jorek.parse j.encode = some j ∧ j.encode.length = 16 + j.payload.length + j.tag.length

/-- R64: an event that arrives for a session whose queue of 64 is full and wants it is absorbed by the first unsent entry of the same code
and instance, whose count goes up and whose detail is replaced while its time stays; where there is none, it is dropped, and LOST and
`ctl.lost_event_count` go up. Entries already sent never change. -/
def Obligations.FullEventQueueAbsorbsOrDrops : Prop :=
  ∀ (d : Dev) (n : Now) (i code inst : Nat) (det : Bytes), i < d.ctl.slots.length → (d.slot i).state = .open →
    (d.slot i).ev.wants code = true → 64 ≤ (d.slot i).ev.entries.length →
    ((d.raise n code inst det).slot i).ev.entries.length = (d.slot i).ev.entries.length ∧
    (∀ e ∈ (d.slot i).ev.entries, e.sentAt ≠ none → e ∈ ((d.raise n code inst det).slot i).ev.entries) ∧
    (∀ pre e post, (d.slot i).ev.entries = pre ++ e :: post → (∀ x ∈ pre, x.absorbs code inst = false) → e.absorbs code inst = true →
      ((d.raise n code inst det).slot i).ev = { (d.slot i).ev with
        entries := pre ++ { e with count := min (e.count + 1) 65535, coalesced := true, detail := fit 12 det } :: post }) ∧
    ((∀ e ∈ (d.slot i).ev.entries, e.absorbs code inst = false) →
      ((d.raise n code inst det).slot i).ev = { (d.slot i).ev with lost := min ((d.slot i).ev.lost + 1) 65535 } ∧
      (d.sn P.ctl_lost_event_count 0 < 2 ^ 32 - 1 → d.sn P.ctl_lost_event_count 0 < (d.raise n code inst det).sn P.ctl_lost_event_count 0))

/-- R62: an event reaches the queue of every open session that subscribes to its block and has room, under that queue's next number,
unsent, with its time, and no queue that does not want it changes. -/
def Obligations.EventsReachTheirSubscribers : Prop :=
  ∀ (d : Dev) (n : Now) (i code inst : Nat) (det : Bytes), i < d.ctl.slots.length →
    ((d.slot i).state = .open → (d.slot i).ev.wants code = true → (d.slot i).ev.entries.length < 64 →
      ((d.raise n code inst det).slot i).ev = { (d.slot i).ev with
        entries := (d.slot i).ev.entries ++ [⟨(d.slot i).ev.nextNum, code, inst, 1, false, n, fit 12 det, none⟩]
        nextNum := if (d.slot i).ev.nextNum = 0xFFFFFFFF then 1 else (d.slot i).ev.nextNum + 1 }) ∧
    (((d.slot i).state ≠ .open ∨ (d.slot i).ev.wants code = false) → (d.raise n code inst det).slot i = d.slot i)

/-- R428: the mode codes of Table 19.1; `dev.mode` reports the code, and ANNOUNCE and HEARTBEAT carry it in their MODE bytes. -/
def Obligations.ModeCodesAreThoseOfTheTable : Prop :=
  [Mode.reset, .boot, .provisioning, .autonomous, .run, .degraded, .standby, .takeover, .changeover, .banked, .maintenance, .latched].map Mode.code =
    [0, 1, 2, 3, 4, 5, 6, 7, 8, 9, 10, 11] ∧
  (∀ (d : Dev) (n : Now), d.getValue n P.dev_mode 0 = numVal d.pwr.mode.code) ∧
  (∀ (d : Dev) (n : Now) (a b c : Bool) (v w : Nat), (d.announcePayload n a b c v w).getD 3 0 = BitVec.ofNat 8 d.pwr.mode.code) ∧
  (∀ (d : Dev) (n : Now) (apply : List Nat), ∃ (p : Bytes) (f : Pair → Pair),
    p.getD 8 0 = BitVec.ofNat 8 d.pwr.mode.code ∧ d.sendHeartbeat n apply = ((d.onPair f).pairSend 0x0C01 p).chkMatch n)

/-- R305: a received slot as a 24-bit sample and a 24-bit sample as a transmitted slot, for the three slot widths; a 24-bit slot is taken
and sent as it is. -/
def Obligations.SerialSamplesAreConverted : Prop :=
  ∀ v, (v < 2 ^ 16 → slotIn 16 v = v * 256) ∧ (v < 2 ^ 24 → slotIn 24 v = v ∧ slotOut 24 v = v ∧ slotOut 32 v = v * 256) ∧
    (v < 2 ^ 32 → slotIn 32 v = v / 256) ∧
    (v < 2 ^ 24 → signed 16 (slotOut 16 v) = min ((signed 24 v + 128) / 256) 32767)

/-! ## Chapters 2 and 4: heats, windows, commits -/

/-- R24, R25: while heats run, a boundary begins the next heat at cycle 0: the heat number goes up by one, modulo 2^48, where no new
alignment sets it; while none run it is no event. -/
def Obligations.BoundaryBeginsTheNextHeat : Prop :=
  ∀ (s : State) (b : BoundaryIn),
    (s.dev.heatsRun = true → s.dev.work.step = none →
      Reaches s (.heatBoundary b) (fun u => u.tb.heat = s.tb.heat + 1 ∧ u.tb.cycle = 0 ∧ u.pending = s.pending)) ∧
    (∀ h, s.dev.heatsRun = true → s.dev.work.step = some h → h < 2 ^ 48 →
      Reaches s (.heatBoundary b) (fun u => u.tb.heat.toNat = h ∧ u.tb.cycle = 0 ∧ u.pending = s.pending)) ∧
    (s.dev.heatsRun = false → exec (.heatBoundary b) s = .next s)

/-- R31, R32: the hard window runs once in a heat while the firmware runs, and records whether its work is finished and its cycles;
otherwise it is no event. It completes so whatever it finds to do, where nothing waits that would follow any command (an injected fault, a
restart). R421: with a trial beside its resident pair it ends with a checkpoint. -/
def Obligations.HardWindowRunsOnceAHeat : Prop :=
  ∀ (s : State) (t : Nat) (h : HardIn),
    ((s.dev.heatsRun = false ∨ s.dev.fwRuns = false ∨ s.dev.work.hardDone = true) → exec (.hardWindow t h) s = .next s) ∧
    (s.dev.Calm → s.dev.heatsRun = true → s.dev.fwRuns = true → s.dev.work.hardDone = false → s.dev.pairOn = false →
        s.dev.upd.trialFlag = false → s.dev.pair.ownOut = false →
      Reaches s (.hardWindow t h) (fun u =>
        u.dev.work.hardDone = h.finished ∧ u.dev.work.workCycles = h.cycles ∧ u.dev.work.messagesDone = s.dev.work.messagesDone ∧
        u.tb.cycle = BitVec.ofNat 17 t ∧ u.tb.heat = s.tb.heat ∧ u.mem = s.mem ∧ u.pending = s.pending ∧
        u.dev.par.committed = s.dev.par.committed)) ∧
    (s.dev.flt.inject = none → s.dev.pwr.restart = none → s.dev.heatsRun = true → s.dev.fwRuns = true → s.dev.work.hardDone = false →
      Reaches s (.hardWindow t h) (fun u =>
        u.dev.work.hardDone = h.finished ∧ u.dev.work.workCycles = h.cycles ∧ u.dev.work.messagesDone = s.dev.work.messagesDone ∧
        u.tb.cycle = BitVec.ofNat 17 t ∧ u.tb.heat = s.tb.heat ∧ u.mem = s.mem ∧ u.pending = s.pending ∧
        (s.dev.upd.resident = true → s.dev.upd.trialFlag = true → u.dev.upd.resident = true → u.ckpt = some u.dev)))

/-- R31, R66: the message window comes once in a heat, after the hard window's work, and sends the replies that wait; whatever messages it
finds it is then over, unless one of them restarts the device. R225: the background window comes after both and starts the build of every
ingot that qualified before this heat, holding its constituents' slots, and no other. Neither runs while the firmware does not. That the
background window does no more is the model's choice (log entry 9). -/
def Obligations.MessageAndBackgroundWindowsRun : Prop :=
  ∀ (s : State) (t limit : Nat) (slow : Bool) (cycles : List Nat), s.dev.Calm →
    ((s.dev.fwRuns = false ∨ s.dev.work.hardDone = false ∨ s.dev.work.messagesDone = true ∨ s.dev.pwr.mode.takesMessages = false) →
      Answers s (.messageWindow t limit slow cycles) t s.dm.dev) ∧
    (s.dev.fwRuns = true → s.dev.work.hardDone = true → s.dev.work.messagesDone = false → s.dev.pwr.mode.takesMessages = true →
        s.dev.txn.paused = [] → s.dev.txn.commits = [] → s.dev.ctl.pre = [] → s.dev.integ.reports = [] → s.dev.work.deferring = false →
        (∀ i, (s.dev.slot i).inbox = [] ∧ (s.dev.slot i).ev.entries = [] ∧ (s.dev.slot i).seqOut + s.dev.ctl.held.length < seqLimit) →
      Reaches s (.messageWindow t limit slow cycles) (fun u =>
        u.dev.work = { s.dev.work with messagesDone := true } ∧ u.dev.ctl.held = [] ∧ u.mem = s.mem ∧
        u.dev.out = (s.dm.dev.sendHeld).out ∧ u.dev.par.committed = s.dev.par.committed ∧ u.dev.ctl.leases = s.dev.ctl.leases ∧
        u.dev.rx = s.dev.rx ∧ u.dev.tg = s.dev.tg)) ∧
    (s.dev.fwRuns = true → s.dev.work.hardDone = true → s.dev.work.messagesDone = false → s.dev.pwr.mode.takesMessages = true →
      Reaches s (.messageWindow t limit slow cycles) (fun u =>
        (u.dev.work.messagesDone = true ∨ u.dev.pwr.mode = .reset) ∧ u.tb.heat = s.tb.heat ∧ u.tb.cycle = BitVec.ofNat 17 t ∧
        u.pending = s.pending)) ∧
    ((s.dev.fwRuns = false ∨ s.dev.work.hardDone = false ∨ (s.dev.work.messagesDone = false ∧ s.dev.pwr.mode.takesMessages = true)) →
      Answers s (.backgroundWindow t) t s.dm.dev) ∧
    (s.dev.backgroundTime = true →
      Reaches s (.backgroundWindow t) (fun u =>
        (∀ m, m < s.dev.nMould →
          (((s.dev.mould m).ingot.state = .ready ∧ (s.dev.mould m).ingot.since < s.tb.heat.toNat) →
            (u.dev.mould m).ingot.state = .building ∧ (u.dev.mould m).ingot.set = (s.dev.mould m).ingot.set) ∧
          (¬((s.dev.mould m).ingot.state = .ready ∧ (s.dev.mould m).ingot.since < s.tb.heat.toNat) → u.dev.mould m = s.dev.mould m)) ∧
        u.mem = s.mem ∧ u.dev.par = s.dev.par ∧ u.dev.rx = s.dev.rx ∧ u.dev.tx = s.dev.tx ∧ u.dev.tg = s.dev.tg ∧ u.dev.ctl = s.dev.ctl)) ∧
    (∀ m, s.dev.backgroundTime = true → m < s.dev.nMould → (s.dev.mould m).ingot.state = .ready → (s.dev.mould m).ingot.since < s.tb.heat.toNat →
      Reaches s (.backgroundWindow t) (fun u =>
        (u.dev.mould m).ingot.state = .building ∧ (u.dev.mould m).ingot.spoiled = false ∧
        (u.dev.mould m).ingot.set = (s.dev.mould m).ingot.set ∧ u.mem = s.mem ∧ u.dev.par.committed = s.dev.par.committed ∧
        u.dev.rx = s.dev.rx ∧ u.dev.tg = s.dev.tg))

/-- R83, R84: a check that completes in a message window is no longer paused; where it fails it is answered with its code and the failures
and nothing is accepted; a CHECK that passes is answered with its prediction; a COMMIT that passes, or a SET of a value that waits for a
boundary, becomes the last of the Pending commits. That the check may end at once is the model's choice (log entry 18). -/
def Obligations.ConsistencyCheckAcceptsOrRejects : Prop :=
  ∀ (s : State) (t : Nat) (slow : Bool) (j : CheckJob) (rest : List CheckJob), s.dev.Calm → s.dev.txn.paused = j :: rest →
    s.dev.fwRuns = true → s.dev.work.hardDone = true → s.dev.work.messagesDone = false → s.dev.pwr.mode.takesMessages = true →
    (let d : Dev := { s.dm.dev with txn := { s.dev.txn with paused := rest } }
     let r := d.checkNow (s.now t) slow j
     (r.status ≠ 0 → Answers s (.consistencyCheckDone t slow) t (d.reply j.msg r.status (if j.learn.isSome then [] else j.rejection r))) ∧
     (r.status = 0 → j.isCheck = true → Answers s (.consistencyCheckDone t slow) t (d.reply j.msg 0 (j.prediction r))) ∧
     (r.status = 0 → j.isCheck = false → (j.isSet = false ∨ ∃ e ∈ j.entries, takesOf e.id ≠ .immediate) →
       Reaches s (.consistencyCheckDone t slow) (fun u =>
         (∃ c, u.dev.txn.commits = s.dev.txn.commits ++ [c] ∧ c.state = .pending ∧ c.entries = j.entries ∧ c.acc = s.dev.txn.nextAcc ∧
           c.session = j.session) ∧
         u.dev.txn.nextAcc = s.dev.txn.nextAcc + 1 ∧ u.dev.txn.paused.length = rest.length ∧
         u.dev.par.committed = s.dev.par.committed ∧ u.dev.par.live = s.dev.par.live ∧ u.mem = s.mem)))

/-- R89, R11: at its boundary a commit that is ready writes its entries, which GET then returns, and every other committed value is as it
was; a boot-class value waits for the next start instead. The commit is then Applied, with its replies to come; those that are not due
stay as they are. -/
def Obligations.CommitWritesItsEntry : Prop :=
  ∀ (s : State) (t : Nat) (pre post : List Commit) (c : Commit), s.dev.Calm → (∀ x ∈ s.dev.ctl.expiries, s.tb.heat.toNat < x.due) →
    s.dev.txn.commits = pre ++ c :: post → (∀ x ∈ pre ++ post, x.acc ≠ c.acc ∧ x.jseq = none ∧ (x.state ≠ .pending ∨ s.tb.heat.toNat < x.eff)) →
    c.state = .pending → c.eff ≤ s.tb.heat.toNat → c.shadow = true → c.recheck = false → c.jseq = none → c.slot < 32 →
    (∀ e ∈ c.entries, takesOf e.id ≠ .immediate ∧ e.id ≠ P.pair_enable ∧ e.id ≠ P.pair_mor_enable) →
    Reaches s (.commitEffective t) (fun u =>
      u.dev.par.committed = s.dev.par.committed.write (c.entries.filter (fun e => takesOf e.id != .boot)) ∧
      u.dev.par.bootPending = s.dev.par.bootPending.write (c.entries.filter (fun e => takesOf e.id == .boot)) ∧
      (∃ c', u.dev.txn.commits = pre ++ c' :: post ∧ c'.state = .applied ∧ c'.acc = c.acc ∧ c'.entries = c.entries ∧ c'.eff = s.tb.heat.toNat) ∧
      u.mem = s.mem ∧ u.pending = s.pending)
/-! ## Chapter 5: video ports -/

/-- R99: the clock lane's HS entry takes a receive port from Wait to Clock, and the measured rate from Clock to Train, with 0x040C exactly
when the rate is off by more than 2 %. R101: after a map failure on a continuous clock, Wait is left for Clock 1 ms later. R100: without
the burst it requires, a port in Train gives up waiting for it 1 ms after it left Wait and says so. R98: a clock polarity that is not detected is
that of `rxp.polarity` bit 4; an entry in the other is no HS entry. -/
def Obligations.RxBringUpLeavesWaitAndClock : Prop :=
  ∀ (s : State) (t i : Nat), s.dev.Calm →
    (∀ inv, bit (s.dev.cn P.rxp_polarity i) 9 = true ∨ bit (s.dev.cn P.rxp_polarity i) 4 = inv →
      ((s.dev.rxp i).state = .wait →
        Answers s (.rxClockHsEntry t i inv) t (s.dm.dev.onRx i (fun r =>
          { r with state := .clock, since := (s.now t).abs, clockAt := (s.now t).abs, clockHs := true, clockInv := inv, mapFailed := false }))) ∧
      ((s.dev.rxp i).state ≠ .wait →
        Answers s (.rxClockHsEntry t i inv) t (s.dm.dev.onRx i (fun r => { r with clockHs := true })))) ∧
    (∀ inv, bit (s.dev.cn P.rxp_polarity i) 9 = false → bit (s.dev.cn P.rxp_polarity i) 4 ≠ inv →
      Answers s (.rxClockHsEntry t i inv) t s.dm.dev) ∧
    (∀ kbps, (s.dev.rxp i).state = .clock →
      let d := s.dm.dev.onRx i (fun r => { r with
        state := .train, since := (s.now t).abs, rate := kbps, settle := s.dev.cn P.rxp_t_settle i
        lanes := r.lanes.map (fun l => { l with ctle := bits (s.dev.cn P.rxp_eq i) 4 4, phase := none }) })
      Answers s (.rxRateMeasured t i kbps) t
        (if rateOff kbps (s.dev.cn P.rxp_rate_kbps i) then d.raise (s.now t) 0x040C i (leBytes 4 kbps) else d)) ∧
    ((s.dev.rxp i).state = .wait → (s.dev.rxp i).mapFailed = true → (s.dev.rxp i).clockHs = true →
        (s.dev.rxp i).since + msCycles ≤ (s.now t).abs →
      Answers s (.rxMapRetryTimeout t i) t (s.dm.dev.onRx i (fun r =>
        { r with state := .clock, since := (s.now t).abs, clockAt := (s.now t).abs, mapFailed := false }))) ∧
    ((s.dev.rxp i).state = .train → (s.dev.rxp i).noBurst = false →
        deskewRequired (s.dev.cn P.rxp_deskew i) (s.dev.rxp i).rate = true → (s.dev.rxp i).clockAt + msCycles ≤ (s.now t).abs →
      Answers s (.rxDeskewTimeout t i) t ((s.dm.dev.onRx i (fun r => { r with noBurst := true })).raise (s.now t) 0x0404 i [3, 1]))

/-- R100, R101: training ends, on the burst found or where none is needed, in Map with the phases, codes and polarities it found when the lane
order is to be detected, and passes on to Up when it is fixed and every active lane was seen; an order found for the right number of active
pins brings the port to Up, with 0x0401 and 0x0403; a failure sends it back to Wait with 0x0404 and its cause. -/
def Obligations.RxTrainingAndLaneOrder : Prop :=
  ∀ (s : State) (t i : Nat), s.dev.Calm →
    (∀ pins inv codes burst, (s.dev.rxp i).state = .train →
        (burst ≠ none ∨ (s.dev.rxp i).noBurst = true ∨ deskewRequired (s.dev.cn P.rxp_deskew i) (s.dev.rxp i).rate = false) →
      let seen := pinsDecoded (s.dev.cn P.rxp_polarity i) pins inv
      let lanes := (List.range 5).map (fun k => ((s.dev.rxp i).lanes.getD k {}).trained (s.dev.cn P.rxp_eq i) (codes.getD k 0)
        (burst.bind (fun l => if k < 4 then l[k]? else none)))
      (bit (s.dev.cn P.rxp_lane_map i) 8 = true →
        Answers s (.rxTrainingDone t i pins inv ⟨codes, burst⟩) t (s.dm.dev.onRx i (fun r =>
          { r with
            state := .map, since := (s.now t).abs, pins := seen, pol := polarityInUse (s.dev.cn P.rxp_polarity i) inv r.clockInv
            lanes := lanes }))) ∧
      (bit (s.dev.cn P.rxp_lane_map i) 8 = false → activeSeen (s.dev.cn P.rxp_lane_map i) (s.dev.cn P.rxp_lanes i) seen = true →
        Reaches s (.rxTrainingDone t i pins inv ⟨codes, burst⟩) (fun u =>
          (u.dev.rxp i).state = .up ∧ (u.dev.rxp i).order = s.dev.cn P.rxp_lane_map i % 256 ∧ (u.dev.rxp i).lanes = lanes ∧
          (u.dev.rxp i).pins = seen ∧ (u.dev.rxp i).bringUps = min ((s.dev.rxp i).bringUps + 1) 65535 ∧
          (∀ j, j ≠ i → u.dev.rxp j = s.dev.rxp j) ∧ u.mem = s.mem ∧ u.dev.par.committed = s.dev.par.committed))) ∧
    (bit (s.dev.cn P.rxp_lane_map i) 8 = true →
     ((∀ order, (s.dev.rxp i).state = .map → popCount 4 (s.dev.rxp i).pins = s.dev.cn P.rxp_lanes i →
      Answers s (.rxLaneOrderFound t i order) t
        (((s.dm.dev.onRx i (fun r => { r with state := .up, since := (s.now t).abs, order := order % 256, found := true, synced := 0
                                              bringUps := min (r.bringUps + 1) 65535 })).raise
          (s.now t) 0x0401 i (leBytes 1 (s.dev.cn P.rxp_lanes i) ++ [0] ++ leBytes 4 (s.dev.rxp i).rate)).raise
          (s.now t) 0x0403 i (leBytes 1 (order % 256) ++ leBytes 1 (s.dev.rxp i).pol ++ leBytes 1
            (b2n (order % 256 != s.dev.cn P.rxp_lane_map i % 256 || (s.dev.rxp i).pol != s.dev.cn P.rxp_polarity i % 32))))) ∧
    ((s.dev.rxp i).state = .map →
      Answers s (.rxMapFailure t i) t
        ((s.dm.dev.onRx i (fun r => { r with
            state := .wait, since := (s.now t).abs, mapFailed := true, rate := 0, noBurst := false, pins := 0, found := false
            synced := 0, cut := false, skip := false, part := none, ulps := 0, clockUlps := false })).raise
          (s.now t) 0x0404 i [4, if popCount 4 (s.dev.rxp i).pins = s.dev.cn P.rxp_lanes i then 3 else 2]))))

/-- R104: a dropout of a data lane marks the packet in progress and raises 0x0409; with no frame in progress from the port, a persistent
loss also raises 0x0402 with cause 2, and the loss of the clock lane 0x0408 and 0x0402 with cause 1; both send the port to Wait. Frames in
progress from the port end with it. -/
def Obligations.RxLaneLossSendsThePortToWait : Prop :=
  ∀ (s : State) (t i : Nat), s.dev.Calm → (s.dev.rxp i).state = .up →
    (∀ lane, Answers s (.rxDataLaneDropout t i lane) t
      ((s.dm.dev.onRx i (fun r => { r with cut := true })).raise (s.now t) 0x0409 i (leBytes 1 lane ++ [0]))) ∧
    ((∀ e, e < 128 → (s.dev.stream e).inFrame = true → ¬ (seKind (s.dev.stream e).e = 0 ∧ seSrc (s.dev.stream e).e = i)) →
      (∀ lane, Answers s (.rxDataLanePersistentLoss t i lane) t
        (((s.dm.dev.raise (s.now t) 0x0409 i (leBytes 1 lane ++ [1])).raise (s.now t) 0x0402 i [2]).onRx i
          (fun r => r.toWait (s.now t).abs false))) ∧
      (∀ lineState, Answers s (.rxClockLaneLoss t i lineState) t
        (((s.dm.dev.raise (s.now t) 0x0408 i (leBytes 1 (lineState % 2))).raise (s.now t) 0x0402 i [1]).onRx i
          (fun r => { r with clockHs := false }.toWait (s.now t).abs false)))) ∧
    (∀ k, Reaches s (.rxDataLanePersistentLoss t i k) (fun u =>
      u.dev.rxp i = (s.dev.rxp i).toWait (s.now t).abs false ∧ (∀ j, j ≠ i → u.dev.rxp j = s.dev.rxp j) ∧
      (∀ e, e < 128 → seKind (s.dev.stream e).e = 0 → seSrc (s.dev.stream e).e = i → (u.dev.stream e).inFrame = false) ∧ u.mem = s.mem)) ∧
    (∀ k, Reaches s (.rxClockLaneLoss t i k) (fun u =>
      u.dev.rxp i = { s.dev.rxp i with clockHs := false }.toWait (s.now t).abs false ∧ (∀ j, j ≠ i → u.dev.rxp j = s.dev.rxp j) ∧
      (∀ e, e < 128 → seKind (s.dev.stream e).e = 0 → seSrc (s.dev.stream e).e = i → (u.dev.stream e).inFrame = false) ∧ u.mem = s.mem))

/-- R105: a port in Up reports its sleeping lanes and stays in Up; 0x040A comes when the last active lane enters ULPS and when the first
wakes, the clock lane among the active ones by log entry 43. R102, R22: with a controller pair running, an awake adaptive lane in use moves its code by one step, at most once in a heat, between 0 and
the limit of `rxp.eq`. -/
def Obligations.RxLanesSleepAndAdapt : Prop :=
  ∀ (s : State) (t i lane : Nat), s.dev.Calm → (s.dev.rxp i).state = .up →
    (lane ≤ 4 → ((s.dev.rxp i).sleep lane true).allAsleep (s.dev.cn P.rxp_lanes i) = (s.dev.rxp i).allAsleep (s.dev.cn P.rxp_lanes i) →
      Answers s (.rxLaneUlpsEntry t i lane) t (s.dm.dev.onRx i (fun r => r.sleep lane true))) ∧
    (lane ≤ 4 → ((s.dev.rxp i).sleep lane true).allAsleep (s.dev.cn P.rxp_lanes i) = true →
        (s.dev.rxp i).allAsleep (s.dev.cn P.rxp_lanes i) = false →
      Answers s (.rxLaneUlpsEntry t i lane) t ((s.dm.dev.onRx i (fun r => r.sleep lane true)).raise (s.now t) 0x040A i [1])) ∧
    (lane ≤ 4 → ((s.dev.rxp i).sleep lane false).allAsleep (s.dev.cn P.rxp_lanes i) = (s.dev.rxp i).allAsleep (s.dev.cn P.rxp_lanes i) →
      Answers s (.rxLaneWake t i lane) t (s.dm.dev.onRx i (fun r => r.sleep lane false))) ∧
    (lane ≤ 4 → ((s.dev.rxp i).sleep lane false).allAsleep (s.dev.cn P.rxp_lanes i) = false →
        (s.dev.rxp i).allAsleep (s.dev.cn P.rxp_lanes i) = true →
      Answers s (.rxLaneWake t i lane) t ((s.dm.dev.onRx i (fun r => r.sleep lane false)).raise (s.now t) 0x040A i [0])) ∧
    (∀ up, bit (s.dev.cn P.rxp_eq i) 0 = false → s.dev.fwRuns = true → (s.dev.rxp i).hears (s.dev.cn P.rxp_lanes i) lane = true →
        ((s.dev.rxp i).lanes.getD lane {}).movedHeat ≠ some s.tb.heat.toNat →
      Answers s (.ctleAdapt t i lane up) t (s.dm.dev.onRx i (fun r => { r with lanes := r.lanes.modify lane (fun l =>
        { l with movedHeat := some s.tb.heat.toNat, ctle := ctleStep (bits (s.dev.cn P.rxp_eq i) 8 4) l.ctle up }) })))

/-- R107 to R109, R121, R139: a port in Up gives a whole long packet to the stream entry that claims it, whose frame has one line more, and a
frame start lets its virtual channel through; a header beyond correction is counted for the heat's 0x0405 and what follows it is skipped up to
the next SoT; an SoT with two wrong bits or more is counted for 0x0407 and its burst skipped, one with a single wrong bit is counted alone; a
low-power packet is reported with 0x040D. R105: all this while the active lanes are awake. A port that is not in Up takes nothing, but follows
its clock lane in every state. -/
def Obligations.RxPacketsAreTakenAndErrorsTold : Prop :=
  ∀ (s : State) (t i : Nat), s.dev.Calm →
    (∀ u, (s.dev.rxp i).state ≠ .up → u ≠ .clockStop → Answers s (.packetReceive t i u) t s.dm.dev) ∧
    Answers s (.packetReceive t i .clockStop) t (s.dm.dev.onRx i (fun r => { r with clockHs := false })) ∧
    ((s.dev.rxp i).state = .up → (s.dev.rxp i).dozes (s.dev.cn P.rxp_lanes i) = false →
      (∀ lane, Answers s (.packetReceive t i (.sot lane 0)) t (s.dm.dev.onRx i (fun r => { r with skip := false }))) ∧
      (∀ lane, Answers s (.packetReceive t i (.sot lane 1)) t
        ((s.dm.dev.onRx i (fun r => { r with skip := false })).bumpField P.rxp_err_counts i 48 16 1)) ∧
      (∀ lane k, 1 < k → Answers s (.packetReceive t i (.sot lane k)) t
        ((s.dm.dev.onRx i (fun r => { r with skip := true, sotErr := r.sotErr.note (s.now t) (leBytes 1 lane) })).bumpField
          P.rxp_err_counts i 48 16 1)) ∧
      (∀ dt, Answers s (.packetReceive t i (.lowPower dt)) t (s.dm.dev.raise (s.now t) 0x040D i (leBytes 1 0 ++ leBytes 1 dt))) ∧
      (∀ crcOk trunc p full parity, (s.dev.rxp i).skip = false →
        Answers s (.packetReceive t i (.packet .bad crcOk trunc p full parity)) t
          ((s.dm.dev.onRx i (fun r => { r with eccErr := r.eccErr.note (s.now t) [], skip := true, part := none })).bumpField
            P.rxp_err_counts i 16 16 1)) ∧
      (∀ p ecc crcOk trunc full parity, (s.dev.rxp i).skip = false → ecc ≠ .bad → s.dev.rxDsi i = false → p.short = true → p.dt = 0 →
        Reaches s (.packetReceive t i (.packet ecc crcOk trunc p full parity)) (fun u =>
          bit (u.dev.rxp i).synced (s.dev.rxVc i p) = true ∧ (u.dev.rxp i).state = .up ∧ (∀ j, j ≠ i → u.dev.rxp j = s.dev.rxp j))) ∧
      (∀ p e full parity, s.dev.rxDsi i = false → bit (s.dev.cn P.rxp_protocol i) 2 = false → p.short = false → 4 ≤ p.dt →
          (s.dev.rxp i).cut = false → (s.dev.rxp i).skip = false → (s.dev.rxp i).part = none → bit (s.dev.rxp i).synced (p.vc % 4) = true →
          s.dev.classify 0 i { p with vc := p.vc % 4, marked := false } = some e →
          (s.dev.stream e).inFrame = true → (s.dev.stream e).taking = 0 → (∀ o, o < 16 → s.dev.burstFollow o i = false) →
        Reaches s (.packetReceive t i (.packet .good true false p full parity)) (fun u =>
          u.dev.stream e = { s.dev.stream e with
            lines := (s.dev.stream e).lines + 1
            crc := if seFreeze (s.dev.stream e).e ≠ 0 ∧ (s.dev.stream e).lines % 2 ^ seSample (s.dev.stream e).e = 0 then
                crcFeed (s.dev.stream e).crc p.payload
              else (s.dev.stream e).crc } ∧
          (∀ j, j ≠ e → u.dev.stream j = s.dev.stream j) ∧ (∀ j, u.dev.rxp j = s.dev.rxp j) ∧ u.dev.out = [] ∧ u.dev.cru = s.dev.cru ∧
          u.dev.ctl = s.dev.ctl ∧ u.mem = s.mem ∧ u.dev.par = s.dev.par)))

/-- R106, R114, R116: a transmit port with a source leaves Stop after 100 µs for Deskew at lane rates above 1.5 Gb/s or when told to, else for
Run with 0x0410; the end of the burst brings Run, and the fresh pour of a restart that waits for it; a port without a source that is not
quenched sleeps after the time of `txp.lp_ctrl`, unless that is 0; and it wakes to Stop after 1.0 ms. Entering HS takes the levels in force. -/
def Obligations.TxPortStartsSleepsAndWakes : Prop :=
  ∀ (s : State) (t i : Nat), s.dev.Calm →
    ((s.dev.txp i).state = .stop → s.dev.txSource i = true → (s.dev.txp i).since + 80000 ≤ (s.now t).abs →
      (s.dev.txDeskews i = true → Answers s (.txStopDone t i) t (s.dm.dev.onTx i (s.dev.txIn i .deskew (s.now t).abs))) ∧
      (s.dev.txDeskews i = false →
        Answers s (.txStopDone t i) t ((s.dm.dev.onTx i (s.dev.txIn i .run (s.now t).abs)).raise
          (s.now t) 0x0410 i (leBytes 4 (s.dev.laneKbps i))))) ∧
    ((s.dev.txp i).state = .deskew → (s.dev.tgen i).fresh = false →
      Answers s (.txDeskewDone t i) t ((s.dm.dev.onTx i (s.dev.txIn i .run (s.now t).abs)).raise
        (s.now t) 0x0410 i (leBytes 4 (s.dev.laneKbps i)))) ∧
    ((s.dev.txp i).state = .deskew →
      Reaches s (.txDeskewDone t i) (fun u =>
        (u.dev.txp i).state = .run ∧ ((s.dev.tgen i).fresh = true → (u.dev.tgen i).fresh = false ∧ (u.dev.tgen i).state = .running ∧
          (u.dev.tgen i).pour = (s.dev.tgen i).next) ∧ u.mem = s.mem)) ∧
    ((s.dev.txp i).state = .stop → s.dev.txSource i = false → (s.dev.txp i).quenched = false → bits (s.dev.ln P.txp_lp_ctrl i) 8 8 ≠ 0 →
        (s.dev.txp i).since + bits (s.dev.ln P.txp_lp_ctrl i) 8 8 * msCycles ≤ (s.now t).abs →
      Answers s (.txUlpsTimeout t i) t (s.dm.dev.onTx i (s.dev.txIn i .ulps (s.now t).abs))) ∧
    ((s.dev.txp i).state = .stop → bits (s.dev.ln P.txp_lp_ctrl i) 8 8 = 0 → Answers s (.txUlpsTimeout t i) t s.dm.dev) ∧
    ((s.dev.txp i).state = .wake → (s.dev.txp i).since + msCycles ≤ (s.now t).abs →
      Answers s (.txWakeDone t i) t (s.dm.dev.onTx i (s.dev.txIn i .stop (s.now t).abs)))

/-- R135: a port that a commit removed from a stream's destinations closes the frame still open there two frame periods after its start:
it completes the packet in progress and sends a frame end, counts the frame as incomplete, and raises 0x0505 with cause 3 and 0x0506. A stream
whose match fields changed, or that was disabled, ends its frame everywhere. A period not known yet counts as 800 heats, which is
the model's choice (log entry 42). -/
def Obligations.FrameEndTimeoutClosesTheFrame : Prop :=
  ∀ (s : State) (t e o vc : Nat), s.dev.Calm → o < 16 → e < 128 →
    (s.dev.stream e).inFrame = true → (s.dev.stream e).takes o = true → seOutVc (s.dev.stream e).e = vc →
    s.dev.removedAt e o = true → (s.dev.stream e).overdue (s.now t).abs = true → (∀ j, j < e → (s.dev.stream j).takes o = false) →
    (seKey (s.dev.stream e).e ≠ seKey (s.dev.cn P.stream_entry e) → Reaches s (.feTimeout t o vc) (fun u =>
      (u.dev.stream e).inFrame = false ∧ u.mem = s.mem ∧ u.dev.rx = s.dev.rx ∧ u.dev.tg = s.dev.tg ∧
      u.dev.par.committed = s.dev.par.committed)) ∧
    (seKey (s.dev.stream e).e = seKey (s.dev.cn P.stream_entry e) → Reaches s (.feTimeout t o vc) (fun u =>
      (u.dev.stream e).takes o = false ∧ (u.dev.stream e).inFrame = true ∧
      (∀ j, j ≠ e → u.dev.stream j = s.dev.stream j) ∧ u.mem = s.mem ∧ u.dev.rx = s.dev.rx ∧ u.dev.spr = s.dev.spr ∧
      u.dev.cru = s.dev.cru ∧ u.dev.tg = s.dev.tg ∧ u.dev.moulds = s.dev.moulds ∧
      u.dev.par.committed = s.dev.par.committed ∧
      u.dev.ctl = ((s.dm.dev.raise (s.now t) 0x0505 e (leBytes 1 3 ++ leBytes 2 (min (s.dev.stream e).lines 65535))).raise
        (s.now t) 0x0506 e (leBytes 1 o)).ctl))

/-! ## Chapter 3: transports, sessions, leases, buses -/

/-- R41, R42, R59, R67: a whole message with a good tag, in an open session, with a SEQ that is new, enters the session's mailbox with its
route and arrival time, is the session's latest arrival, and changes no other session; one with a wrong tag is counted in
`ctl.tag_fail_count` and for the heat's 0x0206, and changes no mailbox. OPEN enters the pre-session mailbox while that holds fewer than 8. A message that comes to a
full mailbox is discarded: no mailbox changes, `ctl.rx_drop_count` goes up, and the message is counted for the heat's one 0x0209, which names
its session. -/
def Obligations.MessagesReachTheirMailbox : Prop :=
  (∀ (s : State) (t : Nat) (r : Route) (b : Bytes) (j : Jorek), s.dev.Calm → s.dev.pwr.mode.takesMessages = true →
    Jorek.parse b = some j → j.version = 1 →
    (∀ i, i < s.dev.ctl.slots.length → i = slotOf j.session → j.session ≠ 0 → (s.dev.slot i).state = .open → (s.dev.slot i).id i = j.session →
        bit j.flags 1 = true → (s.dev.slot i).keys.usable = true → j.tag = j.tagOf (s.dev.slot i).keys.kP2d → j.typ ≠ 0x0202 →
        (∀ h ∈ (s.dev.slot i).handled, ¬ (h.seq = j.seq ∧ h.tag = j.tag)) → (s.dev.slot i).acceptsSeq j.seq = true → j.seq < seqLimit →
        (s.dev.slot i).inbox.length < 32 →
      Reaches s (.messageArrival t r b) (fun u =>
        (u.dev.slot i).inbox = (s.dev.slot i).inbox ++ [⟨j, r, (s.now t).abs⟩] ∧ (u.dev.slot i).route = r ∧
        (u.dev.slot i).lastArrival = (s.now t).abs ∧ (u.dev.slot i).acceptsSeq j.seq = false ∧
        (∀ k, k ≠ i → u.dev.slot k = s.dev.slot k) ∧ (∀ l ∈ u.dev.ctl.leases, l.slot = i → (s.now t).abs < l.deadline →
          l ∈ s.dev.ctl.leases ∨ l.deadline = (s.now t).abs + l.timeout * msCycles) ∧
        u.dev.par = s.dev.par ∧ u.dev.out = [] ∧ u.dev.txn = s.dev.txn ∧ u.mem = s.mem)) ∧
    (∀ i, i < s.dev.ctl.slots.length → i = slotOf j.session → j.session ≠ 0 → (s.dev.slot i).state = .open → (s.dev.slot i).id i = j.session →
        j.tag ≠ j.tagOf (s.dev.slot i).keys.kP2d →
      Reaches s (.messageArrival t r b) (fun u =>
        (u.dev.slot i).inbox = (s.dev.slot i).inbox ∧ (u.dev.slot i).route = (s.dev.slot i).route ∧
        (∀ k, k ≠ i → u.dev.slot k = s.dev.slot k) ∧ u.dev.ctl.leases = s.dev.ctl.leases ∧
        (s.dev.sn P.ctl_tag_fail_count 0 < 2 ^ 32 - 1 → u.dev.sn P.ctl_tag_fail_count 0 = s.dev.sn P.ctl_tag_fail_count 0 + 1) ∧
        u.dev.out = [] ∧ u.mem = s.mem)) ∧
    (j.session = 0 → j.typ = 0x0202 → s.dev.ctl.pre.length < 8 →
      Answers s (.messageArrival t r b) t { s.dm.dev with ctl := { s.dev.ctl with pre := s.dev.ctl.pre ++ [⟨j, r, (s.now t).abs⟩] } })) ∧
  (∀ (d : Dev) (n : Now) (m : Msg) (i : Nat), 32 ≤ (d.slot i).inbox.length →
    (d.toInbox n i m = d.overflow n m.j.session) ∧
    (∀ session, ((d.overflow n session).ctl.pre = d.ctl.pre ∧ ∀ k, (d.overflow n session).slot k = d.slot k) ∧
      (d.sn P.ctl_rx_drop_count 0 < 2 ^ 32 - 1 → (d.overflow n session).sn P.ctl_rx_drop_count 0 = d.sn P.ctl_rx_drop_count 0 + 1) ∧
      (d.overflow n session).ctl.overflow.count = d.ctl.overflow.count + 1 ∧
      ((d.overflow n session).tellOverflow.ctl.overflow = {} ∧ ∃ at', ∃ e : Dev, e.ctl.slots = d.ctl.slots ∧
        (d.overflow n session).tellOverflow.ctl.slots =
          (e.raise at' 0x0209 0xFFFF (leBytes 2 session ++ leBytes 2 (min (d.ctl.overflow.count + 1) 65535))).ctl.slots)))

/-- R44, R73: an ARP request and, where it is enabled, an ICMP echo for the port's address are answered, with the port's VLAN tag; a datagram incomplete after
`ctl.frag_timeout_heats` is discarded; a change of a port's link is taken with 0x0207. -/
def Obligations.EthernetPortsAnswer : Prop :=
  ∀ (s : State) (t port : Nat), s.dev.Calm →
    (∀ tag mac sip, s.dev.pwr.mode.takesMessages = true → s.dev.ethOn port = true → s.dev.vlanOk tag = true → s.dev.ipv4 port ≠ 0 →
      Answers s (.ethFrameReceive t port ⟨tag, .arpRequest (s.dev.ipv4 port) mac sip⟩) t (s.dm.dev.say (.arpReply port s.dev.vlanTag mac sip))) ∧
    (∀ tag src p, s.dev.pwr.mode.takesMessages = true → s.dev.ethOn port = true → s.dev.vlanOk tag = true → s.dev.ipv4 port ≠ 0 → s.dev.cn P.ctl_icmp_en 0 = 1 →
      Answers s (.ethFrameReceive t port ⟨tag, .icmpEcho (s.dev.ipv4 port) src p⟩) t (s.dm.dev.say (.icmpReply port s.dev.vlanTag src p))) ∧
    (∀ f, s.dev.ethOn port = false → Answers s (.ethFrameReceive t port f) t s.dm.dev) ∧
    Answers s (.fragTimeout t port) t (s.dm.dev.onEth port (fun e =>
      { e with frags := e.frags.filter (fun r => decide (s.tb.heat.toNat < r.since + s.dev.cn P.ctl_frag_timeout_heats 0)) })) ∧
    (∀ up fast, Answers s (.ethLinkChange t port up fast) t ((s.dm.dev.onEth port (fun e => { e with up := up, fast := fast })).raise
      (s.now t) 0x0207 0xFFFF (leBytes 1 (s.dev.onEth port (fun e => { e with up := up, fast := fast })).ethStatus)))

/-- R46, R47, R73: a first CAN frame of several begins its node's partial message; after 8 heats without a frame a partial message is
abandoned and counted; a controller's state change is taken with 0x0208, but that an enabled
controller stays bus-off without `ctl.can_busoff_auto`. A frame whose identifier is not the device's is ignored. -/
def Obligations.CanNodesSegmentAndReport : Prop :=
  ∀ (s : State) (t ctl : Nat), s.dev.Calm →
    (∀ ident (data : Bytes), s.dev.pwr.mode.takesMessages = true → s.dev.canAccepts ctl ident = true → rd data 0 1 = 128 →
        (∀ p ∈ (s.dev.ctl.can.getD ctl {}).partials, p.node ≠ bits ident 5 6) →
      Answers s (.canFrameReceive t ctl ident data) t (s.dm.dev.onCan ctl (fun c => { c with
        partials := c.partials.filter (fun p => p.node != bits ident 5 6) ++ [⟨bits ident 5 6, 0, data.drop 1, s.tb.heat.toNat⟩] }))) ∧
    (∀ ident data, s.dev.canAccepts ctl ident = false → Answers s (.canFrameReceive t ctl ident data) t s.dm.dev) ∧
    (∀ node p, p ∈ (s.dev.ctl.can.getD ctl {}).partials → p.node = node → p.last + 8 ≤ s.tb.heat.toNat →
      Answers s (.canSegTimeout t ctl node) t ((s.dm.dev.onCan ctl (fun c => { c with partials := c.partials.filter (fun p => p.node != node) })).bump
        P.ctl_can_seg_abort_count 0)) ∧
    (∀ st tec, ¬((s.dev.ctl.can.getD ctl {}).state = 2 ∧ s.dev.cn P.ctl_can_busoff_auto 0 = 0 ∧ bit (s.dev.cn P.ctl_can_en 0) ctl = true) →
      Answers s (.canStateChange t ctl st tec) t ((s.dm.dev.onCan ctl (fun c => { c with state := st, tec := tec })).raise
      (s.now t) 0x0208 0xFFFF (leBytes 1 ctl ++ leBytes 1 st)))

/-- R49: when its period is over, ANNOUNCE goes out untagged to each group address of each Ethernet port that speaks, from Autonomous on
except in Banked, unless the period is 0. R52, R56: while the firmware runs, an unfinished handshake is given up after its time, and a session
that has held no lease and sent nothing for its time closes, each leaving its slot free under its generation and none of the leases as its
own; no buffer is left with the slot as its owner, and without a lease every other slot stays as it was but for the event. -/
def Obligations.AnnounceAndSessionTimeouts : Prop :=
  ∀ (s : State) (t i : Nat), s.dev.Calm →
    (s.dev.cn P.ctl_announce_ms 0 ≠ 0 → s.dev.pwr.mode.announces = true → s.dev.announceDue (s.now t).abs = true →
      Reaches s (.announce t) (fun u => ∃ p, p.length = 36 ∧ p.getD 3 0 = BitVec.ofNat 8 s.dev.pwr.mode.code ∧
        (∀ port g, (Out.announce port g ⟨1, 0x0201, 0, 0, 0, p, []⟩ ∈ u.dev.out ↔ port < 2 ∧ g ∈ s.dev.announceGroups port)) ∧
        { u.dev with out := s.dev.out, ctl := s.dev.ctl } = s.dev ∧ u.dev.ctl = { s.dev.ctl with announcedAt := some (s.now t).abs } ∧
        u.mem = s.mem)) ∧
    ((s.dev.cn P.ctl_announce_ms 0 = 0 ∨ s.dev.announceDue (s.now t).abs = false) → Answers s (.announce t) t s.dm.dev) ∧
    (i < 32 → i < s.dev.ctl.slots.length → s.dev.fwRuns = true →
      ((s.dev.slot i).state = .handshake → (s.dev.slot i).openedAt + s.dev.cn P.ctl_open_timeout_heats 0 * heatCycles ≤ (s.now t).abs →
        Reaches s (.handshakeTimeout t i) (fun u =>
          u.dev.slot i = { gen := (s.dev.slot i).gen } ∧ (∀ k, (u.dev.slot k).inbox = if k = i then [] else (s.dev.slot k).inbox) ∧
          (∀ b ∈ u.dev.cru.bufs, b.owner ≠ i) ∧ (∀ l ∈ u.dev.ctl.leases, l ∈ s.dev.ctl.leases ∧ l.slot ≠ i) ∧ u.mem = s.mem ∧
          ((∀ l ∈ s.dev.ctl.leases, l.slot ≠ i) → u.dev.ctl.leases = s.dev.ctl.leases) ∧ u.dev.par.committed = s.dev.par.committed)) ∧
      ((s.dev.slot i).state = .open → s.dev.holdsAny (s.now t).abs i = false →
          s.dev.idleSince i + s.dev.cn P.ctl_session_idle_s 0 * 1000 * msCycles ≤ (s.now t).abs →
        Reaches s (.sessionIdleTimeout t i) (fun u =>
          u.dev.slot i = { gen := (s.dev.slot i).gen } ∧ (∀ k, (u.dev.slot k).inbox = if k = i then [] else (s.dev.slot k).inbox) ∧
          (∀ b ∈ u.dev.cru.bufs, b.owner ≠ i) ∧ (∀ l ∈ u.dev.ctl.leases, l ∈ s.dev.ctl.leases ∧ l.slot ≠ i) ∧ u.mem = s.mem ∧
          ((∀ l ∈ s.dev.ctl.leases, l.slot ≠ i) → u.dev.ctl.leases = s.dev.ctl.leases) ∧ u.dev.par.committed = s.dev.par.committed)))

/-- R63: entries sent `ctl.event_resend_heats` ago and not acknowledged go out again under their numbers, in one EVENT, at most one in a
heat. R60, R22: while the firmware runs, a lease whose deadline lies before this heat lapses on a unit that is not standby: it is gone, and its expiry policy waits for the
next boundary. -/
def Obligations.EventsAreResentAndLeasesLapse : Prop :=
  ∀ (s : State) (t : Nat), s.dev.Calm →
    (∀ i, i < s.dev.ctl.slots.length → s.dev.fwRuns = true → (s.dev.slot i).state = .open → (s.dev.slot i).ev.sentHeat ≠ some s.tb.heat.toNat →
        (∃ e ∈ (s.dev.slot i).ev.entries, ∃ h, e.sentAt = some h ∧ h + s.dev.cn P.ctl_event_resend_heats 0 ≤ s.tb.heat.toNat) →
      Reaches s (.eventResendTimeout t i) (fun u =>
        (u.dev.slot i).ev.sentHeat = some s.tb.heat.toNat ∧ (u.dev.slot i).seqOut = (s.dev.slot i).seqOut + 1 ∧
        (u.dev.slot i).ev.entries.map (·.number) = (s.dev.slot i).ev.entries.map (·.number) ∧
        (∃ j, j.typ = 0x0207 ∧ j.session = (s.dev.slot i).id i ∧ j.seq = (s.dev.slot i).seqOut ∧
          u.dev.out = (s.dm.dev.send (s.dev.slot i).route j).out) ∧
        (∀ e ∈ (u.dev.slot i).ev.entries, ∀ h, e.sentAt = some h → s.tb.heat.toNat < h + s.dev.cn P.ctl_event_resend_heats 0 ∨ h = s.tb.heat.toNat) ∧
        (∀ k, k ≠ i → u.dev.slot k = s.dev.slot k) ∧ u.dev.par = s.dev.par ∧ u.mem = s.mem)) ∧
    (∀ kind idx l, s.dev.fwRuns = true → s.dev.leaseOn kind idx = some l → l.deadline < s.tb.heat.toNat * heatCycles → s.dev.pair.role ≠ .standby →
      Reaches s (.leaseLapse t kind idx) (fun u =>
        u.dev.leaseOn kind idx = none ∧ (∃ e ∈ u.dev.ctl.expiries, e.kind = kind ∧ e.idx = idx ∧ e.due = s.tb.heat.toNat + 1) ∧
        (∀ k i, ¬ (k = kind ∧ i = idx) → u.dev.leaseOn k i = s.dev.leaseOn k i) ∧ u.dev.par.committed = s.dev.par.committed ∧
        u.dev.rx = s.dev.rx ∧ u.dev.tg = s.dev.tg ∧ u.mem = s.mem))

/-- R69: a transfer that ends leaves its reply for the next message window, with the data of the operations completed before a failure, and
counts every NACK; with nothing queued its controller is idle, and else, with no script on it and its pins free, the next transfer starts at
the controller's rate. Operations answered in time complete; the first with its line held low or over its time ends the transfer with 0x8223,
the first whose address or data is not acknowledged, retries included, with 0x8222. R70: an in-band interrupt on an I3C controller goes to
the holder of the controller's lease alone, or to every subscriber where nobody holds it; a Hot-Join request is not acknowledged. -/
def Obligations.BusTransfersEndAndInterrupt : Prop :=
  (∀ (s : State) (t i : Nat), s.dev.Calm →
    (∀ x as, (s.dev.ctl.i2c.getD i {}).running = some x →
      let r := xferRun (s.dev.cn P.i2c_retries i) (s.dev.cn P.i2c_timeout_us i) x.ops as {}
      Reaches s (.xferComplete t i as) (fun u =>
        (u.dev.ctl.i2c.getD i {}).stuck = r.stuck ∧ (u.dev.ctl.i2c.getD i {}).nacks = min ((s.dev.ctl.i2c.getD i {}).nacks + r.naks) 65535 ∧
        (∀ k, k ≠ i → u.dev.ctl.i2c.getD k {} = s.dev.ctl.i2c.getD k {}) ∧
        u.dev.ctl.held = s.dev.ctl.held ++ [⟨x.slot, x.session, 0x0220, x.seq, x.route, r.status, r.reply⟩] ∧
        (∀ k, r.clocks = some k → Out.busStop i k ∈ u.dev.out) ∧ (r.stuck = false → u.dev.ctl.slots = s.dev.ctl.slots ∧ u.dev.par = s.dev.par) ∧
        ((s.dev.ctl.i2c.getD i {}).queue = [] → (u.dev.ctl.i2c.getD i {}).running = none ∧ (u.dev.ctl.i2c.getD i {}).queue = []) ∧
        (∀ y q, (s.dev.ctl.i2c.getD i {}).queue = y :: q →
          (s.dev.scriptOn i = false → s.dev.pinsHeld 2 = false →
            (u.dev.ctl.i2c.getD i {}).running = some y ∧ (u.dev.ctl.i2c.getD i {}).queue = q ∧ Out.bus i (s.dev.busKhz i) y.ops ∈ u.dev.out) ∧
          (s.dev.scriptOn i = true ∨ s.dev.pinsHeld 2 = true →
            (u.dev.ctl.i2c.getD i {}).running = none ∧ (u.dev.ctl.i2c.getD i {}).queue = y :: q)) ∧
        u.dev.par.committed = s.dev.par.committed ∧ u.mem = s.mem)) ∧
    (∀ addr p, s.dev.cn P.i2c_mode i = 2 → addr ≠ 2 →
      (∀ l, s.dev.ctl.leases.find? (fun l => l.kind == 0x0F && l.idx == i && l.live (s.now t).abs) = some l →
        Answers s (.i3cIbi t i addr p) t ((s.dm.dev.say (.ibi i addr true)).raiseTo (s.now t) l.slot 0x0221 i
          (leBytes 1 addr ++ leBytes 1 (min 8 p.length) ++ fit 8 p ++ [0, 0]))) ∧
      (s.dev.ctl.leases.find? (fun l => l.kind == 0x0F && l.idx == i && l.live (s.now t).abs) = none →
        Answers s (.i3cIbi t i addr p) t ((s.dm.dev.say (.ibi i addr true)).raise (s.now t) 0x0221 i
          (leBytes 1 addr ++ leBytes 1 (min 8 p.length) ++ fit 8 p ++ [0, 0])))) ∧
    (∀ p, s.dev.cn P.i2c_mode i = 2 → Answers s (.i3cIbi t i 2 p) t (s.dm.dev.say (.ibi i 2 false))) ∧
    (∀ addr p, s.dev.cn P.i2c_mode i ≠ 2 → Answers s (.i3cIbi t i addr p) t s.dm.dev)) ∧
  (∀ (retries timeout : Nat) (pre : List XferOp) (as : List BusAnswer), as.length = pre.length →
    (∀ a ∈ as, a.held = none ∧ a.us ≤ timeout ∧ a.naks ≤ retries ∧ a.dataNack = false) →
    ((xferRun retries timeout pre as {}).status = 0 ∧ (xferRun retries timeout pre as {}).stuck = false ∧
      (xferRun retries timeout pre as {}).done = pre.length) ∧
    (∀ x a post bs,
      let r := xferRun retries timeout (pre ++ x :: post) (as ++ a :: bs) {}
      (∀ k, a.held = some k → r.status = 0x8223 ∧ r.stuck = true ∧ r.clocks = some (min 9 k) ∧ r.done = pre.length ∧
        r.data = (xferRun retries timeout pre as {}).data) ∧
      (a.held = none → timeout < a.us → r.status = 0x8223 ∧ r.stuck = false ∧ r.done = pre.length ∧
        r.data = (xferRun retries timeout pre as {}).data) ∧
      (a.held = none → a.us ≤ timeout → (retries < a.naks ∨ a.dataNack = true) → r.status = 0x8222 ∧ r.stuck = false ∧ r.done = pre.length ∧
        r.data = (xferRun retries timeout pre as {}).data)))

/-! ## Chapters 9 and 11: scan-out -/

/-- R28, R232: when the last line of a frame is over, the pour gives the output's next pour number, 0 for the first since Boot and else one
more modulo 2^32, and starts the frame in which the latch line is still to come. Without a mould on the output nothing else changes. Before
that, and where a reseat or a stop takes its place (R234, R246), there is no pour. -/
def Obligations.PourCountsAndStartsTheFrame : Prop :=
  ∀ (s : State) (t g : Nat) (torn : List Nat), s.dev.Calm → g < s.dev.nTx → (s.dev.tgen g).state = .running →
    ((s.dev.frameOver g (s.now t).abs = false ∨ (s.dev.tgen g).reseat = true ∨ (s.dev.tgen g).stopping = true) →
      Answers s (.pour t g torn) t s.dm.dev) ∧
    (s.dev.frameOver g (s.now t).abs = true → (s.dev.tgen g).reseat = false → (s.dev.tgen g).stopping = false →
    Reaches s (.pour t g torn) (fun u =>
      (u.dev.tgen g).pour = (if (s.dev.tgen g).started then (s.dev.tgen g).pour + 1 else 0) ∧
      (u.dev.tgen g).started = true ∧ (u.dev.tgen g).state = .running ∧ (u.dev.tgen g).latched = false ∧
      (u.dev.tgen g).pourAt = (s.now t).abs ∧ u.dev.pwr.firstPour = some (s.dev.pwr.firstPour.getD (s.now t).abs) ∧
      (u.dev.tgen g).head = s.dev.ln P.tg_v_sync g + s.dev.ln P.tg_v_bp g ∧ (u.dev.tgen g).markLine = 0 ∧
      u.mem = s.mem ∧ u.pending = s.pending ∧ u.dev.par.committed = s.dev.par.committed ∧ u.dev.rx = s.dev.rx ∧
      (∀ i, i ≠ g → u.dev.txp i = s.dev.txp i) ∧ (u.dev.txp g).state = (s.dev.txp g).state) ∧
    (s.dev.liveView.mouldOf g = none → (s.dev.tgen g).sends = false →
      Answers s (.pour t g torn) t
        (let first := (s.dev.tgen g).head + s.dev.ln P.tg_v_active g
         let d := s.dm.dev.onTg g (fun x => { x with
          state := .running, pour := if (s.dev.tgen g).started then (s.dev.tgen g).pour + 1 else 0, started := true, latched := false
          stretched := false, pourAt := (s.now t).abs, fresh := false
          pps := if x.total < first + 3 then some (first + 2 - x.total) else none
          head := s.dev.ln P.tg_v_sync g + s.dev.ln P.tg_v_bp g, total := s.dev.liveView.vTotal g, markAt := (s.now t).abs, markLine := 0
          markPos := s.dev.linePos g (s.now t).abs x.total, width := s.dev.liveView.hTotal g })
         { d with pwr := { d.pwr with firstPour := some (d.pwr.firstPour.getD (s.now t).abs) } })))

/-- R237: the latch line of a frame passes once, when its line has come; with a reseat pending it transfers nothing (R246). R250: at a test
line of a stretched porch a pending change makes the line act as the latch line and end the porch; a pending reseat or stop ends it with cause
4 and the number of lines since the latch line, where the unit is not mirrored; while it is mirrored the cause is 5 (R251). -/
def Obligations.LatchAndTestLinesPass : Prop :=
  ∀ (s : State) (t g : Nat), s.dev.Calm → g < s.dev.nTx → (s.dev.tgen g).state = .running →
    ((s.dev.tgen g).latched = false → s.dev.atLine g (s.now t).abs (s.dev.frameLatch g) = true →
      Reaches s (.latchLine t g) (fun u =>
        (u.dev.tgen g).latched = true ∧ (u.dev.tgen g).latchAt = (s.now t).abs ∧ (u.dev.tgen g).state = .running ∧
        (u.dev.tgen g).pour = (s.dev.tgen g).pour ∧ (u.dev.tgen g).markLine = s.dev.frameLatch g ∧ u.mem = s.mem ∧ u.pending = s.pending ∧
        u.dev.par.committed = s.dev.par.committed ∧ u.dev.rx = s.dev.rx) ∧
      ((s.dev.tgen g).reseat = true →
        Reaches s (.latchLine t g) (fun u =>
          (u.dev.tgen g).latched = true ∧ (u.dev.tgen g).reseat = true ∧ (u.dev.tgen g).total = s.dev.frameTotal g ∧
          (∀ i, i ≠ g → u.dev.tgen i = s.dev.tgen i) ∧ u.dev.par = s.dev.par ∧ u.dev.dirty = s.dev.dirty ∧ u.dev.moulds = s.dev.moulds ∧
          u.dev.clk = s.dev.clk ∧ u.dev.cru = s.dev.cru ∧ u.dev.ctl = s.dev.ctl))) ∧
    (((s.dev.tgen g).latched = true ∨ s.dev.atLine g (s.now t).abs (s.dev.frameLatch g) = false) → Answers s (.latchLine t g) t s.dm.dev) ∧
    ((s.dev.tgen g).stretched = true → s.dev.atLine g (s.now t).abs (s.dev.frameLatch g + s.dev.ln P.tg_v_fp g) = true →
        s.dev.frameOver g (s.now t).abs = false →
      let line := (s.dev.rasterAt g (s.now t).abs periodUnits).1
      (s.dev.pair.mirrored = false → ((s.dev.tgen g).reseat || (s.dev.tgen g).stopping) = true →
        Answers s (.testLine t g) t ((s.dm.dev.onTg g (fun x =>
            { x with stretched := false, idleTold := false, unchanged := 0, news := none, changed := false, total := line + 1
                     markAt := (s.now t).abs, markLine := line, markPos := s.dev.linePos g (s.now t).abs line
                     width := s.dev.liveView.hTotal g })).raise
          (s.now t) 0x0808 g (leBytes 1 4 ++ [0] ++ leBytes 2 (line + 1 - s.dev.frameLatch g)))) ∧
      (s.dev.testCause (s.now t).abs g = none → Answers s (.testLine t g) t s.dm.dev) ∧
      ((s.dev.pair.mirrored = true ∨ s.dev.testCause (s.now t).abs g ≠ none) →
        Reaches s (.testLine t g) (fun u =>
          (u.dev.tgen g).stretched = false ∧ (u.dev.tgen g).unchanged = 0 ∧ (u.dev.tgen g).state = .running ∧
          (u.dev.tgen g).total = line + 1 ∧ (u.dev.tgen g).pour = (s.dev.tgen g).pour ∧ u.mem = s.mem ∧
          u.dev.par.committed = s.dev.par.committed)))

/-- R246: at t_e, when the frame of a running generator or the frame a source-2 port forwards is over, a reseating output enters the hold, which
ends `tg.reseat_hold_us` later, or with the pour that a snapshot named; its port, where it was in Run, leaves Run for Hold, or for Stop without
a source. R234: a generator that is to stop ends with its frame, or in its hold: its pour counter stands, its ladle is off where no
forwarding port needs it, and nothing of a reseat or a stop is left pending. -/
def Obligations.ReseatHoldsAndStopEnds : Prop :=
  ∀ (s : State) (t g : Nat), s.dev.Calm → g < s.dev.nTx →
    ((s.dev.tgen g).reseat = true → (s.dev.tgen g).stopping = false → (s.dev.tgen g).state ≠ .hold → s.dev.holdReady (s.now t) g = true →
      Reaches s (.reseatHoldStart t g) (fun u =>
        (u.dev.tgen g).state = .hold ∧ (u.dev.tgen g).reseat = true ∧ (u.dev.tgen g).starting = false ∧ (u.dev.tgen g).follow = none ∧
        ((s.dev.tgen g).follow = none → (u.dev.tgen g).holdEnd = (s.now t).abs + s.dev.cn P.tg_reseat_hold_us g * 800 ∧
          (u.dev.tgen g).pour = (s.dev.tgen g).pour) ∧
        ((s.dev.txp g).state = .run → (u.dev.txp g).state = if u.dev.ln P.txp_source g = 0 then .stop else .hold) ∧
        (∀ i, i ≠ g → u.dev.txp i = s.dev.txp i) ∧ u.mem = s.mem ∧ u.pending = s.pending ∧
        u.dev.par.committed = s.dev.par.committed ∧ u.dev.rx = s.dev.rx)) ∧
    ((s.dev.tgen g).stopping = true → ((s.dev.tgen g).state = .hold ∨ ((s.dev.tgen g).state = .running ∧ s.dev.frameOver g (s.now t).abs = true)) →
      Reaches s (.tgStop t g) (fun u =>
        (u.dev.tgen g).state = .stopped ∧ (u.dev.tgen g).stopping = false ∧ (u.dev.tgen g).reseat = false ∧
        (u.dev.tgen g).stretched = false ∧ (u.dev.tgen g).pour = (s.dev.tgen g).pour ∧
        (u.dev.ln P.txp_source g ≠ 2 → (u.dev.ladle g).on = false) ∧
        (∀ i, i ≠ g → u.dev.txp i = s.dev.txp i) ∧ u.mem = s.mem ∧ u.pending = s.pending ∧
        u.dev.par.committed = s.dev.par.committed ∧ u.dev.rx = s.dev.rx))

/-- R246, R28: when the hold is over and the cupola of the output's ladle has settled, the reseat is done: an output that goes on starts
its fresh frame under its next pour number at once, or after the port's deskew burst; one whose enable went, or that is shed, stands still. -/
def Obligations.ReseatRestartGivesTheFreshFrame : Prop :=
  ∀ (s : State) (t g : Nat), s.dev.Calm → g < s.dev.nTx → (s.dev.tgen g).state = .hold → (s.dev.tgen g).fresh = false →
    (s.dev.tgen g).holdEnd ≤ (s.now t).abs → (s.dev.cup (s.dev.ln P.ladle_cupola g)).state ∈ [.locked, .flywheel, .holdover] →
    Reaches s (.reseatRestart t g) (fun u =>
      (u.dev.tgen g).reseat = false ∧ (u.dev.tgen g).stopping = false ∧ u.mem = s.mem ∧ u.pending = s.pending ∧
      u.dev.par.committed = s.dev.par.committed ∧ u.dev.rx = s.dev.rx ∧ (∀ i, i ≠ g → u.dev.txp i = s.dev.txp i) ∧
      (u.dev.ln P.tg_enable g ≠ 1 ∨ (s.dev.tgen g).shed = true →
        (u.dev.tgen g).state = .stopped ∧ (u.dev.tgen g).pour = (s.dev.tgen g).pour) ∧
      (u.dev.ln P.tg_enable g = 1 → (s.dev.tgen g).shed = false → (u.dev.txp g).state = .deskew →
        (u.dev.tgen g).state = .hold ∧ (u.dev.tgen g).fresh = true ∧ (u.dev.tgen g).pour = (s.dev.tgen g).pour) ∧
      (u.dev.ln P.tg_enable g = 1 → (s.dev.tgen g).shed = false → (u.dev.txp g).state ≠ .deskew →
        (u.dev.tgen g).state = .running ∧ (u.dev.tgen g).latched = false ∧ (u.dev.tgen g).starting = false ∧
        (u.dev.tgen g).pour = if (s.dev.tgen g).started then (s.dev.tgen g).pour + 1 else 0))

/-- R205, R216: a layer that fetches and runs dry is transparent from that pixel on for the rest of its frame, and a consecutive
underrun of its own source is counted up to 255; one of a fallback buffer is no underrun of the layer's; one of an ingot ends the ingot (R227).
Fault 2 of R457 does the same and is counted and logged as a fault; a yield that follows it (R459) changes nothing of this. -/
def Obligations.RiserUnderrunHidesTheLayer : Prop :=
  ∀ (s : State) (t m k line x : Nat), s.dev.Calm → m < s.dev.nMould → k < 8 → (s.dev.mould m).composed = true → s.dev.fetches m k = true →
    Reaches s (.riserUnderrun t m k line x) (fun u =>
      (u.dev.layer m k).under = some (line, x) ∧
      (u.dev.layer m k).run = (if (s.dev.layer m k).shows = .fallback then (s.dev.layer m k).run else min ((s.dev.layer m k).run + 1) 255) ∧
      (u.dev.layer m k).hold = (s.dev.layer m k).hold ∧ (u.dev.mould m).underHeat = some s.tb.heat.toNat ∧
      (∀ j, j ≠ k → (u.dev.layer m j).hold = (s.dev.layer m j).hold ∧ (u.dev.layer m j).run = (s.dev.layer m j).run) ∧
      ((s.dev.layer m k).shows = .ingot → (u.dev.mould m).ingot.state = .idle ∧ ∀ j, (u.dev.layer m j).shows ≠ .ingot ∨ j ∉ (s.dev.mould m).ingot.set) ∧
      ((s.dev.layer m k).shows ≠ .ingot → (u.dev.layer m k).shows = (s.dev.layer m k).shows ∧ u.dev.cru = s.dev.cru ∧
        ∀ j, j ≠ k → u.dev.layer m j = s.dev.layer m j) ∧
      (∀ j, j ≠ m → u.dev.mould j = s.dev.mould j) ∧ u.mem = s.mem ∧ u.dev.par.committed = s.dev.par.committed ∧
      u.dev.par.live = s.dev.par.live ∧ u.dev.flt = s.dev.flt) ∧
    Reaches s (.flaskRiserEccError t m k line x) (fun u =>
      (u.dev.layer m k).under = some (line, x) ∧ u.dev.flt.counts = s.dev.flt.counts.modify 2 (fun c => min (c + 1) (2 ^ 32 - 1)) ∧
      bit (u.dev.sn P.flt_latched 0) 2 = true ∧ u.mem = s.mem ∧ u.dev.par.committed = s.dev.par.committed ∧
      ((s.dev.layer m k).shows ≠ .ingot → (∀ j, j ≠ k → u.dev.layer m j = s.dev.layer m j) ∧ u.dev.cru = s.dev.cru) ∧
      (s.dev.yields 2 = false → u.dev.flt.isActive 2 = true))

/-! ## Chapters 6 to 8 and 12: buffers, replay, ingots, integrity -/

/-- R184, R152: when a sprue's last chunk is written its slot becomes Complete under the buffer's next sequence, every other slot of
every buffer is as it was, and the sprue no longer drains. -/
def Obligations.SprueDrainCompletesTheSlot : Prop :=
  ∀ (s : State) (t i : Nat), s.dev.Calm → i < s.dev.nSprue → (s.dev.sprue i).draining = true →
    Reaches s (.sprueDrainComplete t i) (fun u =>
      (∀ b, s.dev.buf (s.dev.sprue i).acted.target = some b → (s.dev.sprue i).slot < b.slots.length →
        ∃ b', u.dev.buf (s.dev.sprue i).acted.target = some b' ∧ b'.counter = nextSeq b.counter ∧
        (b'.slot (s.dev.sprue i).slot).state = .complete ∧ (b'.slot (s.dev.sprue i).slot).seq = nextSeq b.counter ∧
        (b'.slot (s.dev.sprue i).slot).place = (b.slot (s.dev.sprue i).slot).place ∧
        (b'.slot (s.dev.sprue i).slot).doneAt = some (s.now t).abs ∧
        (∀ j, j ≠ (s.dev.sprue i).slot → b'.slot j = b.slot j)) ∧
      (∀ h, h ≠ (s.dev.sprue i).acted.target → u.dev.buf h = s.dev.buf h) ∧
      (u.dev.sprue i).draining = false ∧ (∀ j, j ≠ i → u.dev.sprue j = s.dev.sprue j) ∧
      u.mem = s.mem ∧ u.dev.par.committed = s.dev.par.committed ∧ u.dev.moulds = s.dev.moulds)

/-- R136, R171: at a frame start of its pacing source, taken once, a replay reader takes the newest complete frame its buffer offers, numbers
it from 1 to 65,535 and round again, whatever the stream entries do with it; once its last packet has left the reader holds no slot; where no
stream entry takes the reader nothing is sent. At no frame start of its source it does nothing. -/
def Obligations.ReplayTakesTheNewestFrame : Prop :=
  ∀ (s : State) (t r : Nat) (late : List (Nat × Nat)) (drops : List (Nat × BitVec 48 × BitVec 48)), s.dev.Calm → r < 16 →
    (s.dev.paceAt r (s.now t) = none → Answers s (.replayFrameStart t r ⟨late, drops⟩) t s.dm.dev) ∧
    (∀ start, s.dev.paceAt r (s.now t) = some start →
      ((s.dev.run.replay.getD r {}).startAt = some start → Answers s (.replayFrameStart t r ⟨late, drops⟩) t s.dm.dev) ∧
      (∀ k b, (s.dev.run.replay.getD r {}).startAt ≠ some start → s.dev.buf (rd (s.dev.replayCfg r) 0 2) = some b →
          b.newestUpTo (s.dev.selLimit (rd (s.dev.replayCfg r) 0 2)) = some k → s.dev.run.replay.length = 16 →
        Reaches s (.replayFrameStart t r ⟨late, drops⟩) (fun u =>
          (u.dev.run.replay.getD r {}).frameNo =
            (if 65535 ≤ (s.dev.run.replay.getD r {}).frameNo then 1 else (s.dev.run.replay.getD r {}).frameNo + 1) ∧
          (u.dev.run.replay.getD r {}).lastSeq = some (b.slot k).seq ∧ (u.dev.run.replay.getD r {}).startAt = some start ∧
          (u.dev.run.replay.getD r {}).slot = some (rd (s.dev.replayCfg r) 0 2, k) ∧
          (∀ j, j ≠ r → u.dev.run.replay.getD j {} = s.dev.run.replay.getD j {}) ∧ u.dev.par.committed = s.dev.par.committed ∧
          ((u.dev.run.replay.getD r {}).until_ ≤ (s.now t).abs →
            ∀ c h, c ∈ u.dev.cru.bufs → (c.slot h).holders.contains (.replay r) = false) ∧
          ((∀ e, e < 128 → ¬ (seOn (s.dev.stream e).e = true ∧ seKind (s.dev.stream e).e = 1 ∧ seSrc (s.dev.stream e).e = r)) →
            u.dev.run.streams = s.dev.run.streams ∧ u.dev.out = [] ∧ u.mem = s.mem ∧ u.dev.tx = s.dev.tx))))

/-- R161: the oldest accepted upload writes its bytes, and no other byte of the crucible, at its slot's addresses; its reply waits
for the next message window; with LAST the slot becomes Complete under the buffer's next sequence. Where its buffer is gone it writes
nothing. -/
def Obligations.UploadWritesItsBytes : Prop :=
  ∀ (s : State) (t : Nat) (p : PendingUpload) (rest : List PendingUpload), s.dev.Calm → s.Safe → s.dev.cru.uploads = p :: rest →
    Reaches s (.uploadWritten t) (fun u =>
      u.dev.cru.uploads = rest ∧ u.dev.ctl.held = s.dev.ctl.held ++ [p.reply] ∧ (s.dev.buf p.handle = none → u.mem = s.mem) ∧
      (∀ b, s.dev.buf p.handle = some b →
        (∀ a, (∀ i, i < p.data.length → (b.slot p.slot).addr (planeStart b.fmt b.height b.stride p.plane + p.offset + i) ≠ some a) →
          memRead u.mem a = memRead s.mem a) ∧
        ((∀ i j, i < j → j < p.data.length → (b.slot p.slot).addr (planeStart b.fmt b.height b.stride p.plane + p.offset + i) ≠
            (b.slot p.slot).addr (planeStart b.fmt b.height b.stride p.plane + p.offset + j)) →
          ∀ i a, i < p.data.length → (b.slot p.slot).addr (planeStart b.fmt b.height b.stride p.plane + p.offset + i) = some a →
            a < crucibleBytes → memRead u.mem a = p.data.getD i 0) ∧
        (p.slot < b.slots.length → ∃ b', u.dev.buf p.handle = some b' ∧
          (p.last = true → (b'.slot p.slot).state = .complete ∧ (b'.slot p.slot).seq = nextSeq b.counter) ∧
          (p.last = false → (b'.slot p.slot).state = (b.slot p.slot).state ∧ b'.counter = b.counter) ∧
          (∀ j, j ≠ p.slot → b'.slot j = b.slot j))) ∧
      (∀ h, h ≠ p.handle → u.dev.buf h = s.dev.buf h) ∧ u.dev.par.committed = s.dev.par.committed)

/-- R161: a slot left in Writing by an upload for `cru.upload_timeout_heats` becomes Empty, with 0x0605. R160: a granule awaiting
clearing reads as zero and is no longer awaited, and no byte outside it changes. -/
def Obligations.CrucibleSlotsAndGranulesAreEmptied : Prop :=
  ∀ (s : State) (t : Nat), s.dev.Calm → s.Safe →
    (∀ h i (b : Buf), s.dev.buf h = some b → (b.slot i).state = .writing → (b.slot i).byUpload = true →
        (b.slot i).lastUpload + s.dev.cn P.cru_upload_timeout_heats 0 ≤ s.tb.heat.toNat →
      Answers s (.uploadTimeout t h i) t ((s.dm.dev.onBufSlot h i (fun r =>
        { r with state := .empty, byUpload := false, seq := 0, upCrc := none })).raise (s.now t) 0x0605 0xFFFF (leBytes 2 h ++ leBytes 1 i))) ∧
    (∀ bank granule, bank < 64 → granule < 256 → (bank, granule) ∈ s.dev.cru.clearing →
      Reaches s (.granuleCleared t bank granule) (fun u =>
        { u.dev with cru := s.dev.cru } = s.dm.dev ∧
        { u.dev.cru with clearing := [], inject := none, injected := [] } = { s.dev.cru with clearing := [], inject := none, injected := [] } ∧
        (∀ double, s.dev.cru.inject = some (bank, double) → u.dev.cru.inject = none ∧ u.dev.cru.injected = s.dev.cru.injected ++ [(bank, double)]) ∧
        u.dev.cru.clearing = s.dev.cru.clearing.filter (fun g => g != (bank, granule)) ∧
        (∀ a, bank * 1048576 + granule * 4096 ≤ a → a < bank * 1048576 + granule * 4096 + 4096 → memRead u.mem a = 0) ∧
        (∀ a, ¬ (bank * 1048576 + granule * 4096 ≤ a ∧ a < bank * 1048576 + granule * 4096 + 4096) → memRead u.mem a = memRead s.mem a)))

/-- R168, R457: a single-bit error is corrected: counted, also for the heat's one 0x0601, logged as fault 0, and no byte
changes. A double-bit error gives zeros for its 64-bit group, is logged in the crucible and raised as fault 1. R169: a scrub pass is
counted once in a period while the scrubber is on. -/
def Obligations.CrucibleErrorsAndScrubbing : Prop :=
  ∀ (s : State) (t bank granule group : Nat), s.dev.Calm → s.Safe → bank < 64 → granule < 256 → group < 512 →
    (s.dev.yields 0 = false → s.dev.cru.injected = [] → s.dev.cru.corrected.length < s.dev.cn P.cru_ecc_rate_limit 0 →
      Answers s (.eccError t bank granule group false) t
        ((({ s.dm.dev with cru := { s.dev.cru with
            eccHeat := s.dev.cru.eccHeat.note (s.now t) (leBytes 1 bank), rateTold := false
            corrected := s.dev.cru.corrected.filter (fun h => decide (s.tb.heat.toNat < h + 8000)) ++ [s.tb.heat.toNat] } } : Dev).bumpField
          P.cru_ecc_counts 0 0 32 1).fault (s.now t) 0 bank (leBytes 2 granule) false)) ∧
    Reaches s (.eccError t bank granule group false) (fun u =>
      u.mem = s.mem ∧ u.dev.cru.eccHeat = s.dev.cru.eccHeat.note (s.now t) (leBytes 1 bank) ∧ u.dev.cru.bufs = s.dev.cru.bufs ∧
      u.dev.flt.counts = s.dev.flt.counts.modify 0 (fun c => min (c + 1) (2 ^ 32 - 1)) ∧ bit (u.dev.sn P.flt_latched 0) 0 = true ∧
      u.dev.par.committed = s.dev.par.committed) ∧
    Reaches s (.eccError t bank granule group true) (fun u =>
      (∀ i, i < 8 → memRead u.mem (bank * 1048576 + granule * 4096 + group * 8 + i) = 0) ∧
      (∀ a, ¬ (bank * 1048576 + granule * 4096 + group * 8 ≤ a ∧ a < bank * 1048576 + granule * 4096 + group * 8 + 8) →
        memRead u.mem a = memRead s.mem a) ∧
      (u.dev.cru.eccLog.getLast?.map (fun e => (e.bank, e.granule, e.time))) = some (bank, granule, s.now t) ∧
      u.dev.flt.counts = s.dev.flt.counts.modify 1 (fun c => min (c + 1) (2 ^ 32 - 1)) ∧ bit (u.dev.sn P.flt_latched 0) 1 = true ∧
      u.dev.par.committed = s.dev.par.committed ∧
      (s.dev.yields 1 = false → u.dev.flt.isActive 1 = true ∧ u.dev.rx = s.dev.rx ∧ u.dev.tx = s.dev.tx ∧ u.dev.tg = s.dev.tg)) ∧
    (s.dev.scrubDue (s.now t) = true →
      Answers s (.scrubPass t) t { s.dm.dev with cru := { s.dev.cru with
        scrubPass := min (s.dev.cru.scrubPass + 1) 65535, scrubbed := 0, scrubAt := some (s.now t).abs, scrubFirst := false } }) ∧
    (s.dev.scrubDue (s.now t) = false → Answers s (.scrubPass t) t s.dm.dev)

/-- R225: when an ingot's build is done its cache is Complete, the constituents' holds end, and the build counts among the rebuilds of
the last 8,000 heats. R268, R270: the level of REVERSE_IN is taken with 0x0908 when it changes, once
high for 16 samples or low for 80. -/
def Obligations.IngotBuildAndReverseInput : Prop :=
  ∀ (s : State) (t : Nat), s.dev.Calm →
    (∀ m, m < s.dev.nMould → m < s.dev.moulds.length → (s.dev.mould m).ingot.state = .building →
      Reaches s (.ingotBuildDone t m) (fun u =>
        (u.dev.mould m).ingot.state = .built ∧ (u.dev.mould m).ingot.cache.state = .complete ∧
        (u.dev.mould m).ingot.set = (s.dev.mould m).ingot.set ∧ (u.dev.mould m).layers = (s.dev.mould m).layers ∧
        (u.dev.mould m).ingot.rebuilds =
          (s.dev.mould m).ingot.rebuilds.filter (fun h => decide (s.tb.heat.toNat < h + 8000)) ++ [s.tb.heat.toNat] ∧
        (∀ h c, c ∈ u.dev.cru.bufs → (c.slot h).holders.contains (.ingot m) = false) ∧
        (∀ j, j ≠ m → u.dev.mould j = s.dev.mould j) ∧ u.dev.par = s.dev.par ∧ u.dev.ctl = s.dev.ctl)) ∧
    (∀ level, s.dev.integ.reverse ≠ level → (if level then 16 else 80) ≤ s.dev.integ.reverseRun →
      Answers s (.reverseInDebounce t level) t (({ s.dm.dev with integ := { s.dev.integ with reverse := level, reverseRun := 0 } } : Dev).raise
        (s.now t) 0x0908 0xFFFF (leBytes 1 (b2n level)))) ∧
    (∀ level, (s.dev.integ.reverse = level ∨ s.dev.integ.reverseRun < if level then 16 else 80) →
      Answers s (.reverseInDebounce t level) t s.dm.dev)

/-- R255, R256: once its last pixel has passed, the CRC of an enabled window of a mould that composes is the CRC-32 over its pixels' bytes,
taken once in a frame; with no expected values the result is 1, with its CRC among them 2 and the place of the one that matched, else 3, and
only a mismatch is counted. R261: a learning that is over with too many values is answered 0x8904, one that failed with its code; else the
commit of the values joins the checks that wait for a message window (R83); with its session gone it is dropped. -/
def Obligations.CheckWindowTakesItsCrc : Prop :=
  ∀ (s : State) (t inst m w : Nat), s.dev.Calm → inst = 8 * m + w → w < 8 → m < s.dev.nMould → m < s.dev.moulds.length →
    w < (s.dev.mould m).wins.length →
    ((s.dev.mould m).composed = true → (s.dev.mouldView m).winOn m w = true → s.dev.winShown m w = true → (s.dev.win m w).done = false →
        s.dev.winPassed m (s.now t).abs (rectOf ((s.dev.mouldView m).num P.chk_rect inst)) = true →
      let crc := (rectPixels s.dm m (rectOf ((s.dev.mouldView m).num P.chk_rect inst))).foldl
        (fun c p => crcFeed c (checkBytes p)) 0xFFFFFFFF#32 ^^^ 0xFFFFFFFF#32
      let exp := (s.dev.mouldView m).expected m w
      Reaches s (.checkWindowResult t inst) (fun u =>
        (u.dev.win m w).crc = crc ∧ (u.dev.win m w).done = true ∧
        (exp = [] → (u.dev.win m w).result = 1 ∧ (u.dev.win m w).misses = (s.dev.win m w).misses) ∧
        (∀ k, exp.findIdx? (fun e => e == crc.toNat) = some k →
          (u.dev.win m w).result = 2 ∧ (u.dev.win m w).matched = k ∧ (u.dev.win m w).misses = 0) ∧
        (exp ≠ [] → exp.findIdx? (fun e => e == crc.toNat) = none →
          (u.dev.win m w).result = 3 ∧ (u.dev.win m w).misses = min ((s.dev.win m w).misses + 1) 255) ∧
        (∀ j, j ≠ w → u.dev.win m j = s.dev.win m j) ∧ (∀ j, j ≠ m → u.dev.mould j = s.dev.mould j) ∧
        (u.dev.mould m).layers = (s.dev.mould m).layers ∧ u.dev.par.committed = s.dev.par.committed ∧ u.dev.par.live = s.dev.par.live ∧
        u.dev.cru.bufs = s.dev.cru.bufs ∧ u.dev.tg = s.dev.tg)) ∧
    (∀ l, (s.dev.mould m).learn = some l → s.dev.fwRuns = true → (l.failed ≠ 0 ∨ l.left = 0) →
      (((s.dev.slot (slotOf l.msg.j.session)).state ≠ .open ∨
          (s.dev.slot (slotOf l.msg.j.session)).id (slotOf l.msg.j.session) ≠ l.msg.j.session) →
        Answers s (.learnComplete t m) t (s.dm.dev.onMould m (fun x => { x with learn := none }))) ∧
      ((s.dev.slot (slotOf l.msg.j.session)).state = .open →
          (s.dev.slot (slotOf l.msg.j.session)).id (slotOf l.msg.j.session) = l.msg.j.session →
        ((l.failed ≠ 0 ∨ 4 < l.values.length) →
          Answers s (.learnComplete t m) t ((s.dm.dev.onMould m (fun x => { x with learn := none })).reject l.msg
            (if l.failed ≠ 0 then l.failed else 0x8904))) ∧
        (l.failed = 0 → l.values.length ≤ 4 →
          let i := slotOf l.msg.j.session
          Answers s (.learnComplete t m) t (((s.dm.dev.onMould m (fun x => { x with learn := none })).onSlot i
            (fun x => { x with nextTxn := nextTxnId x.nextTxn })).queueCheck (l.job m (s.dev.slot i).nextTxn)))))

/-! ## Chapter 13: clocks -/

/-- R276: a band that a search finds is stored as the most recently used and the cupola acquires on it; a stored band that has not locked
within 15 µs and `cupola.lock_n` periods is discarded and searched for anew. R277: a cupola that has acquired for `cupola.lock_n`
periods locks with 0x0A05 and records its hold code, and no other cupola changes. -/
def Obligations.CupolasSearchAcquireAndLock : Prop :=
  ∀ (s : State) (t k : Nat), s.dev.Calm →
    (∀ band, (s.dev.cup k).state = .search →
      Answers s (.bandSearchDone t k band) t (s.dm.dev.onCup k (fun c => { c with
        state := .acquire, since := (s.now t).abs, band := band % 64, fromMem := false
        mem := ((⟨c.n, band % 64⟩ : Band) :: c.mem.filter (fun b => b.n != c.n)).take 16 }))) ∧
    ((s.dev.cup k).state = .acquire → (s.dev.cup k).since + 12000 + 32 * s.dev.cn P.cupola_lock_n k ≤ (s.now t).abs →
      Answers s (.cupolaLockTimeout t k) t (s.dm.dev.onCup k (fun c => { c with
        mem := c.mem.filter (fun b => b.n != c.n), state := .search, since := (s.now t).abs, fromMem := false }))) ∧
    (∀ code, k < 4 → (s.dev.cup k).state = .acquire → s.dev.lockDue (s.now t) k = true →
      Reaches s (.cupolaLock t k code) (fun u =>
        u.dev.cup k = { s.dev.cup k with state := .locked, since := (s.now t).abs, holdCode := code, qualified := code } ∧
        (∀ j, j ≠ k → u.dev.cup j = s.dev.cup j) ∧ u.dev.clk.ladles = s.dev.clk.ladles ∧ u.dev.rx = s.dev.rx ∧ u.dev.tg = s.dev.tg ∧
        u.dev.par.committed = s.dev.par.committed ∧ u.mem = s.mem)) ∧
    (∀ code, k < 4 → ((s.dev.cup k).state ≠ .acquire ∨ s.dev.lockDue (s.now t) k = false) → Answers s (.cupolaLock t k code) t s.dm.dev)

/-- R277: a cupola other than 0 that loses lock on a qualified reference, its error four times outside the window, is counted and searches or acquires again, its loss is raised
with 0x0A06 and stands as fault 10, and every running output whose ladle it clocks goes into the hold of a reseat; the loss of cupola 0
restarts the device (fault 11): it is in Reset, with reset cause 3, and the crucible lists no byte. -/
def Obligations.CupolaLossHoldsItsOutputs : Prop :=
  ∀ (s : State) (t k : Nat) (err : Int), s.dev.Calm → s.dev.clk.ref.lost = false → (s.dev.cup k).state = .locked →
    4 * s.dev.cn P.cupola_lock_win_ps k < err.natAbs →
    (k ≠ 0 → k < 4 →
      Reaches s (.cupolaLossOfLock t k err) (fun u =>
        ((u.dev.cup k).state = .search ∨ (u.dev.cup k).state = .acquire) ∧
        (u.dev.cup k).losses = min ((s.dev.cup k).losses + 1) 65535 ∧ u.dev.flt.isActive 10 = true ∧
        (∀ g, g < s.dev.nTx → s.dev.ln P.ladle_cupola g = k → (s.dev.tgen g).state = .running → (u.dev.tgen g).state = .hold) ∧
        (∀ g, g < 16 → s.dev.ln P.ladle_cupola g ≠ k → u.dev.txp g = s.dev.txp g) ∧
        u.dev.rx = s.dev.rx ∧ u.dev.par.committed = s.dev.par.committed ∧ u.mem = s.mem)) ∧
    (k = 0 →
      Reaches s (.cupolaLossOfLock t k err) (fun u =>
        u.dev.pwr.mode = .reset ∧ u.dev.sn P.dev_reset_cause 0 = 3 ∧ u.mem = [] ∧ u.dev.otp = s.dev.otp ∧ u.dev.flash = s.dev.flash ∧
        (∀ i, (u.dev.slot i).state = .free) ∧ (∀ g, (u.dev.txp g).state = .off) ∧ u.pending = s.pending))

/-- R280: a glitch of the reference is counted, also for the heat's one 0x0A03, and puts every locked cupola into Flywheel, from
which R278 brings them back through Acquire after 8 periods without one. R281: a loss puts every enabled cupola into Holdover with 0x0A01, for
cause 2 with the code last qualified; cause 3 takes a glitch run of 64 periods. -/
def Obligations.ReferenceGlitchesAndLosses : Prop :=
  ∀ (s : State) (t : Nat), s.dev.Calm →
    Answers s (.referenceGlitch t) t
      (let d := (s.dm.dev.onRef (fun r => { r with glitches := r.glitches.note (s.now t) [], lastGlitch := (s.now t).abs })).bumpField
        P.cupola_ref_stats 0 0 32 1
       { d with clk := { d.clk with cups := s.dev.clk.cups.map (fun c =>
          if c.state = .locked then { c with state := .flywheel, since := (s.now t).abs } else c) } }) ∧
    (s.dev.clk.ref.lastGlitch + 8 * 32 ≤ (s.now t).abs →
      Answers s (.flywheelRecover t) t { s.dm.dev with clk := { s.dev.clk with cups := s.dev.clk.cups.map (fun c =>
        if c.state = .flywheel then { c with state := .acquire, since := (s.now t).abs, begun := (s.now t).abs } else c) } }) ∧
    ((s.now t).abs < s.dev.clk.ref.lastGlitch + 8 * 32 → Answers s (.flywheelRecover t) t s.dm.dev) ∧
    (∀ cause, s.dev.clk.ref.lost = false → cause ∈ [1, 2, 3] → (cause = 3 → s.dev.glitchRun (s.now t) = true) →
      Reaches s (.referenceLoss t cause) (fun u =>
        u.dev.clk.ref.lost = true ∧ u.dev.clk.ref.cause = cause ∧ u.dev.clk.ref.since = (s.now t).abs ∧
        (∀ k, (s.dev.cup k).state ≠ .off → (u.dev.cup k).state = .holdover ∧
          (u.dev.cup k).holdCode = if cause = 2 then (s.dev.cup k).qualified else (s.dev.cup k).holdCode) ∧
        (∀ k, (s.dev.cup k).state = .off → u.dev.cup k = s.dev.cup k) ∧ u.dev.clk.ladles = s.dev.clk.ladles ∧
        u.dev.par.committed = s.dev.par.committed ∧ u.dev.rx = s.dev.rx ∧ u.mem = s.mem)) ∧
    (∀ cause, (s.dev.clk.ref.lost = true ∨ (cause = 3 ∧ s.dev.glitchRun (s.now t) = false)) →
      Answers s (.referenceLoss t cause) t s.dm.dev)

/-- R281: a holdover longer than `cupola.holdover_limit_ms` is told once with 0x0A04 and its length, and is a cause of Degraded. R282,
R283: a lost reference that qualifies again has its error recorded and its relock planned, outside a pair for the next heat
boundary, by an active unit with the link up for one its peer can be told of; an aligned follower waits for RELOCK (R284). -/
def Obligations.HoldoverEndsByRequalification : Prop :=
  ∀ (s : State) (t : Nat), s.dev.Calm → s.dev.clk.ref.lost = true →
    (s.dev.clk.ref.limitTold = false → s.dev.cn P.cupola_holdover_limit_ms 0 ≤ ((s.now t).abs - s.dev.clk.ref.since) / msCycles →
      Answers s (.holdoverLimit t) t (((s.dm.dev.onRef (fun r => { r with limitTold := true })).raise (s.now t) 0x0A04 0xFFFF
        (leBytes 4 (((s.now t).abs - s.dev.clk.ref.since) / msCycles))).degrade 1)) ∧
    (s.dev.clk.ref.limitTold = true → Answers s (.holdoverLimit t) t s.dm.dev) ∧
    (∀ e, s.dev.clk.ref.relockAt = none → s.dev.requalDue (s.now t) e = true → s.dev.pairOn = false → s.dev.pair.role = .single →
      Answers s (.referenceRequalified t e) t
        ((s.dm.dev.onRef (fun r => { r with err := e, relockAt := some (s.tb.heat.toNat + 1) })).bumpField P.cupola_ref_stats 0 48 16 1)) ∧
    (∀ e, s.dev.clk.ref.relockAt = none → s.dev.requalDue (s.now t) e = true →
      Reaches s (.referenceRequalified t e) (fun u =>
        u.dev.clk.ref.err = e ∧ u.dev.clk.ref.lost = true ∧
        u.dev.clk.ref.relockAt = (if s.dev.pair.role = .standby ∧ s.dev.work.aligned = true ∧ s.dev.mor.up = true then none
          else some (s.dev.relockHeat (s.now t))) ∧
        u.dev.clk.cups = s.dev.clk.cups ∧ u.dev.clk.ladles = s.dev.clk.ladles ∧ u.dev.par.committed = s.dev.par.committed ∧ u.mem = s.mem)) ∧
    (∀ e, s.dev.requalDue (s.now t) e = false → Answers s (.referenceRequalified t e) t s.dm.dev)

/-- R285, R288 to R290: a ladle whose rotation exceeds 12.5 % takes the next divider where that makes it smaller; a glide that
has reached its goal ends on the exact target, with 0x0806 for a pixel clock; the loop of a profile begins again, with the profile that waits
for it; and a rotator fault leaves the ladle dividing, as fault 12 and a cause of Degraded. -/
def Obligations.LadlesGlideRecentreAndFallBack : Prop :=
  ∀ (s : State) (t i : Nat), s.dev.Calm →
    (∀ f0, (s.dev.ladle i).gliding = some f0 →
        (s.dev.targetRot i - (s.dev.ladle i).base).natAbs * heatCycles ≤ s.dev.glideStep i f0 * t →
      (s.dev.nTx ≤ i →
        Answers s (.glideEnd t i) t (s.dm.dev.onLadle i (fun l => { l with base := s.dev.targetRot i, gliding := none }))) ∧
      (i < s.dev.nTx →
        Answers s (.glideEnd t i) t (((if (s.dev.tgen i).state = .running then s.dm.dev.markRaster i (s.now t).abs else s.dm.dev).onLadle i
          (fun l => { l with base := s.dev.targetRot i, gliding := none })).raise (s.now t) 0x0806 i (leBytes 4 (s.dev.ladle i).target)))) ∧
    (∀ dv, (s.dev.ladle i).on = true → (s.dev.ladle i).dividing = false → 2 ^ 45 < (s.dev.ladle i).base.natAbs →
        dv = (if (s.dev.ladle i).base < 0 then (s.dev.ladle i).d + 1 else (s.dev.ladle i).d - 1) → 4 ≤ dv → dv ≤ 4096 →
        (rebase (s.dev.ladle i).base (s.dev.ladle i).d dv).natAbs < (s.dev.ladle i).base.natAbs →
      Answers s (.ladleRecentre t i) t ((s.dm.dev.onLadle i (fun l => { l with
        d := dv, base := rebase l.base l.d dv })).bumpField P.ladle_stats i 0 32 1)) ∧
    (let loop := max 1 (profLoop (profSegs (s.dev.ladle i).profile))
     (s.dev.ladle i).profile ≠ [] → (s.dev.ladle i).profAt + loop ≤ (s.now t).abs →
      Answers s (.ladleProfileLoopEnd t i) t (s.dm.dev.onLadle i (fun l => { l with
        profile := l.nextProf.getD l.profile, profAt := l.profAt + ((s.now t).abs - l.profAt) / loop * loop, ssc0 := 0, nextProf := none }))) ∧
    ((s.dev.ladle i).on = true → (s.dev.ladle i).dividing = false →
      Reaches s (.ladleRotatorFault t i) (fun u =>
        (u.dev.ladle i).dividing = true ∧ (u.dev.ladle i).faulted = true ∧ 4 ≤ (u.dev.ladle i).d ∧ (u.dev.ladle i).d ≤ 4096 ∧
        (u.dev.ladle i).base = 0 ∧ (u.dev.ladle i).gliding = none ∧ (∀ j, j ≠ i → u.dev.ladle j = s.dev.ladle j) ∧
        u.dev.flt.isActive 12 = true ∧ bit (u.dev.sn P.dev_degraded_causes 0) 5 = true ∧ u.dev.clk.cups = s.dev.clk.cups ∧
        u.dev.par.committed = s.dev.par.committed ∧ u.mem = s.mem))

/-- R294: an FSYNC output gives its pulse where its schedule has one, its last has ended and its pins are not held, and counts it; otherwise
nothing. R235: the pulse of an output timed by a generator is its V sync at the level `tg.polarity` gives. -/
def Obligations.FsyncPulsesOnSchedule : Prop :=
  ∀ (s : State) (t i : Nat), s.dev.Calm →
    (i < 8 → s.dev.fsyncDue (s.now t) i = true → s.dev.pinsHeld 0 = false → s.dev.clk.fsyncEnd.getD i 0 ≤ (s.now t).abs →
      Answers s (.fsyncPulse t i) t ((({ s.dm.dev with clk := { s.dev.clk with
          fsyncEnd := modAt s.dev.clk.fsyncEnd i (fun _ => (s.now t).abs + s.dev.cn P.fsync_width_us i * 800) } } : Dev).say
        (.fsync i (s.dev.cn P.fsync_width_us i) (bit (s.dev.cn P.fsync_ctrl i) 0) (bit (s.dev.cn P.fsync_ctrl i) 1)
          (if s.dev.cn P.fsync_source i % 4 = 1 then some (bit (s.dev.ln P.tg_polarity (s.dev.cn P.fsync_source i / 16 % 16)) 1) else none))).bump
        P.fsync_status i)) ∧
    ((s.dev.fsyncDue (s.now t) i = false ∨ s.dev.pinsHeld 0 = true ∨ (s.now t).abs < s.dev.clk.fsyncEnd.getD i 0) →
      Answers s (.fsyncPulse t i) t s.dm.dev)

/-! ## Chapter 14: audio -/

/-- R307, R309: on a running slave port an FSYNC edge counts a frame, sends one, takes the masks of the last boundary (R310) and, but for the
first since the restart, receives the frame that ended or counts it as a framing error when it had too few bit clocks; a port that is to stop
stops with it (R308); on a port whose clock stopped it is timed alone. A clock that stays away stops the port with 0x0B05, and 8 good periods
restart it with empty receive queue and primed transmit queue. -/
def Obligations.SerialPortsFollowTheirClock : Prop :=
  ∀ (s : State) (t p : Nat), s.dev.Calm → s.dev.sapMaster p = false →
    (∀ clocks slots, (s.dev.sap p).state = 1 → (s.dev.sap p).stopping = false →
      Reaches s (.sapFsyncEdge t p clocks slots) (fun u =>
        (u.dev.sap p).frame = (s.dev.sap p).frame + 1 ∧ (u.dev.sap p).lastEdge = some (s.now t).abs ∧ (u.dev.sap p).state = 1 ∧
        (u.dev.sap p).tx = (s.dev.sap p).tx.pop.2 ∧ u.dev.out.length = 1 ∧
        (u.dev.sap p).rxMask = (s.dev.sap p).nextRx ∧ (u.dev.sap p).txMask = (s.dev.sap p).nextTx ∧
        (((s.dev.sap p).lastEdge = none ∨ clocks < s.dev.sapBits p) → (u.dev.sap p).rx = (s.dev.sap p).rx) ∧
        ((s.dev.sap p).lastEdge ≠ none → s.dev.sapBits p ≤ clocks → (s.dev.sap p).rx.q.length < 64 →
          (u.dev.sap p).rx.q = (s.dev.sap p).rx.q ++ [s.dev.sapFrame p slots (s.now t).abs]) ∧
        (∀ q, q ≠ p → u.dev.sap q = s.dev.sap q) ∧
        ((s.dev.sap p).rxMask = (s.dev.sap p).nextRx → (s.dev.sap p).txMask = (s.dev.sap p).nextTx → u.dev.ctl = s.dev.ctl) ∧
        u.dev.par.committed = s.dev.par.committed ∧ u.mem = s.mem)) ∧
    (∀ clocks slots, (s.dev.sap p).state = 1 → (s.dev.sap p).stopping = true →
      Reaches s (.sapFsyncEdge t p clocks slots) (fun u =>
        (u.dev.sap p).state = 0 ∧ (u.dev.sap p).rx.q = [] ∧ (u.dev.sap p).tx.q = [] ∧ (∀ q, q ≠ p → u.dev.sap q = s.dev.sap q) ∧
        u.dev.ctl = s.dev.ctl ∧ u.dev.out = [] ∧ u.dev.par.committed = s.dev.par.committed ∧ u.mem = s.mem)) ∧
    (∀ clocks slots, (s.dev.sap p).state = 2 →
      Reaches s (.sapFsyncEdge t p clocks slots) (fun u =>
        (u.dev.sap p).state = 2 ∧ (u.dev.sap p).lastEdge = some (s.now t).abs ∧ (u.dev.sap p).frame = (s.dev.sap p).frame ∧
        (∀ e, (s.dev.sap p).lastEdge = some e →
          (u.dev.sap p).good = if goodPeriod (s.dev.cn P.sap_rate_hz p) ((s.now t).abs - e) = true then (s.dev.sap p).good + 1 else 0) ∧
        (∀ q, q ≠ p → u.dev.sap q = s.dev.sap q) ∧ u.dev.ctl = s.dev.ctl ∧ u.dev.par = s.dev.par ∧ u.mem = s.mem)) ∧
    ((s.dev.sap p).state = 1 → ((s.dev.sap p).lastEdge.getD (s.dev.sap p).holdTo) + (s.dev.sap p).stopAfter ≤ (s.now t).abs →
      Answers s (.sapClockStop t p) t ((s.dm.dev.onSap p (fun x => { x with state := 2, good := 0, rate := 0 })).raise
        (s.now t) 0x0B05 p [1])) ∧
    ((s.dev.sap p).state = 2 → 8 ≤ (s.dev.sap p).good →
      Reaches s (.sapClockResume t p) (fun u =>
        (u.dev.sap p).state = 1 ∧ (u.dev.sap p).rx.q = [] ∧ (u.dev.sap p).tx.q.length = primeFrames (s.dev.cn P.sap_rate_hz p) ∧
        (u.dev.sap p).frame = 0 ∧ (∀ q, q ≠ p → u.dev.sap q = s.dev.sap q) ∧ u.dev.par.committed = s.dev.par.committed ∧ u.mem = s.mem))

/-- R310: on a running port the masks of the last boundary apply together, with 0x0B0C for each direction that changed and none for one that
did not. R314: a microphone stuck for 1 ms is told once. R316: a tundish without input for 2 heats, or out of range, holds or mutes with
0x0B07. -/
def Obligations.AudioMasksAndHolds : Prop :=
  ∀ (s : State) (t i : Nat), s.dev.Calm →
    ((s.dev.sap i).state = 1 →
      let d := s.dm.dev.onSap i (fun x => { x with rxMask := x.nextRx, txMask := x.nextTx })
      let d := if (s.dev.sap i).rxMask = (s.dev.sap i).nextRx then d
        else d.raise (s.now t) 0x0B0C i (leBytes 1 0 ++ leBytes 2 (s.dev.sap i).nextRx ++ leBytes 2 (s.dev.sap i).frame.toNat)
      Answers s (.slotMaskApply t i) t (if (s.dev.sap i).txMask = (s.dev.sap i).nextTx then d
        else d.raise (s.now t) 0x0B0C i (leBytes 1 1 ++ leBytes 2 (s.dev.sap i).nextTx ++ leBytes 2 (s.dev.sap i).frame.toNat))) ∧
    ((s.dev.sap i).state ≠ 1 → Answers s (.slotMaskApply t i) t s.dm.dev) ∧
    (∀ mic level, (s.dev.pdm i).on = true → (s.dev.pdm i).since + msCycles ≤ (s.now t).abs → mic < 2 → bit (s.dev.pdm i).stuck mic = false →
      Answers s (.pdmStuck t i mic level) t ((s.dm.dev.onPdm i (fun x => { x with stuck := setBit x.stuck mic true })).raise
        (s.now t) 0x0B0D i (leBytes 1 mic ++ leBytes 1 (b2n level)))) ∧
    (∀ mic level, bit (s.dev.pdm i).stuck mic = true → Answers s (.pdmStuck t i mic level) t s.dm.dev) ∧
    (∀ out, ((s.dev.tun i).state = 1 ∨ (s.dev.tun i).state = 2) → (out = true ∨ 2 ≤ (s.dev.tun i).idle) →
      Answers s (.tundishHold t i out) t ((s.dm.dev.onTun i (fun x => { x with
          state := if out || bit (s.dev.cn P.tundish_ctrl i) 4 then 4 else 3, ramp := 0 })).raise
        (s.now t) 0x0B07 i (leBytes 1 (if out || bit (s.dev.cn P.tundish_ctrl i) 4 then 4 else 3) ++
          leBytes 4 (s.dev.tunPpm i))))

/-- R65, R312: a queue whose pointers disagree is empty from then on, as fault 7: a serial port's receive or transmit queue, a tundish's input
or output queue, an embedded-audio queue, a session's mailbox or the one before a session, or a session's event queue, whose entries are lost
and whose first entry is then 0x0205. R321: a formed audio packet leaves on the inserter's port with its virtual channel and data type: in a
line of a source-1 port's raster, and with the forwarded packets of a source-2 port; until then it waits. -/
def Obligations.QueuesAreResetAndAudioIsSent : Prop :=
  ∀ (s : State) (t i : Nat), s.dev.Calm →
    (∀ w,
      (i < 12 →
        Reaches s (.queuePointerMismatch t 1 ⟨i, w⟩) (fun u => (u.dev.sap i).rx.q = [] ∧ (u.dev.sap i).tx = (s.dev.sap i).tx ∧
          (∀ j, j ≠ i → u.dev.sap j = s.dev.sap j) ∧ u.dev.flt.isActive 7 = true ∧ u.mem = s.mem ∧ u.dev.par.committed = s.dev.par.committed) ∧
        Reaches s (.queuePointerMismatch t 2 ⟨i, w⟩) (fun u => (u.dev.sap i).tx.q = [] ∧ (u.dev.sap i).rx = (s.dev.sap i).rx ∧
          (∀ j, j ≠ i → u.dev.sap j = s.dev.sap j) ∧ u.dev.flt.isActive 7 = true ∧ u.mem = s.mem ∧
          u.dev.par.committed = s.dev.par.committed)) ∧
      (i < 16 → Reaches s (.queuePointerMismatch t 3 ⟨i, w⟩) (fun u => (u.dev.tun i).inq.q = [] ∧ (u.dev.tun i).outq = (s.dev.tun i).outq ∧
        (∀ j, j ≠ i → u.dev.tun j = s.dev.tun j) ∧ u.dev.flt.isActive 7 = true ∧ u.dev.aud.saps = s.dev.aud.saps ∧ u.mem = s.mem)) ∧
      (i < 16 → Reaches s (.queuePointerMismatch t 3 ⟨i + 16, w⟩) (fun u => (u.dev.tun i).outq.q = [] ∧ (u.dev.tun i).inq = (s.dev.tun i).inq ∧
        (∀ j, j ≠ i → u.dev.tun j = s.dev.tun j) ∧ u.dev.flt.isActive 7 = true ∧ u.dev.aud.saps = s.dev.aud.saps ∧ u.mem = s.mem)) ∧
      (i < 8 → Reaches s (.queuePointerMismatch t 4 ⟨i, w⟩) (fun u => (u.dev.eaud i).q.q = [] ∧ (u.dev.eaud i).formed = (s.dev.eaud i).formed ∧
        (∀ j, j ≠ i → u.dev.eaud j = s.dev.eaud j) ∧ u.dev.flt.isActive 7 = true ∧ u.dev.aud.saps = s.dev.aud.saps ∧ u.mem = s.mem)) ∧
      (i < 32 → i < s.dev.ctl.slots.length →
        Reaches s (.queuePointerMismatch t 5 ⟨i, w⟩) (fun u => (u.dev.slot i).inbox = [] ∧
          (∀ j, j ≠ i → (u.dev.slot j).inbox = (s.dev.slot j).inbox) ∧ u.dev.flt.isActive 7 = true ∧ u.dev.aud = s.dev.aud) ∧
        ((s.dev.slot i).state = .open → (s.dev.slot i).ev.wants 0x0205 = true →
          Reaches s (.queuePointerMismatch t 6 ⟨i, w⟩) (fun u =>
            (u.dev.slot i).ev.entries.head?.map (fun e => (e.code, e.inst)) = some (0x0205, 0xFFFF) ∧
            (u.dev.slot i).ev.lost = min ((s.dev.slot i).ev.lost + (s.dev.slot i).ev.entries.length + b2n w) 65535 ∧
            (∀ j, (u.dev.slot j).inbox = (s.dev.slot j).inbox) ∧ u.dev.flt.isActive 7 = true ∧ u.dev.aud = s.dev.aud))) ∧
      Reaches s (.queuePointerMismatch t 7 ⟨i, w⟩) (fun u => u.dev.ctl.pre = [] ∧ (∀ j, (u.dev.slot j).inbox = (s.dev.slot j).inbox) ∧
        u.dev.flt.isActive 7 = true ∧ u.dev.aud = s.dev.aud)) ∧
    (∀ pl, (s.dev.eaud i).formed = some pl →
      let o := s.dev.cn P.eaud_ctrl i / 2 ^ 20 % 16
      let p : Packet := ⟨s.dev.cn P.eaud_ctrl i / 2 ^ 16 % 16, s.dev.cn P.eaud_ctrl i / 2 ^ 8 % 64, false, 0, pl, false⟩
      (s.dev.eaudMode i = 2 → (s.dev.txp o).state = .run → s.dev.ln P.txp_source o = 1 → s.dev.audioLine (s.now t) i o = true →
        Reaches s (.audioPacketSend t i) (fun u =>
          u.dev.out = [.packet o p] ∧ (u.dev.eaud i).sentIn = some ((s.dev.tgen o).pour.toNat, s.dev.lineOf o (s.now t).abs) ∧
          ((s.dev.eaud i).q.q.length < max 1 (bits (s.dev.cn P.eaud_ctrl i) 40 7) →
            (u.dev.eaud i).formed = none ∧ (u.dev.eaud i).q = (s.dev.eaud i).q) ∧
          (∀ j, j ≠ i → u.dev.eaud j = s.dev.eaud j) ∧ (∀ j, j ≠ o → u.dev.txp j = s.dev.txp j) ∧ u.dev.par = s.dev.par ∧ u.mem = s.mem)) ∧
      (s.dev.eaudMode i = 2 → (s.dev.txp o).state = .run → s.dev.ln P.txp_source o = 2 → o < s.dev.run.outs.length →
        Reaches s (.audioPacketSend t i) (fun u =>
          ((∃ q ∈ (u.dev.routeOut o).fifo, q.pkt = p ∧ q.entry = 128) ∨ Out.packet o p ∈ u.dev.out) ∧
          ((s.dev.eaud i).q.q.length < max 1 (bits (s.dev.cn P.eaud_ctrl i) 40 7) →
            (u.dev.eaud i).formed = none ∧ (u.dev.eaud i).q = (s.dev.eaud i).q) ∧
          (∀ j, j ≠ i → u.dev.eaud j = s.dev.eaud j) ∧ (∀ j, j ≠ o → u.dev.routeOut j = s.dev.routeOut j) ∧ u.dev.par = s.dev.par ∧
          u.mem = s.mem)) ∧
      ((s.dev.eaudMode i ≠ 2 ∨ (s.dev.txp o).state ≠ .run ∨ (s.dev.ln P.txp_source o = 1 ∧ s.dev.audioLine (s.now t) i o = false)) →
        Answers s (.audioPacketSend t i) t s.dm.dev))

/-! ## Chapter 15: the Morcel link -/

/-- R334: the receiver's stages are passed in order: a stage achieved within its bound gives the next with what it found (inversion at stage
3, the lane map at stage 5, codes, skew and eye of every lane at stage 6); with the far receiver at stage 7 the link is then up (R335). A stage
whose timer expires is told with 0x0C22 and keeps its value until 1 ms later (log entry 55), when the receiver is at stage 1 again. -/
def Obligations.MorcelReceiverClimbsItsStages : Prop :=
  ∀ (s : State) (t inverted map : Nat) (skew ctle eye : List Nat), s.dev.Calm → 1 ≤ s.dev.mor.stage → s.dev.mor.stage < 7 →
    (s.dev.mor.retryAt = none → s.dev.mor.stageAt + stageLeast s.dev.mor.stage ≤ (s.now t).abs →
        (s.dev.mor.stage ≠ 1 → (s.now t).abs ≤ s.dev.mor.stageAt + stageBound s.dev.mor.stage) →
        (s.dev.mor.stage = 5 → mapOk map = true) → (s.dev.mor.stage = 6 → ∀ k ∈ skew, k ≤ 8) →
      Reaches s (.morStageComplete t inverted map skew ctle eye) (fun u =>
        u.dev.mor.stage = s.dev.mor.stage + 1 ∧ u.dev.mor.stageAt = (s.now t).abs ∧ u.dev.mor.retryAt = none ∧
        u.dev.mor.inverted = (if s.dev.mor.stage = 3 then inverted % 256 else s.dev.mor.inverted) ∧
        u.dev.mor.map = (if s.dev.mor.stage = 5 then map % 2 ^ 24 else s.dev.mor.map) ∧
        (s.dev.mor.stage = 6 → ∀ i, i < 8 → (u.dev.morLane i).skew = skew.getD i 0 % 256 ∧
          (u.dev.morLane i).ctle = ctle.getD i 0 % 256 ∧ (u.dev.morLane i).eye = eye.getD i 0 % 256) ∧
        (s.dev.mor.stage ≠ 6 → u.dev.mor.lanes = s.dev.mor.lanes) ∧
        (s.dev.mor.stage = 6 → s.dev.mor.farState = 7 → u.dev.mor.up = true) ∧
        (s.dev.mor.farState ≠ 7 → u.dev.mor.up = s.dev.mor.up ∧ u.dev.pair = s.dev.pair) ∧
        u.mem = s.mem ∧ u.pending = s.pending ∧ u.dev.par.committed = s.dev.par.committed)) ∧
    (∀ cause lane, s.dev.mor.retryAt = none → s.dev.mor.stageAt + stageBound s.dev.mor.stage ≤ (s.now t).abs →
        (cause = 1 ∨ (cause = 2 ∧ s.dev.mor.stage = 5) ∨ (cause = 3 ∧ s.dev.mor.stage = 6)) →
      Answers s (.morStageTimeout t cause lane) t
        ((s.dm.dev.raise (s.now t) 0x0C22 whole (leBytes 1 s.dev.mor.stage ++ leBytes 1 cause ++ leBytes 1 lane)).onMor (fun m =>
          { m with retryAt := some ((s.now t).abs + 800000) }))) ∧
    (∀ r, s.dev.mor.retryAt = some r → r ≤ (s.now t).abs →
      Answers s (.morTrainingDeadline t) t (s.dm.dev.onMor (fun m => { m with stage := 1, stageAt := r, retryAt := none })))

/-- R332: TRAIN gives the far taps and the far engine's DONE, and the request it carries, where one is due and taken, moves this transmitter's
taps by one step inside 0 to 31, or to their initial values, unless they are fixed. R335: 2 ms after the far receiver's stage 6, or with every
lane's DONE, a transmitter whose own receiver is at stage 6 leaves training. R336: LINKSTAT gives the far receiver's state; the link is up once
both are at stage 7; a fall from stage 7 puts the transmitter into training again and the link down. R337: a detector that fires at stage 7
sends the receiver to stage 1, and both directions train. That a fall needs the far receiver at stage 7 before is the model's reading (log
entry 55). -/
def Obligations.MorcelTrainsComesUpAndIsLost : Prop :=
  (∀ code req init, code < 32 →
    (tapStep false code 0 init).1 = code ∧ (tapStep false code 1 init).1 = min (code + 1) 31 ∧ (tapStep false code 2 init).1 = code - 1 ∧
    (tapStep false code 3 init).1 = init ∧ (tapStep true code req init).1 = code) ∧
  (∀ (s : State) (t lane state req pre post ask : Nat), s.dev.Calm → s.dev.mor.retryAt = none → lane < 8 → lane < s.dev.mor.lanes.length →
    s.dev.mor.tx ≠ 0 → 5 ≤ s.dev.mor.stage →
    Reaches s (.train t lane state req pre post ask) (fun u =>
      (u.dev.morLane lane).farPre = pre % 32 ∧ (u.dev.morLane lane).farPost = post % 32 ∧ (u.dev.morLane lane).done = bit req 4 ∧
      (s.dev.morTrains = true → (∀ a, (s.dev.morLane lane).reqAt = some a → a + 1311 ≤ (s.now t).abs) →
        (u.dev.morLane lane).pre =
          (tapStep (bit (s.dev.cn P.pair_mor_ctrl 0) 1) (s.dev.morLane lane).pre (req % 4) (s.dev.cn P.pair_mor_ffe_init 0 % 32)).1 ∧
        (u.dev.morLane lane).post =
          (tapStep (bit (s.dev.cn P.pair_mor_ctrl 0) 1) (s.dev.morLane lane).post (req / 4 % 4) (s.dev.cn P.pair_mor_ffe_init 0 / 256 % 32)).1) ∧
      ((s.dev.morTrains = false ∨ ∃ a, (s.dev.morLane lane).reqAt = some a ∧ (s.now t).abs < a + 1311) →
        (u.dev.morLane lane).pre = (s.dev.morLane lane).pre ∧ (u.dev.morLane lane).post = (s.dev.morLane lane).post) ∧
      (∀ i, i ≠ lane → u.dev.morLane i = s.dev.morLane i) ∧
      u.dev.mor.farState = (if s.dev.mor.tx = 1 then min state 6 else s.dev.mor.farState) ∧ u.dev.mor.stage = s.dev.mor.stage ∧
      u.mem = s.mem ∧ u.pending = s.pending ∧ u.dev.par.committed = s.dev.par.committed)) ∧
  (∀ (s : State) (t : Nat), s.dev.Calm → s.dev.mor.retryAt = none → s.dev.mor.tx = 1 → 6 ≤ s.dev.mor.stage →
    ((∃ six, s.dev.mor.farSix = some six ∧ six + 1600000 ≤ (s.now t).abs) ∨ s.dev.mor.lanes.all (·.done) = true) →
    Reaches s (.morTrainingDeadline t) (fun u =>
      u.dev.mor.tx = 2 ∧ u.dev.mor.stage = s.dev.mor.stage ∧ u.dev.mor.lanes = s.dev.mor.lanes ∧ u.mem = s.mem ∧
      u.dev.par.committed = s.dev.par.committed)) ∧
  (∀ (s : State) (t state : Nat), s.dev.Calm → s.dev.mor.retryAt = none → 6 ≤ s.dev.mor.stage → state < 8 →
    Reaches s (.linkstat t state) (fun u =>
      u.dev.mor.farState = state ∧ u.dev.mor.stage = s.dev.mor.stage ∧ u.mem = s.mem ∧ u.dev.par.committed = s.dev.par.committed ∧
      (s.dev.mor.stage = 7 → state = 7 → u.dev.mor.up = true) ∧
      (s.dev.mor.farState = 7 → state < 7 → u.dev.mor.up = false ∧ u.dev.mor.tx = if s.dev.mor.tx = 0 then 0 else 1))) ∧
  (∀ (s : State) (t cause lane : Nat), s.dev.Calm → s.dev.mor.retryAt = none → s.dev.mor.stage = 7 →
    (s.dev.mor.slept = false ∨ (cause ≠ 1 ∧ cause ≠ 2) →
      Reaches s (.morLinkLoss t cause lane) (fun u =>
        u.dev.mor.stage = 1 ∧ u.dev.mor.up = false ∧ (u.dev.mor.tx = if s.dev.mor.tx = 0 then 0 else 1) ∧ u.dev.mor.map = s.dev.mor.map ∧
        u.dev.mor.window = [] ∧ u.mem = s.mem ∧ u.dev.par.committed = s.dev.par.committed)) ∧
    (s.dev.mor.slept = true → (cause = 1 ∨ cause = 2) → Answers s (.morLinkLoss t cause lane) t s.dm.dev))

/-- R338: a direction with nothing queued for `pair.mor_slumber_us` sends one SLUMBER row and stops; one with something queued, its clock
restarted for the time of a wake, has sent 128 WAKE rows counting down and then sends what waits: control blocks, channel 0, channel 1, and the
others in turn (R340). R339: a frame that fails its tests is discarded and counted. R341: the next expected frame of channel 1 is acknowledged;
ACK takes what it acknowledges from the window, and what waits enters it; NAK, or no progress for `pair.mor_rtx_us`, has everything
unacknowledged sent again, with 0x0C24, and the eighth time in a row takes the link down. R342: the pieces of a forwarded packet wait for the
last. R330: an unknown control block is counted for the heat's one 0x0C26. -/
def Obligations.MorcelSleepsAndCarriesItsFrames : Prop :=
  ∀ (s : State) (t : Nat), s.dev.Calm →
    (s.dev.mor.tx = 2 → s.dev.cn P.pair_mor_slumber_us 0 ≠ 0 → s.dev.morForwards = false →
        (s.dm.dev.morRows (s.now t).abs).mor.busyAt + s.dev.cn P.pair_mor_slumber_us 0 * 800 ≤ (s.now t).abs →
      Reaches s (.slumber t) (fun u =>
        u.dev.mor.tx = 3 ∧ u.dev.out = .morRows 0x87 [0] :: (s.dm.dev.morRows (s.now t).abs).out ∧ u.dev.mor.stage = s.dev.mor.stage ∧
        u.dev.mor.up = s.dev.mor.up ∧ u.dev.mor.sleptAt = (s.now t).abs ∧ u.mem = s.mem ∧ u.dev.par.committed = s.dev.par.committed)) ∧
    (∀ w, s.dev.mor.tx = 4 → s.dev.mor.wakeAt = some w → w + wakeCycles ≤ (s.now t).abs →
      Reaches s (.wake t) (fun u =>
        u.dev.mor.tx = 2 ∧ u.dev.mor.queue = [] ∧ u.dev.mor.ctlq = [] ∧ u.dev.mor.wakeAt = none ∧
        u.dev.out.reverse = .morRows 0x99 ((List.range 128).map (fun k => 127 - k)) ::
          s.dev.mor.ctlq.map (fun b => Out.morBlock b.1 (fit 7 b.2)) ++
          (s.dev.mor.queue.filter (fun f => frameRank f == 0) ++ s.dev.mor.queue.filter (fun f => frameRank f == 1) ++
            turns s.dev.mor.queue.length s.dev.mor.turn (s.dev.mor.queue.filter (fun f => frameRank f == 2))).map Out.morFrame ∧
        u.dev.mor.up = s.dev.mor.up ∧ u.mem = s.mem ∧ u.dev.par.committed = s.dev.par.committed)) ∧
    (s.dev.mor.stage = 7 → Answers s (.morSlumberReceive t) t (s.dm.dev.onMor (fun m => { m with slept := true }))) ∧
    Answers s (.morWakeReceive t) t (s.dm.dev.onMor (fun m => { m with slept := false })) ∧
    (∀ f good full parity, s.dev.mor.stage = 7 → s.dev.mor.retryAt = none →
      (frameOk f good = false →
        Reaches s (.morFrameReceive t f good full parity) (fun u =>
          u.dev.mor.bad = s.dev.mor.bad.note (s.now t) (leBytes 1 f.ch) ∧ u.dev.mor.expect = s.dev.mor.expect ∧
          u.dev.mor.fwdPart = s.dev.mor.fwdPart ∧
          u.dev.out = [] ∧ u.dev.pair = s.dev.pair ∧ u.mem = s.mem ∧ u.dev.par.committed = s.dev.par.committed)) ∧
      (frameOk f good = true → f.ch = 1 → f.seq = s.dev.mor.expect →
        Reaches s (.morFrameReceive t f good full parity) (fun u =>
          u.dev.mor.expect = (s.dev.mor.expect + 1) % 2 ^ 32 ∧ u.dev.mor.nakSent = false ∧
          (s.dev.pairOn = false → s.dev.mor.tx = 2 →
            u.dev.out = [.morBlock 0x4B (leBytes 1 1 ++ leBytes 4 (((s.dev.mor.expect + 1) % 2 ^ 32 + 2 ^ 32 - 1) % 2 ^ 32) ++ [0, 0])]) ∧
          u.mem = s.mem)) ∧
      (frameOk f good = true → 3 ≤ f.ch → f.ch ≤ 10 → f.sop = true → f.eop = false → f.ch - 3 < s.dev.mor.fwdPart.length →
        Reaches s (.morFrameReceive t f good full parity) (fun u =>
          u.dev.mor.fwdPart = s.dev.mor.fwdPart.set (f.ch - 3) (some f.data) ∧ u.dev.out = [] ∧ u.dev.run = s.dev.run ∧
          u.dev.pair = s.dev.pair ∧ u.mem = s.mem ∧ u.dev.par.committed = s.dev.par.committed)) ∧
      (frameOk f good = true → 3 ≤ f.ch → f.ch ≤ 10 → f.eop = true →
        Reaches s (.morFrameReceive t f good full parity) (fun u =>
          u.dev.mor.fwdPart.getD (f.ch - 3) none = none ∧ (∀ k, k ≠ f.ch - 3 → u.dev.mor.fwdPart.getD k none = s.dev.mor.fwdPart.getD k none) ∧
          u.dev.mor.expect = s.dev.mor.expect ∧ u.dev.par.committed = s.dev.par.committed)) ∧
      (frameOk f good = true → 10 < f.ch →
        Answers s (.morFrameReceive t f good full parity) t (s.dm.dev.onMor (fun m =>
          { m with rxSlots := m.rxSlots + frameSlots f, unknown := m.unknown.note (s.now t) (leBytes 1 f.ch) })))) ∧
    (∀ seq, s.dev.mor.up = true → (∃ f ∈ s.dev.mor.window, newer f.seq seq = false) →
      Reaches s (.ack t seq false) (fun u =>
        (∃ more, u.dev.mor.window = s.dev.mor.window.filter (fun f => newer f.seq seq) ++ more ∧ more.length ≤ s.dev.mor.wait.length) ∧
        u.dev.mor.acked = seq ∧ u.dev.mor.resends = 0 ∧ u.dev.mor.ackAt = (s.now t).abs ∧ u.dev.mor.up = true ∧
        (s.dev.mor.wait = [] → u.dev.mor.window = s.dev.mor.window.filter (fun f => newer f.seq seq) ∧ u.dev.out = []) ∧
        u.mem = s.mem ∧ u.dev.par.committed = s.dev.par.committed)) ∧
    (∀ c, (c = .morResendTimeout t ∧ s.dev.mor.ackAt + s.dev.cn P.pair_mor_rtx_us 0 * 800 ≤ (s.now t).abs ∨
        ∃ seq, c = .ack t seq true ∧ s.dev.mor.wait = [] ∧ ∀ f ∈ s.dev.mor.window, newer f.seq seq = true) →
      s.dev.mor.up = true → s.dev.mor.window ≠ [] →
      (s.dev.mor.resends < 7 →
        Reaches s c (fun u =>
          (s.dev.mor.tx = 2 → u.dev.out = (s.dev.mor.window.map Out.morFrame).reverse) ∧ u.dev.mor.window = s.dev.mor.window ∧
          u.dev.mor.resends = s.dev.mor.resends + 1 ∧ u.dev.mor.ackAt = (s.now t).abs ∧ u.dev.mor.up = true ∧ u.mem = s.mem ∧
          u.dev.par.committed = s.dev.par.committed)) ∧
      (7 ≤ s.dev.mor.resends → s.dev.mor.stage = 7 →
        Reaches s c (fun u => u.dev.mor.up = false ∧ u.dev.mor.stage = 1 ∧ u.dev.mor.window = [] ∧ u.mem = s.mem ∧
          u.dev.par.committed = s.dev.par.committed))) ∧
    (∀ typ, 7 ≤ s.dev.mor.stage → has [0x1E, 0x2D, 0x33, 0x4B, 0x55, 0x66, 0x78, 0x87, 0x99] typ = false →
      Answers s (.morControlUnknown t typ) t (s.dm.dev.onMor (fun m => { m with unknown := m.unknown.note (s.now t) (leBytes 1 typ) })))

/-! ## Chapter 16: the pair -/

/-- R36: a follower that is not aligned takes the master's heat number, rounded up to the pulse's, at its next boundary; an aligned one
corrects an offset above one cycle by one cycle, once in a heat; an offset beyond `time.pair_align_tol`, and the third missing pulse, end
the alignment. The offset is what the hardware measured less `time.pair_sync_delay_ps`; its sign and its rounding are the model's choice (log
entry 69). R349, R365: an edge of PAIR_ALIVE_IN is noted; its loss while heartbeats go on is 0x0C03; the loss of heartbeats is 0x0C02
with cause 1 while the pin is alive and 2 else, and ends mirroring; two heats without a check-in drive OWN_OUT low. -/
def Obligations.PairWatchesPulsePinAndHeartbeat : Prop :=
  ∀ (s : State) (t : Nat), s.dev.Calm →
    (∀ ps phases, s.dev.pair.role = .standby ∨ s.dev.pair.role = .joining →
      Reaches s (.pairSyncPulse t ps phases) (fun u =>
        let offset := s.dev.syncOffset ps
        u.dev.work.missedPulses = 0 ∧ u.dev.sn P.time_pair_offset 0 = unsigned 32 offset ∧ u.mem = s.mem ∧ u.pending = s.pending ∧
        u.dev.par.committed = s.dev.par.committed ∧ u.dev.pair.role = s.dev.pair.role ∧
        (s.dev.work.aligned = false → s.dev.hbSeen (s.now t).abs = true → s.dev.pair.peer ≠ [] → s.dev.work.step = none →
          u.dev.work.step = some (((rd s.dev.pair.peer 0 8 % 2 ^ 48) / 8 + 1) * 8) ∧ u.dev.work.aligned = false) ∧
        (s.dev.work.aligned = true → offset.natAbs ≤ s.dev.cn P.time_pair_align_tol 0 → 1 < offset.natAbs →
            s.dev.work.correctedAt ≠ some s.tb.heat.toNat →
          u.dev.work.aligned = true ∧ u.dev.work.correction = (if offset < 0 then -1 else 1) ∧
          u.dev.work.correctedAt = some s.tb.heat.toNat) ∧
        (s.dev.work.aligned = true → s.dev.cn P.time_pair_align_tol 0 < offset.natAbs → u.dev.work.aligned = false))) ∧
    (s.dev.pair.role = .standby →
      Reaches s (.pairSyncMissing t) (fun u =>
        u.dev.work.missedPulses = s.dev.work.missedPulses + 1 ∧
        u.dev.work.aligned = (s.dev.work.aligned && decide (s.dev.work.missedPulses < 2)) ∧ u.mem = s.mem ∧
        u.dev.par.committed = s.dev.par.committed)) ∧
    Answers s (.pairAliveInEdge t) t (s.dm.dev.onPair (fun p => { p with aliveAt := some (s.now t).abs, aliveTold := false })) ∧
    (s.dev.pairOn = true → s.dev.pair.aliveAt.isSome = true → s.dev.aliveSeen (s.now t).abs = false → s.dev.hbSeen (s.now t).abs = true →
        s.dev.pair.aliveTold = false →
      Answers s (.pairAliveInLost t) t ((s.dm.dev.onPair (fun p => { p with aliveTold := true })).raise (s.now t) 0x0C03 whole [])) ∧
    (s.dev.pairOn = true → s.dev.pair.hbAt.isSome = true → s.dev.hbSeen (s.now t).abs = false → s.dev.pair.hbTold = false →
      Reaches s (.heartbeatLost t) (fun u =>
        u.dev.pair.mirrored = false ∧ u.dev.pair.hbTold = true ∧ u.dev.pair.role = s.dev.pair.role ∧
        u.dev.pair.ownOut = s.dev.pair.ownOut ∧ u.mem = s.mem ∧ u.dev.par.committed = s.dev.par.committed) ∧
      (s.dev.pair.mirrored = false →
        Answers s (.heartbeatLost t) t ((s.dm.dev.onPair (fun p => { p with hbTold := true })).raise (s.now t) 0x0C02 whole
          (leBytes 1 (if s.dev.aliveSeen (s.now t).abs then 1 else 2))))) ∧
    (2 ≤ s.dev.pair.missed →
      Reaches s (.aliveWatchdogExpiry t) (fun u =>
        u.dev.pair.expired = true ∧ u.dev.pair.ownOut = false ∧ u.dev.pair.role = s.dev.pair.role ∧ u.mem = s.mem ∧
        u.dev.par.committed = s.dev.par.committed))

/-- Messages of the peer that pass the tests of R372 and R394. R355: a heartbeat gives the unit its peer's report and proves it alive. R370:
a unit that waits to join becomes the standby of an active peer, and where the peer is not active either `pair.role` settles which of
the two is; of two active ones the one of the lower epoch, or Drag of equal epochs, becomes standby. R369: a yield names the boundary at which the standby takes over, or
has it take over at once. R425: IMAGE_INFO gives the peer's range of versions; a standby
takes the boundary it names for another common version, the active unit names one (3 heats ahead: the model's choice, log entry 67). R291, R284: LADLE_SYNC and RELOCK give a standby the states
that wait for their pulse and the heat of the relock. R363: SNAP_REQ has the active unit capture,
again where a resynchronisation runs, or send the slots that reason 7 names. R394: PAIR_KEY gives the peer's nonce
and with this unit's own the two link keys; one whose tag is wrong is told with 0x0D0C. The mode Takeover is entered at once (log entry 54). -/
def Obligations.PairMessagesAreTaken : Prop :=
  ∀ (s : State) (t : Nat) (b : Bytes), s.dev.Calm →
    (∀ p d, s.dm.dev.pairOpen 0x0C01 b = some (p, d) → hbOk p = true → s.dev.pairOn = true →
      Reaches s (.heartbeat t b) (fun u =>
        u.dev.pair.hbAt = some (s.now t).abs ∧ u.dev.pair.hbTold = false ∧ u.dev.pair.peer = p ∧
        u.dev.pair.accepted = (decide (s.dev.ownMinVer ≤ rd p 10 2) && decide (rd p 10 2 ≤ s.dev.ownVer) && s.dev.rangesMeet) ∧
        u.mem = s.mem ∧ u.pending = s.pending ∧ u.dev.par.committed = s.dev.par.committed) ∧
      (s.dev.pair.role = .active →
        Reaches s (.heartbeat t b) (fun u =>
          (if bit (rd p 9 1) 1 = true ∧ (s.dev.pair.epoch.toNat < rd p 16 4 ∨ s.dev.pair.epoch.toNat = rd p 16 4 ∧ s.dev.pair.drag = true) then
            u.dev.pair.role = .standby ∧ u.dev.pair.ownOut = false
           else
            u.dev.pair.role = .active ∧ u.dev.work.aligned = decide (rd p 0 8 % 2 ^ 48 = s.tb.heat.toNat) ∧
            u.dev.pair.ownOut = s.dev.pair.ownOut))) ∧
      (s.dev.pair.role = .standby →
        Reaches s (.heartbeat t b) (fun u =>
          u.dev.pair.role = .standby ∧
          u.dev.pair.apply = (List.range (rd p 28 1)).map (fun i => rd p (32 + 4 * i) 4) ∧ u.dev.pair.ownOut = s.dev.pair.ownOut)) ∧
      (s.dev.pair.role = .joining →
        Reaches s (.heartbeat t b) (fun u =>
          if bit (rd p 9 1) 1 = true ∨ b2n s.dev.pair.drag ≠ s.dev.cn P.pair_role 0 then
            u.dev.pair.role = .standby ∧ u.dev.pair.ownOut = false
          else
            u.dev.pair.role = .active ∧ u.dev.pair.ownOut = (!s.dev.pair.expired && !s.dev.pair.forcedLow)))) ∧
    (∀ p d, s.dm.dev.pairOpen 0x0C02 b = some (p, d) → p.length = 16 → s.dev.pair.role = .standby →
      (rd p 0 8 % 2 ^ 48 ≠ 0 →
        Answers s (.yield t b) t (d.onPair (fun q => { q with yieldTo := some (rd p 0 8 % 2 ^ 48, rd p 12 4) }))) ∧
      (rd p 0 8 % 2 ^ 48 = 0 →
        Reaches s (.yield t b) (fun u =>
          u.dev.pair.role = .takeover ∧ u.dev.pwr.mode = .takeover ∧ u.dev.pair.detect = some ((s.now t).abs, 2, s.dev.pair.ready) ∧
          u.dev.pair.switched = none ∧ u.dev.pair.ownOut = s.dev.pair.ownOut ∧ u.mem = s.mem ∧
          u.dev.par.committed = s.dev.par.committed))) ∧
    (∀ p d, s.dm.dev.pairOpen 0x0E20 b = some (p, d) → p.length = 20 →
      Reaches s (.imageInfo t b) (fun u =>
        u.dev.pair.peerVer = some (rd p 0 2, rd p 2 2) ∧ u.dev.pair.role = s.dev.pair.role ∧ u.dev.pair.ver = s.dev.pair.ver ∧
        u.mem = s.mem ∧ u.dev.par.committed = s.dev.par.committed ∧
        (s.dev.pair.role = .active → s.dev.key.kOut ≠ [] → s.dev.pair.switchV = none → min s.dev.ownVer (rd p 0 2) ≠ s.dev.pair.ver →
          u.dev.pair.switchV = some (s.tb.heat.toNat + 3, min s.dev.ownVer (rd p 0 2))) ∧
        (s.dev.pair.role ≠ .active → min s.dev.ownVer (rd p 0 2) ≠ s.dev.pair.ver → rd p 12 8 % 2 ^ 48 ≠ 0 →
          u.dev.pair.switchV = some (rd p 12 8 % 2 ^ 48, min s.dev.ownVer (rd p 0 2))))) ∧
    (∀ p d, s.dm.dev.pairOpen 0x0C04 b = some (p, d) → p.length = 12 + 24 * rd p 8 1 → s.dev.pair.role = .standby →
      Answers s (.ladleSync t b) t ((List.range (rd p 8 1)).foldl (fun d i =>
        d.onLadle (rd p (12 + 24 * i) 1) (fun x => { x with pulse := some (rd p 0 8 % 2 ^ 48, slice p (12 + 24 * i) 24) })) d)) ∧
    (∀ p d, s.dm.dev.pairOpen 0x0C05 b = some (p, d) → p.length = 16 → s.dev.pair.role = .standby → s.dev.clk.ref.lost = true →
      Answers s (.relock t b) t (d.onRef (fun r => { r with relockAt := some (rd p 0 8 % 2 ^ 48), err := signed 32 (rd p 8 4) }))) ∧
    (∀ p d, s.dm.dev.pairOpen 0x0C03 b = some (p, d) → 4 ≤ p.length → rd p 0 1 ≠ 7 → s.dev.pair.role = .active →
        s.dev.pair.resync.isSome = true →
      Reaches s (.snapReq t b) (fun u =>
        u.dev.pair.capture = some (rd p 0 1) ∧ u.dev.pair.resync = s.dev.pair.resync ∧
        u.dev.pair.snapId = (s.dev.pair.snapId + 1) % 2 ^ 32 ∧ u.dev.pair.role = .active ∧ u.mem = s.mem ∧
        u.dev.par.committed = s.dev.par.committed)) ∧
    (∀ p d, s.dm.dev.pairOpen 0x0C03 b = some (p, d) → 4 ≤ p.length → rd p 0 1 = 7 → s.dev.pair.role = .active →
      Reaches s (.snapReq t b) (fun u =>
        u.dev.pair.capture = s.dev.pair.capture ∧ u.dev.pair.resync = s.dev.pair.resync ∧
        u.dev.pair.snapId = (s.dev.pair.snapId + 1) % 2 ^ 32 ∧ u.dev.pair.role = .active ∧ u.mem = s.mem ∧
        u.dev.par.committed = s.dev.par.committed)) ∧
    (∀ p d, s.dm.dev.pairOpen 0x0C03 b = some (p, d) → 4 ≤ p.length → rd p 0 1 ≠ 7 → s.dev.pair.role = .active →
        s.dev.pair.resync = none → s.dev.pair.stopped = false →
      Reaches s (.snapReq t b) (fun u =>
        u.dev.pair.capture = some (rd p 0 1) ∧ u.dev.pair.resync = some (s.tb.heat.toNat, rd p 0 1) ∧
        u.dev.pair.snapId = (s.dev.pair.snapId + 1) % 2 ^ 32 ∧ u.dev.pair.role = .active ∧ u.mem = s.mem ∧
        u.dev.par.committed = s.dev.par.committed)) ∧
    (∀ j secret, Jorek.parse b = some j → s.dev.mor.up = true → j.typ = 0x0D10 → j.session = 0xFFFE → j.seq = 1 → j.payload.length = 32 →
        s.dev.key.peerNonce = none → s.dev.pairSecret = some secret →
      (bit j.flags 1 = true → j.tag = j.tagOf (s.dev.helloKey secret (rd j.payload 0 8)) →
        Reaches s (.pairKey t b) (fun u =>
          u.dev.key.peerNonce = some (slice j.payload 8 16) ∧ u.dev.key.peerId = rd j.payload 0 8 ∧ u.dev.pair.seqIn = 1 ∧
          u.dev.pair.taken = [1] ∧ u.mem = s.mem ∧ u.dev.par.committed = s.dev.par.committed ∧
          (∀ a, s.dev.key.ownNonce = some a →
            (let k := kdf secret (ascii "morcel-pair-v1") (s.dev.pairIds (rd j.payload 0 8) ++
              (if s.dev.pair.drag then slice j.payload 8 16 ++ a else a ++ slice j.payload 8 16)) 256
             u.dev.key.kOut = (if s.dev.pair.drag then slice k 16 16 else slice k 0 16) ∧
             u.dev.key.kIn = (if s.dev.pair.drag then slice k 0 16 else slice k 16 16))))) ∧
      (j.tag ≠ j.tagOf (s.dev.helloKey secret (rd j.payload 0 8)) → s.dev.key.pairTold = false →
        Answers s (.pairKey t b) t
          (({ s.dm.dev with key := { s.dev.key with pairTold := true } } : Dev).raise (s.now t) 0x0D0C whole (leBytes 1 2))))

/-- R364: a standby that sees neither heartbeats nor PAIR_ALIVE_IN for 248 µs takes over, where it is ready or `pair.ctrl` bit 1 allows it.
R366, R369: the unit that takes over drives OWN_OUT high, the one that has yielded drives it low, each once and as
a line of the reference output starts or the time for it has passed (`Dev.switchDue`). R370: after
`pair.boot_wait_ms` without a heartbeat a unit becomes active, or standby where the pin is alive and `pair.role` prefers the other. R363:
at a boundary a complete snapshot is taken and, where the unit's digest is then the snapshot's, ends the resynchronisation, else counts as failed; one older than 15 heats is not applied, and slot data that
was asked for is written and its slot is Complete. The mode Takeover is entered at once (log entry 54). -/
def Obligations.StandbyTakesOverAndStarts : Prop :=
  ∀ (s : State) (t : Nat), s.dev.Calm →
    (s.dev.pairOn = true → s.dev.pair.role = .standby → s.dev.pwr.mode = .standby ∨ s.dev.pwr.mode = .changeover →
        s.dev.hbSeen (s.now t).abs = false →
        s.dev.aliveSeen (s.now t).abs = false → (s.dev.pair.ready || bit (s.dev.cn P.pair_ctrl 0) 1) = true → s.dev.pwr.bankAt = none →
      Reaches s (.takeoverDetect t) (fun u =>
        u.dev.pair.role = .takeover ∧ u.dev.pwr.mode = .takeover ∧ u.dev.pair.detect = some ((s.now t).abs, 1, s.dev.pair.ready) ∧
        u.dev.pair.switched = none ∧ u.dev.pair.ownOut = s.dev.pair.ownOut ∧ u.mem = s.mem ∧ u.pending = s.pending ∧
        u.dev.par.committed = s.dev.par.committed)) ∧
    (s.dev.pairOn = true → s.dev.pair.role = .standby → s.dev.pair.ready = false → bit (s.dev.cn P.pair_ctrl 0) 1 = false →
      Answers s (.takeoverDetect t) t s.dm.dev) ∧
    (∀ x, s.dev.pair.switched = none → s.dev.pair.role = .takeover → s.dev.pair.detect = some x →
        s.dev.switchDue (s.now t).abs x.1 = true →
      Reaches s (.ownOutSwitch t) (fun u =>
        u.dev.pair.ownOut = (!s.dev.pair.expired && !s.dev.pair.forcedLow) ∧ u.dev.pair.switched = some (s.now t).abs ∧
        u.dev.pair.role = .takeover ∧ u.mem = s.mem ∧ u.dev.par.committed = s.dev.par.committed)) ∧
    (∀ h e, s.dev.pair.switched = none → s.dev.pair.role = .active → s.dev.pair.yieldTo = some (h, e) → h ≤ s.tb.heat.toNat →
        s.dev.switchDue (s.now t).abs (h * heatCycles) = true →
      Reaches s (.ownOutSwitch t) (fun u =>
        u.dev.pair.ownOut = false ∧ u.dev.pair.switched = some (s.now t).abs ∧ u.dev.pair.role = .active ∧ u.mem = s.mem ∧
        u.dev.par.committed = s.dev.par.committed)) ∧
    (∀ w, s.dev.pair.bootWait = some w → w + s.dev.cn P.pair_boot_wait_ms 0 * 800000 ≤ (s.now t).abs →
      Reaches s (.pairBootWaitEnd t) (fun u =>
        u.dev.pair.bootWait = none ∧ u.mem = s.mem ∧ u.dev.par.committed = s.dev.par.committed ∧
        (if s.dev.aliveSeen (s.now t).abs = true ∧ b2n s.dev.pair.drag ≠ s.dev.cn P.pair_role 0 then
          u.dev.pair.role = .standby ∧ u.dev.pair.ownOut = false
         else u.dev.pair.role = .active ∧ u.dev.pair.ownOut = (!s.dev.pair.expired && !s.dev.pair.forcedLow)))) ∧
    (t ≠ 0 → t < heatCycles → Answers s (.snapshotApply t) t s.dm.dev) ∧
    (∀ p, s.dev.pair.snapIn = some p → p.bytes.length = p.total →
      (s.dev.pair.resync = none → (∀ q ∈ sections (p.bytes.length / 8 + 1) p.bytes, q.1 ≠ 8) →
        Answers s (.snapshotApply 0) 0 (s.dm.dev.onPair (fun q => { q with snapIn := none }))) ∧
      (s.dev.pair.resync = none →
        let x := (sections (p.bytes.length / 8 + 1) p.bytes).foldl (fun (x : DM) q => if q.1 = 8 then applySlot x q.2 else x)
          ⟨s.dm.dev.onPair (fun q => { q with snapIn := none }), s.mem⟩
        AnswersRam s (.snapshotApply 0) 0 x.dev x.mem) ∧
      (∀ f, s.dev.pair.resync = none → sections (p.bytes.length / 8 + 1) p.bytes = [(8, f)] →
        ∀ x, s.dev.buf (rd f 0 2) = some x →
          let m := slotWrites s.mem (x.slot (rd f 2 1)) (planeStart x.fmt x.height x.stride (rd f 3 1) + rd f 4 4) ((f.drop 12).take (rd f 8 4))
          AnswersRam s (.snapshotApply 0) 0
            ((s.dm.dev.onPair (fun q => { q with snapIn := none })).onBufSlot (rd f 0 2) (rd f 2 1) (fun y => { y with
              state := .complete, byUpload := false, seq := x.counter, writes := y.writes + 1
              upCrc := some (planesCrc m x (x.slot (rd f 2 1))) })) m) ∧
      (∀ r f, s.dev.pair.resync = some r → secOf (sections (p.bytes.length / 8 + 1) p.bytes) 0xFFFF = f → f.length = 16 →
        (∀ q ∈ sections (p.bytes.length / 8 + 1) p.bytes, q.1 ≠ 8) →
        (rd f 8 8 % 2 ^ 48 + 15 < s.tb.heat.toNat →
          Reaches s (.snapshotApply 0) (fun u =>
            u.dev.pair.snapIn = none ∧ u.dev.pair.resyncFails = s.dev.pair.resyncFails + 1 ∧ u.dev.pair.snapped = s.dev.pair.snapped ∧
            u.mem = s.mem ∧ u.dev.par.committed = s.dev.par.committed)) ∧
        (s.tb.heat.toNat ≤ rd f 8 8 % 2 ^ 48 + 15 →
          Reaches s (.snapshotApply 0) (fun u => ∃ d : Dev,
            (settle s.dm.dev ⟨d, s.mem⟩ (s.now 0)).dev = u.dev ∧ d.pair.snapIn = none ∧
            let x := s.dm.dev.snapTaken (s.now 0) (sections (p.bytes.length / 8 + 1) p.bytes)
            if x.configDigest.toNat = rd f 0 8 then d.pair.resync = none ∧ d.pair.resyncFails = 0 ∧ d.pair.snapped = true
            else d.pair.resyncFails = x.pair.resyncFails + 1))))
/-! ## Chapters 17 and 18: keys and update -/

/-- R385: a table update writes its blobs, then copy A, then copy B; with the last its records are in force and the table's SEQ goes up.
R387: a new mask is counted. R386: a slot whose key RAM entry fails in RAM alone is loaded again (0x0D07); one that fails twice cannot be
used until it is written; a session's or the link's keys that fail so are cleared. R387: the mask is drawn in the background window, once the
period since the last pass is over. -/
def Obligations.KeyTableStepsMasksAndChecks : Prop :=
  ∀ (s : State) (t : Nat), s.dev.Calm →
    (∀ w, s.dev.key.update = some w → w.done = 0 →
      Answers s (.keyTableUpdate t 1) t
        { s.dm.dev with
          flash := w.blobs.foldl (fun m b => flashWrites m (flBlobs + 128 * b.1) b.2) s.dev.flash
          key := { s.dev.key with update := some { w with done := 1 } } }) ∧
    (∀ w, s.dev.key.update = some w → w.done = 1 →
      Answers s (.keyTableUpdate t 2) t
        (let d := (s.dm.dev.erase flTableA 0x2000).program flTableA (tableCopy s.dev.rs (s.dev.key.tableSeq + 1) w.records)
         { d with key := { d.key with update := some { w with done := 2 } } })) ∧
    (∀ w reply slot op, s.dev.key.update = some w → w.done = 2 → w.after = .message reply slot op → s.dev.upd.seals = [] →
      Reaches s (.keyTableUpdate t 3) (fun u =>
        u.dev.key.update = none ∧ u.dev.key.tableSeq = s.dev.key.tableSeq + 1 ∧
        (∀ i, i < 64 → (u.dev.keySlot i).record = (w.records.getD i {}).record) ∧
        u.dev.flash = ((s.dm.dev.erase flTableB 0x2000).program flTableB (tableCopy s.dev.rs (s.dev.key.tableSeq + 1) w.records)).flash ∧
        u.dev.ctl.held = s.dev.ctl.held ++ [reply] ∧ u.mem = s.mem ∧ u.dev.par.committed = s.dev.par.committed)) ∧
    (∀ w, s.dev.key.update = some w → w.done = 2 →
      Reaches s (.keyTableUpdate t 3) (fun u =>
        u.dev.key.tableSeq = s.dev.key.tableSeq + 1 ∧ u.mem = s.mem ∧ u.pending = s.pending ∧ u.dev.par.committed = s.dev.par.committed)) ∧
    (s.dev.cn P.key_remask_heats 0 ≠ 0 → s.dev.backgroundTime = true → s.dev.key.remaskAt + s.dev.cn P.key_remask_heats 0 ≤ s.tb.heat.toNat →
      Reaches s (.keyRemask t) (fun u =>
        u.dev.key.masks = s.dev.key.masks + 1 ∧ u.dev.key.remaskAt = s.tb.heat.toNat ∧ u.dev.key.slots = s.dev.key.slots ∧ u.dev.flash = s.dev.flash ∧ u.mem = s.mem ∧
        u.dev.par.committed = s.dev.par.committed)) ∧
    ((s.dev.cn P.key_remask_heats 0 = 0 ∨ s.dev.backgroundTime = false ∨ s.tb.heat.toNat < s.dev.key.remaskAt + s.dev.cn P.key_remask_heats 0) →
      Answers s (.keyRemask t) t s.dm.dev) ∧
    (∀ i, i < 64 → (s.dev.keySlot i).usable = true →
      Answers s (.keyRamCheckFail t (.slot i) false) t
        (((s.dm.dev.bumpField P.key_ram_stats 0 32 16 1).bumpField P.key_ram_stats 0 48 16 1).raise (s.now t) 0x0D07 i (leBytes 1 1)) ∧
      Reaches s (.keyRamCheckFail t (.slot i) true) (fun u =>
        (u.dev.keySlot i).usable = false ∧ (u.dev.keySlot i).key = [] ∧ (∀ j, j ≠ i → u.dev.keySlot j = s.dev.keySlot j) ∧
        u.dev.flt.counts = s.dev.flt.counts.modify 8 (fun c => min (c + 1) (2 ^ 32 - 1)) ∧ u.mem = s.mem ∧
        u.dev.par.committed = s.dev.par.committed)) ∧
    (∀ i, i < 32 → i < s.dev.ctl.slots.length →
      Reaches s (.keyRamCheckFail t (.session i) true) (fun u =>
        (u.dev.slot i).keys.usable = false ∧ (u.dev.slot i).keys.kP2d = [] ∧ (u.dev.slot i).keys.kD2p = [] ∧ (u.dev.slot i).keys.kRpt = [] ∧
        u.dev.key.slots = s.dev.key.slots ∧ u.mem = s.mem ∧ u.dev.par.committed = s.dev.par.committed)) ∧
    Reaches s (.keyRamCheckFail t .pairLink true) (fun u =>
      u.dev.key.kOut = [] ∧ u.dev.key.kIn = [] ∧ u.dev.key.slots = s.dev.key.slots ∧ u.mem = s.mem ∧
      u.dev.par.committed = s.dev.par.committed) ∧
    (∀ e : KeyEntry, (∀ i, e ≠ .slot i) →
      Answers s (.keyRamCheckFail t e false) t
        ((s.dm.dev.bumpField P.key_ram_stats 0 32 16 1).bumpField P.key_ram_stats 0 48 16 1))

/-- R410: a transfer that got no block for `upd.download_timeout_s` ends and its slot is invalid. R401, R408: an erased sector reads 0xFF,
and nothing else of the flash changes; the first one of a slot then takes the header. R411: once the time to read it back is over, an image
whose header is accepted and whose body has the header's hash becomes verified, any other invalid. R412: a boot record is written to both copies, and the work
it belongs to goes on or ends. -/
def Obligations.FlashWorkEndsAndIsRecorded : Prop :=
  ∀ (s : State) (t : Nat), s.dev.Calm →
    (∀ x, s.dev.download x.id = some x → s.dev.verifying x.id = false → slotIndex x.kind x.slot < s.dev.upd.slots.length →
        x.lastAt + s.dev.cn P.upd_download_timeout_s 0 * 800000000 ≤ (s.now t).abs →
      Reaches s (.downloadTimeout t x.id) (fun u =>
        u.dev.upd.transfers = s.dev.upd.transfers.filter (fun y => y.id != x.id) ∧
        (u.dev.upd.slots.getD (slotIndex x.kind x.slot) {}).state = 6 ∧ u.dev.flash = s.dev.flash ∧ u.mem = s.mem ∧
        u.dev.par.committed = s.dev.par.committed)) ∧
    (∀ addr, (∀ x ∈ s.dev.upd.transfers, imgBase x.kind x.slot + 4096 * x.erased ≠ addr ∨ imgSize x.kind ≤ 4096 * x.erased) → flBlobs ≤ addr → addr < flBlobs + 0x8000 → addr % 4096 = 0 →
        (∀ i ∈ s.dev.usedBlobs, i < (addr - flBlobs) / 128 ∨ (addr - flBlobs) / 128 + 32 ≤ i) →
      Reaches s (.flashEraseDone t addr) (fun u =>
        (∀ a, addr ≤ a → a < addr + 4096 → flashRead u.dev.flash a = 0xFF) ∧
        (∀ a, a < addr ∨ addr + 4096 ≤ a → flashRead u.dev.flash a = flashRead s.dev.flash a) ∧
        u.dev.upd = s.dev.upd ∧ u.mem = s.mem ∧ u.dev.par.committed = s.dev.par.committed)) ∧
    (∀ x, s.dev.upd.transfers = [x] → x.waiting = [] → 4096 * x.erased + 4096 < imgSize x.kind →
      Reaches s (.flashEraseDone t (imgBase x.kind x.slot + 4096 * x.erased)) (fun u =>
        u.dev.upd.transfers = [{ x with erased := x.erased + 1 }] ∧ u.dev.upd.slots = s.dev.upd.slots ∧
        u.dev.flash = (let m := s.dev.flash.filter (fun c => decide (c.1 < imgBase x.kind x.slot + 4096 * x.erased) ||
            decide (imgBase x.kind x.slot + 4096 * x.erased + 4096 ≤ c.1))
          if x.erased = 0 then flashWrites m (imgBase x.kind x.slot) x.header else m) ∧
        u.mem = s.mem ∧ u.dev.par.committed = s.dev.par.committed)) ∧
    (∀ x addr, s.dev.upd.transfers.find? (fun y => imgBase y.kind y.slot + 4096 * y.erased == addr && decide (4096 * y.erased < imgSize y.kind)) =
          some x → (∀ y ∈ s.dev.upd.transfers, y.id = x.id → y = x) →
      Reaches s (.flashEraseDone t addr) (fun u =>
        (∃ y ∈ u.dev.upd.transfers, y.id = x.id ∧ y.kind = x.kind ∧ y.slot = x.slot ∧ y.erased = x.erased + 1) ∧ u.mem = s.mem ∧
        u.pending = s.pending ∧ u.dev.par.committed = s.dev.par.committed)) ∧
    (∀ x reply, s.dev.upd.jobs.findSome? (fun j => match j with | .verify id r => some (id, r) | _ => none) = some (x.id, reply) →
        s.dev.download x.id = some x → slotIndex x.kind x.slot < s.dev.upd.slots.length →
        x.verifyAt + s.dev.flashCycles x.size ≤ (s.now t).abs →
      Reaches s (.imageVerifyDone t) (fun u =>
        (let good := s.dev.acceptCode x.kind (s.dev.imgHeader x.kind x.slot) = none ∧ s.dev.bodyHashOk x.kind x.slot = true
         u.dev.upd.jobs = s.dev.upd.jobs.filter (fun j => match j with | .verify i _ => i != x.id | _ => true) ∧
         u.dev.upd.transfers = s.dev.upd.transfers.filter (fun y => y.id != x.id) ∧
         (good → (u.dev.upd.slots.getD (slotIndex x.kind x.slot) {}).state = 3 ∧
           u.dev.flash = flashWrites s.dev.flash (trailerAt x.kind x.slot + 36) (leBytes 4 0)) ∧
         (¬ good → (u.dev.upd.slots.getD (slotIndex x.kind x.slot) {}).state = 6 ∧ u.dev.flash = s.dev.flash) ∧
         u.dev.ctl.held.length = s.dev.ctl.held.length + 1 ∧ u.mem = s.mem ∧ u.dev.par.committed = s.dev.par.committed))) ∧
    (∀ j, s.dev.upd.jobs = [j] →
      ((∃ kinds mode reply, j = .activate kinds mode reply) ∨ (∃ cause, j = .revert cause)) →
      Reaches s (.bootRecordWritten t 2) (fun u =>
        u.dev.upd.jobs = [] ∧ u.dev.upd.record = s.dev.jobRecord j ∧
        u.dev.flash = ((s.dm.dev.writeRecordCopy 0 (s.dev.jobRecord j)).writeRecordCopy 1 (s.dev.jobRecord j)).flash ∧
        (∀ cause, j = .revert cause → u.dev.upd.phase = 0 ∧ u.dev.upd.trialKinds = 0 ∧ u.dev.upd.trialFlag = false) ∧
        (∀ kinds mode reply, j = .activate kinds mode reply → u.dev.upd.phase = s.dev.upd.phase ∧
          u.dev.ctl.held = s.dev.ctl.held ++ [reply]) ∧
        u.mem = s.mem ∧ u.dev.par.committed = s.dev.par.committed)) ∧
    (∀ j, s.dev.upd.jobs.find? (fun j => match j with | .verify _ _ => false | _ => true) = some j →
      Reaches s (.bootRecordWritten t 2) (fun u =>
        u.dev.upd.jobs = s.dev.upd.jobs.erase j ∧ u.dev.upd.record = s.dev.jobRecord j ∧
        u.dev.flash = ((s.dm.dev.writeRecordCopy 0 (s.dev.jobRecord j)).writeRecordCopy 1 (s.dev.jobRecord j)).flash ∧
        u.mem = s.mem ∧ u.pending = s.pending ∧ u.dev.par.committed = s.dev.par.committed) ∧
      Answers s (.bootRecordWritten t 1) t (s.dm.dev.writeRecordCopy 0 (s.dev.jobRecord j)))

/-- R416, R418: a new pair that has had the time to load its firmware, and whose image is good, enters Changeover at the next boundary; one
whose image is bad, and an abandoned changeover, revert the record and reject the new slots. R405: the pair's memory then holds the image's
sections. R419, R420: a trial whose conditions have held 5 s is confirmed, one unconfirmed after `upd.confirm_s` changes back with cause
1. R460: a fault of the active controller pair halts it; R421: after a changeover the resident pair is to resume. A single unit of the cold
policy restarts. R462: without another pair in service the device is to latch; a halted pair that passes its test is idle, one that fails, and an idle pair that fails, is out of
service. -/
def Obligations.TrialsAndControllerPairsTakeTheirCourse : Prop :=
  ∀ (s : State) (t : Nat), s.dev.Calm →
    (s.dev.upd.phase = 2 → s.dev.upd.jobs = [] → s.dev.upd.seals = [] → s.dev.key.update = none →
      (let fw := s.dev.newSlot s.dev.upd.trialKinds 1
       s.dev.upd.entered = none → s.dev.sparePair = true →
          s.dev.upd.loadAt + s.dev.flashCycles (rd (s.dev.imgHeader 1 fw) 20 4) ≤ (s.now t).abs →
        (s.dev.bodyHashOk 1 fw = true → s.dev.sectionsOk fw = true →
          Answers s (.changeoverReady t) t
            ((s.dm.dev.loadPair s.dev.idlePair fw).onUpd (fun w => { w with entered := some (s.tb.heat.toNat + 1) }))) ∧
        ((s.dev.bodyHashOk 1 fw = false ∨ s.dev.sectionsOk fw = false) → s.dev.upd.back = none →
          Reaches s (.changeoverReady t) (fun u =>
            u.dev.upd.phase = 5 ∧ u.dev.upd.entered = none ∧ u.dev.upd.jobs = [.revert 5] ∧ u.mem = s.mem ∧
            u.dev.par.committed = s.dev.par.committed))) ∧
      (s.dev.upd.back = none → s.dev.upd.slots.length = 4 →
        Reaches s (.changeoverAbandon t) (fun u =>
          u.dev.upd.phase = 5 ∧ u.dev.upd.entered = none ∧ u.dev.upd.jobs = [.revert 5] ∧
          (∀ k ∈ kindsOf s.dev.upd.trialKinds, (u.dev.upd.slots.getD (slotIndex k (s.dev.idleSlot k)) {}).state = 5) ∧
          u.dev.flash = (kindsOf s.dev.upd.trialKinds).foldl (fun m k =>
            flashWrites m (trailerAt k (s.dev.idleSlot k) + 44) (leBytes 4 0)) s.dev.flash ∧
          u.mem = s.mem ∧ u.dev.par.committed = s.dev.par.committed))) ∧
    (∀ cause, s.dev.upd.phase = 5 → s.dev.upd.back = some cause →
      (s.dev.upd.entered = none → s.dev.sparePair = true →
        Answers s (.changeoverReady t) t (s.dm.dev.onUpd (fun w => { w with entered := some (s.tb.heat.toNat + 1) }))) ∧
      Reaches s (.changeoverAbandon t) (fun u =>
        u.dev.upd.phase = 5 ∧ u.dev.upd.entered = none ∧ u.dev.upd.back = none ∧ u.dev.upd.resident = false ∧
        u.dev.upd.jobs = s.dev.upd.jobs ++ [.revert cause] ∧ u.mem = s.mem ∧ u.dev.par.committed = s.dev.par.committed)) ∧
    (∀ since, s.dev.upd.trialFlag = true → s.dev.upd.phase = 3 → s.dev.upd.since = some since → since + 4000000000 ≤ (s.now t).abs →
        (s.dev.cn P.upd_confirm_mode 0 = 0 ∨ s.dev.upd.confirmAsked = true) →
      Reaches s (.trialConfirm t) (fun u =>
        u.dev.upd.phase = 4 ∧ u.dev.upd.trialFlag = true ∧ u.dev.upd.jobs = s.dev.upd.jobs ++ [.confirm] ∧
        u.dev.flash = (kindsOf s.dev.upd.trialKinds).foldl (fun m k =>
          flashWrites m (trailerAt k (s.dev.runSlot k) + 40) (leBytes 4 0)) s.dev.flash ∧
        u.mem = s.mem ∧ u.dev.par.committed = s.dev.par.committed)) ∧
    (s.dev.upd.trialFlag = true → s.dev.upd.phase = 3 →
        s.dev.upd.trialAt + s.dev.cn P.upd_confirm_s 0 * 800000000 ≤ (s.now t).abs →
      (s.dev.upd.resident = true → s.dev.sparePair = true →
        Answers s (.confirmTimeout t) t (s.dm.dev.onUpd (fun w => { w with phase := 5, back := some 1, entered := none }))) ∧
      ((s.dev.upd.resident = false ∨ s.dev.sparePair = false) →
        Reaches s (.confirmTimeout t) (fun u =>
          u.dev.upd.phase = 5 ∧ u.dev.upd.trialFlag = false ∧ u.dev.upd.jobs = s.dev.upd.jobs ++ [.revert 1] ∧ u.mem = s.mem ∧
          u.dev.par.committed = s.dev.par.committed))) ∧
    (∀ k, 4 ≤ k → k ≤ 6 → s.dev.fwRuns = true → s.dev.flt.pairs.length = 2 →
      (let other := s.dev.flt.pairs.getD (1 - s.dev.activePair) {}
       let comesBack := s.dev.upd.trialFlag = true ∧ s.dev.upd.resident = true ∧ other.state = 0
       (s.dev.cn P.flt_warm_policy 0 ≠ 1 ∨ s.dev.pairOn = true →
          Reaches s (.controllerFault t k) (fun u =>
            u.dev.flt.halted = some s.tb.heat.toNat ∧ u.dev.flt.warm = none ∧ (u.dev.flt.pairs.getD s.dev.activePair {}).state = 2 ∧
            (u.dev.flt.pairs.getD s.dev.activePair {}).faultNo = k ∧ u.dev.upd.broke = true ∧
            u.dev.flt.pairs.getD (1 - s.dev.activePair) {} = other ∧
            (other.state ≠ 0 → u.dev.flt.isActive 15 = true ∧ has u.dev.pwr.asked 21 = true) ∧
            u.mem = s.mem ∧ u.dev.par.committed = s.dev.par.committed ∧ u.dev.par.live = s.dev.par.live)) ∧
       (s.dev.cn P.flt_warm_policy 0 = 1 → s.dev.pairOn = false → ¬ comesBack →
          Reaches s (.controllerFault t k) (fun u =>
            u.dev.pwr.mode = .reset ∧ u.dev.sn P.dev_reset_cause 0 = 3 ∧ u.mem = [] ∧ u.pending = s.pending)) ∧
       (comesBack → s.dev.upd.entered = none →
          Reaches s (.trialPairFault t k) (fun u =>
            u.dev.flt.halted = some s.tb.heat.toNat ∧ u.dev.upd.resume = true ∧ (u.dev.flt.pairs.getD s.dev.activePair {}).state = 2 ∧
            u.dev.pwr.asked = s.dev.pwr.asked ∧ u.mem = s.mem ∧ u.dev.par.committed = s.dev.par.committed)))) ∧
    (∀ adopted, s.dev.flt.halted.isSome = true → s.dev.sparePair = true → s.dev.upd.resume = false → s.dev.flt.isActive 15 = false →
        s.dev.flt.haltedAt + s.dev.flashCycles (s.dev.loadSize s.dev.upd.fwRun) ≤ (s.now t).abs →
      Answers s (.warmRestartReady t adopted) t
        (let d := s.dm.dev.loadPair s.dev.idlePair s.dev.upd.fwRun
         { d with flt := { d.flt with warm := some adopted } })) ∧
    (∀ i pass, i < 2 → s.dev.flt.halted = none → s.dev.flt.pairs.length = 2 → (s.dev.flt.pairs.getD i {}).state = 2 →
        (s.dev.flt.pairs.getD (1 - i) {}).state = 1 →
      (pass = true → (s.dev.flt.pairs.getD i {}).again = false →
        Answers s (.haltedPairSelftestDone t pass) t (s.dm.dev.onPairCtl i (fun p => { p with state := 0 }))) ∧
      ((pass = false ∨ (s.dev.flt.pairs.getD i {}).again = true) →
        Reaches s (.haltedPairSelftestDone t pass) (fun u =>
          (u.dev.flt.pairs.getD i {}).state = 3 ∧ bit (u.dev.sn P.dev_degraded_causes 0) 5 = true ∧ u.dev.pwr.asked = s.dev.pwr.asked ∧
          u.mem = s.mem ∧ u.dev.par.committed = s.dev.par.committed))) ∧
    (∀ i pass, i < 2 → s.dev.flt.pairs.length = 2 → (s.dev.flt.pairs.getD i {}).state = 0 →
        (s.dev.flt.pairs.getD (1 - i) {}).state = 1 → s.dev.cn P.flt_selftest_s 0 ≠ 0 → s.dev.fwRuns = true →
        s.dev.flt.selftestAt + s.dev.cn P.flt_selftest_s 0 * 8000 ≤ s.tb.heat.toNat →
      (pass = true →
        Answers s (.idlePairSelftest t pass) t { s.dm.dev with flt := { s.dev.flt with selftestAt := s.tb.heat.toNat } }) ∧
      (pass = false →
        Reaches s (.idlePairSelftest t pass) (fun u =>
          (u.dev.flt.pairs.getD i {}).state = 3 ∧ bit (u.dev.sn P.dev_degraded_causes 0) 5 = true ∧ u.dev.pwr.asked = s.dev.pwr.asked ∧
          u.mem = s.mem ∧ u.dev.par.committed = s.dev.par.committed)))

/-! ## Chapters 19 and 20: starts, modes, power, faults -/

/-- R433: Reset ends everything but what OTP, flash and the always-on domain keep, and `dev.reset_cause` tells why; after RESET_N the unit
has its strap to sample again. R434, R375: release takes the reference that R434 chooses, and the first start establishes the root secret.
With the root secret checked the start goes on from flash (`bootFromFlash`).
R437: a retry looks for a firmware again; without one fault 19 stays, one that is found is loaded and its pattern applied, and a firmware
without an acceptable pattern goes to Maintenance. R429: the first pour tells the boot time and ends a single unit's
Boot. R441: a script that ends once its waits are over, or fails at a bus operation, is no longer running and says so. R432: the enable pins rise after VDD_AON. The
heat number over a start is the model's choice (log entry 50), and so is the instant of the enable pins (log entry 51). -/
def Obligations.ResetStartsAndScripts : Prop :=
  ∀ (s : State) (t : Nat),
    (∀ cause, cause = 1 ∨ cause = 2 →
      Reaches s (.resetNAssert t cause) (fun u =>
        u.dev.pwr.mode = .reset ∧ u.dev.sn P.dev_reset_cause 0 = cause ∧ u.mem = [] ∧ u.pending = s.pending ∧ u.dev.ctl.leases = [] ∧
        u.dev.txn.commits = [] ∧ u.dev.cru.bufs = [] ∧ u.dev.pair.ownOut = false ∧ u.dev.otp = s.dev.otp ∧ u.dev.flash = s.dev.flash ∧
        u.dev.par.bootPending = s.dev.par.bootPending ∧ u.dev.par.committed = [] ∧
        u.dev.pair.drag = (if cause = 1 then false else s.dev.pair.drag) ∧ u.dev.pwr.pwrEn = s.dev.pwr.pwrEn ∧ u.dev.flt.pin = true)) ∧
    (∀ b src, s.dev.Calm → s.dev.inReset = true → refChoice s.dev.refPref b.refEdges = some src → s.dev.otp.enrolled = true →
      Reaches s (.resetNRelease t b) (fun u =>
        u.tb.heat = BitVec.ofNat 48 ((if s.dev.pwr.soft then s.tb.heat.toNat else 0) + b.heats) ∧ u.pending = s.pending ∧
        ∃ d : Dev, d.pwr.mode = .boot ∧ d.pwr.booted = true ∧ d.sn P.dev_ref_source 0 = src ∧ d.flash = s.dev.flash ∧
          d.pair.drag = (if s.dev.pwr.soft then s.dev.pair.drag else b.drag) ∧ d.otp.debugNext = false ∧
          (s.dev.variant = .ely2416 → b.eccFail = false → s.dev.otp.erased = false → rootCheck (sha256 b.puf) = s.dev.otp.check →
            d.key.rs = some (sha256 b.puf)) ∧
          (let n := bootNow s.dev (s.now t) b
           let x := bootFromFlash ⟨d, s.mem⟩ n (((if s.dev.pwr.soft then s.tb.heat.toNat else 0) + b.fwAt) * heatCycles)
           u.dev = (settle x.dev x n).dev))) ∧
    (∀ b src, s.dev.Calm → s.dev.inReset = true → s.dev.otp.enrolled = false →
        refChoice s.dev.refPref b.refEdges = some src →
      Reaches s (.resetNRelease t b) (fun u =>
        u.dev.pwr.mode = .boot ∧ u.dev.pwr.booted = true ∧ has u.dev.pwr.asked 3 = true ∧ u.dev.otp.enrolled = true ∧
        (s.dev.variant = .ely2416 → u.dev.otp.check = rootCheck (sha256 b.puf)) ∧ u.dev.sn P.dev_ref_source 0 = src ∧ u.dev.flash = s.dev.flash ∧
        u.dev.pair.drag = (if s.dev.pwr.soft then s.dev.pair.drag else b.drag) ∧
        u.tb.heat = BitVec.ofNat 48 ((if s.dev.pwr.soft then s.tb.heat.toNat else 0) + b.heats) ∧ u.mem = s.mem ∧ u.pending = s.pending)) ∧
    (∀ b, s.dev.Calm → s.dev.pwr.mode = .boot → s.dev.pwr.noFirmware = true →
        s.dev.pwr.retryAt + 800000000 ≤ (s.now t).abs →
      (let d := ((b.flash.foldl (fun d w => d.program w.1 w.2) s.dm.dev).bootRecordChoice (s.now t)).bootTrial (s.now t)
       (∀ fw c, d.startSlot 1 = some (fw, c) →
         Reaches s (.bootRetry t b) (fun u => ∃ e : Dev, e.pwr.noFirmware = false ∧ e.upd.fwRun = fw ∧ e.flash = d.flash ∧
           (e.flt.pairs.getD 0 {}).entry = ((d.loadPair 0 fw).flt.pairs.getD 0 {}).entry ∧
           (let x := bootFinish (patternStart ⟨e, s.mem⟩ (s.now t) (d.startSlot 2)) (s.now t)
            u.dev = (settle x.dev x (s.now t)).dev))) ∧
       (d.startSlot 2 = none →
       Reaches s (.bootRetry t b) (fun u =>
         u.dev.pwr.mode = .boot ∧ u.dev.pwr.noFirmware = (d.startSlot 1).isNone ∧ u.mem = s.mem ∧
         (d.startSlot 1 = none → u.dev.pwr.retryAt = (s.now t).abs ∧ u.dev.flt.isActive 19 = true ∧ u.dev.flash = d.flash) ∧
         (∀ fw c, d.startSlot 1 = some (fw, c) → u.dev.upd.fwRun = fw ∧ u.dev.pwr.maintOnly = true ∧ has u.dev.pwr.asked 7 = true))))) ∧
    (∀ first, s.dev.Calm → s.dev.pwr.firstPour = some first → s.dev.pwr.mode = .boot → s.dev.pwr.applied = true →
        s.dev.sn P.dev_boot_time_us 0 = 0 → t ≠ 0 →
      Reaches s (.firstPourAfterBoot t) (fun u =>
        u.dev.sn P.dev_boot_time_us 0 = min (s.dev.pwr.leadUs + (first - s.dev.pwr.releasedAt) / 800) (2 ^ 32 - 1) ∧
        (s.dev.pairOn = false → has u.dev.pwr.asked 5 = true ∧ u.dev.pair = s.dev.pair) ∧
        (s.dev.pairOn = true → u.dev.pair.role = .joining ∧ u.dev.pair.bootWait = some (s.now t).abs) ∧
        u.dev.pwr.mode = .boot ∧ u.mem = s.mem ∧ u.dev.par.committed = s.dev.par.committed)) ∧
    (∀ first, s.dev.Calm → s.dev.pwr.firstPour = some first → s.dev.pwr.mode = .boot → s.dev.pwr.applied = true →
        s.dev.sn P.dev_boot_time_us 0 = 0 →
      Reaches s (.firstPourAfterBoot 0) (fun u =>
        u.dev.sn P.dev_boot_time_us 0 = min (s.dev.pwr.leadUs + (first - s.dev.pwr.releasedAt) / 800) (2 ^ 32 - 1) ∧
        (s.dev.pairOn = false → s.dev.pwr.asked = [] → s.dev.upd.entered = none → u.dev.pwr.mode = .autonomous) ∧
        u.mem = s.mem ∧ u.dev.par.committed = s.dev.par.committed)) ∧
    (∀ k fail x begun, s.dev.Calm → s.dev.scriptNow = some x → x.no = k → k < 64 →
        s.dev.pwr.running.find? (fun r => r.1 == k) = some (k, begun) →
        begun + scriptWait (x.list.take (fail.getD x.list.length)) ≤ (s.now t).abs →
        (∀ i, fail = some i → ∃ o, x.list[i]? = some o ∧ o.op ≠ 2 ∧ o.op ≠ 3) →
      Reaches s (.scriptComplete t k fail) (fun u =>
        u.dev.pwr.running = s.dev.pwr.running.filter (fun r => r.1 != k) ∧
        rd (u.dev.par.stat.bytes P.dev_script_status 0) (4 * k) 1 = (if fail.isSome then 3 else 2) ∧
        u.dev.pwr.mode = s.dev.pwr.mode ∧ u.mem = s.mem ∧ u.dev.ctl.leases = s.dev.ctl.leases)) ∧
    (s.dev.Calm → s.dev.pwr.aon = false →
      Answers s (.vddAonPowerUp t) t { s.dm.dev with pwr := { s.dev.pwr with aon := true, aonAt := (s.now t).abs } }) ∧
    (s.dev.Calm → s.dev.pwr.aon = true → s.dev.pwr.mode ≠ .banked →
      Answers s (.pwrEnDelayEnd t) t { s.dm.dev with pwr := { s.dev.pwr with pwrEn := true } })

/-- R444: a unit that has been idle for `dev.bank_idle_ms` enters Banked from the next boundary on; when every output has stopped it is in
Banked, with its transmit ports in ULPS, its supplies lowered and the crucible keeping its retained region alone, where it keeps any.
R446, R447: an armed source wakes it and its cupolas start (during entry the event is held); T_wake later it is awake, told with the mode of cause 18 to come. R450: the
cycles that a droop of `dev.droop_mv` or more suppresses are counted, also for the heat. R452: the output next in order is shed, the most recently
shed one restored. R457, R458: a driver fault of a lane that drives HS puts its port Off and is active until the port has run 1 ms since it was enabled again; a
rail fault puts every port Off and asks for Latched. That `dev.wake_cause` is a mask is the model's reading (log entry 51). -/
def Obligations.BankedWakeSheddingAndDrivers : Prop :=
  ∀ (s : State) (t : Nat), s.dev.Calm →
    (∀ since, s.dev.cn P.dev_bank_idle_ms 0 ≠ 0 → s.dev.pwr.mode = .autonomous → s.dev.pwr.bankAt = none → s.dev.pwr.bankBegun = false →
        s.dev.pairOn = false → s.dev.pair.mirrored = false → s.dev.pwr.idleSince = some since → since + s.dev.cn P.dev_bank_idle_ms 0 * 800000 ≤ (s.now t).abs →
      Answers s (.bankIdleTimeout t) t { s.dm.dev with pwr := { s.dev.pwr with bankAt := some (1, s.tb.heat.toNat + 1) } }) ∧
    (s.dev.pwr.bankBegun = true → s.dev.pwr.mode ≠ .banked → (∀ g, g < s.dev.nTx → (s.dev.tgen g).state = .stopped) →
        s.dev.pwr.heldWake = none → s.dev.nTx ≤ s.dev.tx.length →
      Reaches s (.bankedEntryComplete t) (fun u =>
        u.dev.pwr.mode = .banked ∧ u.dev.pwr.pwrEn = false ∧ u.dev.pwr.sramRet = true ∧ u.dev.pwr.bankAt = none ∧
        (∀ i, i < s.dev.nTx → (u.dev.txp i).state = .ulps) ∧ u.dev.mor.tx = 0 ∧ u.dev.mor.up = false ∧ u.dev.pair.ownOut = false ∧
        u.mem = (if s.dev.cn P.cru_retention_en 0 = 1 then s.mem.filter (fun c => decide (917504 ≤ c.1 % 1048576)) else []) ∧
        u.pending = s.pending ∧ u.dev.par.committed = s.dev.par.committed)) ∧
    (∀ source, s.dev.pwr.bankBegun = true → s.dev.pwr.mode ≠ .banked → (∀ g, g < s.dev.nTx → (s.dev.tgen g).state = .stopped) →
        s.dev.pwr.heldWake = some source →
      Reaches s (.bankedEntryComplete t) (fun u =>
        u.dev.pwr.mode = .banked ∧ u.dev.pwr.wake = some (source, 0) ∧ u.dev.pwr.pwrEn = true ∧ u.dev.pwr.heldWake = none ∧
        u.dev.pwr.bankAt = none ∧ u.dev.mor.up = false ∧ u.dev.pair.ownOut = false ∧
        u.mem = (if s.dev.cn P.cru_retention_en 0 = 1 then s.mem.filter (fun c => decide (917504 ≤ c.1 % 1048576)) else []) ∧
        u.dev.par.committed = s.dev.par.committed)) ∧
    (∀ source ident, s.dev.wakes source ident = true → s.dev.pwr.mode ≠ .banked → s.dev.pwr.bankBegun = true →
      Answers s (.wakeEvent t source ident) t
        { s.dm.dev with pwr := { s.dev.pwr with heldWake := some (s.dev.pwr.heldWake.getD source) } }) ∧
    (∀ source ident, s.dev.wakes source ident = true → s.dev.pwr.mode = .banked → s.dev.pwr.wake = none → s.dev.clk.cups.length = 4 →
      Reaches s (.wakeEvent t source ident) (fun u =>
        u.dev.pwr.wake = some (source, 0) ∧ u.dev.pwr.pwrEn = true ∧ u.dev.pwr.sramRet = false ∧ u.dev.pwr.mode = .banked ∧
        u.dev.sn P.dev_wake_cause 0 = 2 ^ source ∧
        (u.dev.cup 0).state = (if (s.dev.cup 0).mem.any (fun b => b.n == s.dev.cupN 0) then .acquire else .search) ∧
        u.mem = s.mem ∧ u.dev.par.committed = s.dev.par.committed)) ∧
    (∀ source k, s.dev.pwr.mode = .banked → s.dev.pwr.wake = some (source, k) → 23 ≤ k → s.dev.pwr.sleepRunning = 0 →
      Reaches s (.wakeComplete t) (fun u =>
        u.dev.pwr.wake = none ∧ u.dev.pwr.mode = .banked ∧ u.dev.sn P.dev_boot_time_us 0 = 5000 ∧
        u.dev.par.committed = s.dev.par.committed.put (pkey P.time_epoch_ns 0) (numVal 0) ∧
        (s.dev.pairOn = false → has u.dev.pwr.asked 18 = true) ∧
        (s.dev.pairOn = true → u.dev.pair.role = .joining ∧ u.dev.pair.bootWait = some (s.now t).abs) ∧ u.mem = s.mem)) ∧
    (∀ source k, s.dev.pwr.mode = .banked → s.dev.pwr.wake = some (source, k) → (s.dev.wakeUs - 2100) / 125 ≤ k →
      Reaches s (.wakeComplete t) (fun u =>
        u.dev.pwr.wake = none ∧ u.dev.pwr.sleepRunning = 0 ∧ u.dev.sn P.dev_boot_time_us 0 = s.dev.wakeUs ∧
        (s.dev.pairOn = true → u.dev.pair.bootWait = some (s.now t).abs) ∧ u.mem = s.mem ∧ u.pending = s.pending)) ∧
    (∀ mv cycles, s.dev.cn P.dev_droop_mv 0 ≤ mv →
      Answers s (.voltageDroop t ⟨mv, cycles⟩) t
        (let k := 16 * max 1 ((cycles + 15) / 16)
         let old := s.dev.pwr.stretched
         { (s.dm.dev.bumpField P.dev_droop_stats 0 0 32 1).bumpField P.dev_droop_stats 0 32 32 k with
           pwr := { s.dev.pwr with stretched :=
             if old.count = 0 then { heat := s.tb.heat.toNat, count := k, first := s.now t, last := [] }
             else { old with count := old.count + k, last := [] } } })) ∧
    (∀ mv cycles, mv < s.dev.cn P.dev_droop_mv 0 → Answers s (.voltageDroop t ⟨mv, cycles⟩) t s.dm.dev) ∧
    (∀ g h, (s.dev.pwr.shedAt = none ∨ ∃ a, s.dev.pwr.shedAt = some a ∧ a + 8000 ≤ s.tb.heat.toNat) → s.dev.pwr.mode.checksIn = true →
      (s.dev.pwr.overSince = some h → (s.dev.pair.role = .standby → h + 8000 ≤ s.tb.heat.toNat) →
          ¬ (s.dev.pair.mirrored = true ∧ s.dev.pair.role = .active ∧ s.dev.pair.ready = true) → s.dev.shedNext = some g →
        Reaches s (.shedStep t) (fun u =>
          (u.dev.tgen g).shed = true ∧ (u.dev.tgen g).stopping = true ∧ (u.dev.tgen g).state = .running ∧
          u.dev.pwr.shed = g :: s.dev.pwr.shed ∧ u.dev.pwr.shedAt = some s.tb.heat.toNat ∧
          u.dev.sn P.dev_shed_state 0 = maskOf (g :: s.dev.pwr.shed) % 2 ^ 64 ∧ bit (u.dev.sn P.dev_degraded_causes 0) 3 = true ∧
          (∀ i, i ≠ g → u.dev.tgen i = s.dev.tgen i) ∧ u.mem = s.mem ∧ u.dev.par.committed = s.dev.par.committed)) ∧
      (∀ rest, s.dev.pwr.overSince = none → s.dev.pwr.underSince = some h → h + 8000 ≤ s.tb.heat.toNat → s.dev.pwr.shed = g :: rest →
        Reaches s (.shedStep t) (fun u =>
          u.dev.pwr.shed = rest ∧ u.dev.pwr.shedAt = some s.tb.heat.toNat ∧ (u.dev.tgen g).shed = false ∧
          ((s.dev.tgen g).state = .running → (u.dev.tgen g).reseat = true) ∧
          u.dev.sn P.dev_shed_state 0 = maskOf rest % 2 ^ 64 ∧ (rest = [] → bit (u.dev.sn P.dev_degraded_causes 0) 3 = false) ∧ u.mem = s.mem ∧
          u.dev.par.committed = s.dev.par.committed))) ∧
    (∀ i lane, i < s.dev.nTx → bit (s.dev.cn P.flt_tx_monitor 0) i = true → ((s.dev.txp i).state = .run ∨ (s.dev.txp i).state = .deskew) →
        (lane < s.dev.ln P.txp_lanes i ∨ lane = 4) →
      Reaches s (.txDriverFault t i lane) (fun u =>
        (u.dev.txp i).state = .off ∧ bit (u.dev.sn P.flt_tx_fault 0) i = true ∧ bit u.dev.flt.txDown i = true ∧
        u.dev.flt.isActive 13 = true ∧ bit (u.dev.sn P.dev_degraded_causes 0) 5 = true ∧ (∀ j, j ≠ i → u.dev.txp j = s.dev.txp j) ∧
        u.mem = s.mem ∧ u.dev.par.committed = s.dev.par.committed)) ∧
    (∀ i run, s.dev.flt.txRunAt.getD i none = some run → bit (s.dev.sn P.flt_tx_fault 0) i = true → bit s.dev.flt.txDown i = false →
        (s.dev.txp i).state = .run → run + 800000 ≤ (s.now t).abs →
      Reaches s (.txMonitorClear t i) (fun u =>
        bit (u.dev.sn P.flt_tx_fault 0) i = false ∧ u.dev.flt.txRunAt.getD i none = none ∧
        (u.dev.sn P.flt_tx_fault 0 = 0 → ∀ a ∈ u.dev.flt.active, a.1 ≠ 13) ∧ u.dev.tx = s.dev.tx ∧ u.mem = s.mem ∧
        u.dev.par.committed = s.dev.par.committed)) ∧
    (∀ rail pct, s.dev.cn P.flt_rail_margin_pct 0 ≤ pct → 3 ≤ rail → rail < 8 → s.dev.pwr.mode ≠ .reset →
        (s.dev.pwr.mode ≠ .banked ∨ s.dev.pwr.wake.isSome = true) →
      Reaches s (.railFault t ⟨rail, pct⟩) (fun u =>
        u.dev.flt.isActive 14 = true ∧ has u.dev.pwr.asked 21 = true ∧ (∀ i, i < s.dev.nTx → (u.dev.txp i).state = .off) ∧
        u.mem = s.mem ∧ u.dev.par.committed = s.dev.par.committed))

end
end

