-- ==== Sys2Proof/Laws/Flash.lean ====
section
/-!
SUPPORT. Laws of the flash cells: programming and erasing keep the canonical form.
-/

namespace Sys2Proof.Machine

/-- A write at or above a bound keeps every key above what lies below it. -/
theorem flashWrite_above {m : List Host.Cell} {a b : Nat} {v : Byte} (hb : b < a)
    (h : m.all (fun c => decide (b < c.1)) = true) : (flashWrite m a v).all (fun c => decide (b < c.1)) = true := by
  induction m with
  | nil => simp only [flashWrite]; split <;> simp [hb]
  | cons c m ih =>
    simp only [List.all_cons, Bool.and_eq_true, decide_eq_true_eq] at h
    have := ih h.2
    simp only [flashWrite]
    split <;> split <;> (try split) <;>
      simp only [List.all_cons, Bool.and_eq_true, decide_eq_true_eq, hb, h, this, and_self]

/-- A write keeps the canonical form. -/
theorem flashWrite_wf {m : List Host.Cell} {a : Nat} {v : Byte} (h : flashWf m = true) : flashWf (flashWrite m a v) = true := by
  induction m with
  | nil => simp only [flashWrite]; split <;> simp_all [flashWf]
  | cons c m ih =>
    obtain ⟨k, w⟩ := c
    simp only [flashWf, Bool.and_eq_true] at h
    obtain ⟨⟨hw, hab⟩, hm⟩ := h
    simp only [flashWrite]
    split
    · rename_i hlt
      split
      · simp only [flashWf, hw, hab, hm, Bool.and_self]
      · have : m.all (fun c => decide (a < c.1)) = true := by
          rw [List.all_eq_true] at hab ⊢
          intro c hc; have := hab c hc
          simp only [decide_eq_true_eq] at this ⊢; omega
        simp_all only [flashWf, List.all_cons, Bool.and_eq_true, decide_eq_true_eq]
        simp_all
    · split
      · rename_i hlt heq
        have : a = k := by simpa using heq
        subst this
        split
        · exact hm
        · simp only [flashWf, hab, hm, Bool.and_true, bne_iff_ne]
          simp_all
      · rename_i hlt hne
        have hka : k < a := by
          have : a ≠ k := by simpa using hne
          omega
        simp only [flashWf, Bool.and_eq_true]
        exact ⟨⟨hw, flashWrite_above hka hab⟩, ih hm⟩

/-- Writing a run of bytes keeps the canonical form. -/
theorem flashWrites_wf {m : List Host.Cell} {a : Nat} {b : Bytes} (h : flashWf m = true) : flashWf (flashWrites m a b) = true := by
  induction b generalizing m a with
  | nil => exact h
  | cons x b ih => exact ih (flashWrite_wf h)

/-- Leaving cells out keeps the canonical form. -/
theorem flash_filter_wf {m : List Host.Cell} {p : Host.Cell → Bool} (h : flashWf m = true) : flashWf (m.filter p) = true := by
  induction m with
  | nil => rfl
  | cons c m ih =>
    obtain ⟨k, w⟩ := c
    simp only [flashWf, Bool.and_eq_true] at h
    have hm := ih h.2
    rw [List.filter_cons]
    split
    · simp only [flashWf, Bool.and_eq_true, List.all_eq_true] at h ⊢
      exact ⟨⟨h.1.1, fun c hc => h.1.2 c (List.mem_filter.mp hc).1⟩, hm⟩
    · exact hm

/-- Programming the device's flash keeps its canonical form. -/
theorem Dev.program_flash_wf {d : Dev} {a : Nat} {b : Bytes} (h : flashWf d.flash = true) : flashWf (d.program a b).flash = true :=
  flashWrites_wf h

/-- Erasing keeps the canonical form. -/
theorem Dev.erase_flash_wf {d : Dev} {a n : Nat} (h : flashWf d.flash = true) : flashWf (d.erase a n).flash = true :=
  flash_filter_wf h

/-- A byte below every key reads as erased. -/
theorem flashRead_below {m : List Host.Cell} {a : Nat} (h : m.all (fun c => decide (a < c.1)) = true) : flashRead m a = 0xFF := by
  induction m with
  | nil => rfl
  | cons c m ih =>
    obtain ⟨k, w⟩ := c
    simp only [List.all_cons, Bool.and_eq_true, decide_eq_true_eq] at h
    simp only [flashRead, beq_iff_eq]
    rw [if_neg (by omega), ih h.2]

/-- A read after a byte is programmed gives that byte at its address, and what was there everywhere else. -/
theorem flashRead_flashWrite {m : List Host.Cell} {a b : Nat} {v : Byte} (h : flashWf m = true) :
    flashRead (flashWrite m a v) b = if a = b then v else flashRead m b := by
  induction m with
  | nil =>
    simp only [flashWrite]
    split
    · simp_all [flashRead]
    · simp [flashRead]
  | cons c m ih =>
    obtain ⟨k, w⟩ := c
    simp only [flashWf, Bool.and_eq_true] at h
    have hk : ∀ x, x ≤ k → flashRead m x = 0xFF := fun x hx => flashRead_below (by
      rw [List.all_eq_true]
      intro c hc
      have := List.all_eq_true.mp h.1.2 c hc
      simp only [decide_eq_true_eq] at this ⊢
      omega)
    simp only [flashWrite, beq_iff_eq]
    by_cases h1 : a < k
    · have ha : flashRead m a = 0xFF := hk a (by omega)
      by_cases h2 : v = 0xFF
      · by_cases hb : a = b
        · subst hb; simp [h1, h2, flashRead, ha, show k ≠ a by omega]
        · simp [h1, h2, hb]
      · rw [if_pos h1, if_neg h2]; simp [flashRead]
    · by_cases h3 : a = k
      · subst h3
        have ha : flashRead m a = 0xFF := hk a (by omega)
        by_cases h2 : v = 0xFF
        · by_cases hb : a = b
          · subst hb; simp [h2, ha]
          · simp [h2, hb, flashRead]
        · rw [if_neg h1, if_pos rfl, if_neg h2]
          by_cases hb : a = b <;> simp [hb, flashRead]
      · simp only [if_neg h1, if_neg h3, flashRead, beq_iff_eq, ih h.2]
        by_cases hb : k = b
        · subst hb; simp [h3]
        · simp [hb]

/-- A read after bytes are programmed gives those bytes at their addresses, and what was there everywhere else. -/
theorem flashRead_flashWrites {m : List Host.Cell} {a x : Nat} {b : Bytes} (h : flashWf m = true) :
    flashRead (flashWrites m a b) x = if a ≤ x ∧ x < a + b.length then b.getD (x - a) 0 else flashRead m x := by
  induction b generalizing m a with
  | nil =>
    simp only [flashWrites, List.length_nil, Nat.add_zero]
    rw [if_neg (by omega)]
  | cons v b ih =>
    simp only [flashWrites]
    rw [ih (flashWrite_wf h), flashRead_flashWrite h]
    simp only [List.length_cons]
    by_cases hx : x = a
    · subst hx; rw [if_neg (by omega), if_pos rfl, if_pos (by omega)]; simp
    · by_cases hr : a + 1 ≤ x ∧ x < a + 1 + b.length
      · rw [if_pos hr, if_pos (by omega)]
        obtain ⟨n, rfl⟩ : ∃ n, x = a + 1 + n := ⟨x - (a + 1), by omega⟩
        have e1 : a + 1 + n - (a + 1) = n := by omega
        have e2 : a + 1 + n - a = n + 1 := by omega
        rw [e1, e2]; rfl
      · rw [if_neg hr, if_neg (by omega), if_neg (by omega)]

end Sys2Proof.Machine
end

