-- ==== Sys2Proof/Laws/State.lean ====
section
/-!
SUPPORT. What each update of the device leaves alone: one lemma for each update and each part of the device that it does not touch.
-/

namespace Sys2Proof.Machine

variable (d : Dev)

/-! ## `setC` -/

@[simp] theorem Dev.setC_variant (id i : Nat) (v : PVal) : (d.setC id i v).variant = d.variant := rfl
@[simp] theorem Dev.setC_work (id i : Nat) (v : PVal) : (d.setC id i v).work = d.work := rfl
@[simp] theorem Dev.setC_ctl (id i : Nat) (v : PVal) : (d.setC id i v).ctl = d.ctl := rfl
@[simp] theorem Dev.setC_txn (id i : Nat) (v : PVal) : (d.setC id i v).txn = d.txn := rfl
@[simp] theorem Dev.setC_rx (id i : Nat) (v : PVal) : (d.setC id i v).rx = d.rx := rfl
@[simp] theorem Dev.setC_tx (id i : Nat) (v : PVal) : (d.setC id i v).tx = d.tx := rfl
@[simp] theorem Dev.setC_tg (id i : Nat) (v : PVal) : (d.setC id i v).tg = d.tg := rfl
@[simp] theorem Dev.setC_run (id i : Nat) (v : PVal) : (d.setC id i v).run = d.run := rfl
@[simp] theorem Dev.setC_cru (id i : Nat) (v : PVal) : (d.setC id i v).cru = d.cru := rfl
@[simp] theorem Dev.setC_otp (id i : Nat) (v : PVal) : (d.setC id i v).otp = d.otp := rfl
@[simp] theorem Dev.setC_key (id i : Nat) (v : PVal) : (d.setC id i v).key = d.key := rfl
@[simp] theorem Dev.setC_flash (id i : Nat) (v : PVal) : (d.setC id i v).flash = d.flash := rfl
@[simp] theorem Dev.setC_pwr (id i : Nat) (v : PVal) : (d.setC id i v).pwr = d.pwr := rfl
@[simp] theorem Dev.setC_spr (id i : Nat) (v : PVal) : (d.setC id i v).spr = d.spr := rfl
@[simp] theorem Dev.setC_moulds (id i : Nat) (v : PVal) : (d.setC id i v).moulds = d.moulds := rfl
@[simp] theorem Dev.setC_integ (id i : Nat) (v : PVal) : (d.setC id i v).integ = d.integ := rfl
@[simp] theorem Dev.setC_clk (id i : Nat) (v : PVal) : (d.setC id i v).clk = d.clk := rfl
@[simp] theorem Dev.setC_aud (id i : Nat) (v : PVal) : (d.setC id i v).aud = d.aud := rfl
@[simp] theorem Dev.setC_mor (id i : Nat) (v : PVal) : (d.setC id i v).mor = d.mor := rfl
@[simp] theorem Dev.setC_pair (id i : Nat) (v : PVal) : (d.setC id i v).pair = d.pair := rfl
@[simp] theorem Dev.setC_upd (id i : Nat) (v : PVal) : (d.setC id i v).upd = d.upd := rfl
@[simp] theorem Dev.setC_flt (id i : Nat) (v : PVal) : (d.setC id i v).flt = d.flt := rfl
@[simp] theorem Dev.setC_dirty (id i : Nat) (v : PVal) : (d.setC id i v).dirty = d.dirty := rfl
@[simp] theorem Dev.setC_out (id i : Nat) (v : PVal) : (d.setC id i v).out = d.out := rfl
@[simp] theorem Dev.setC_fresh (id i : Nat) (v : PVal) : (d.setC id i v).fresh = d.fresh := rfl

/-! ## `setL` -/

@[simp] theorem Dev.setL_variant (id i : Nat) (v : PVal) : (d.setL id i v).variant = d.variant := rfl
@[simp] theorem Dev.setL_work (id i : Nat) (v : PVal) : (d.setL id i v).work = d.work := rfl
@[simp] theorem Dev.setL_ctl (id i : Nat) (v : PVal) : (d.setL id i v).ctl = d.ctl := rfl
@[simp] theorem Dev.setL_txn (id i : Nat) (v : PVal) : (d.setL id i v).txn = d.txn := rfl
@[simp] theorem Dev.setL_rx (id i : Nat) (v : PVal) : (d.setL id i v).rx = d.rx := rfl
@[simp] theorem Dev.setL_tx (id i : Nat) (v : PVal) : (d.setL id i v).tx = d.tx := rfl
@[simp] theorem Dev.setL_tg (id i : Nat) (v : PVal) : (d.setL id i v).tg = d.tg := rfl
@[simp] theorem Dev.setL_run (id i : Nat) (v : PVal) : (d.setL id i v).run = d.run := rfl
@[simp] theorem Dev.setL_cru (id i : Nat) (v : PVal) : (d.setL id i v).cru = d.cru := rfl
@[simp] theorem Dev.setL_otp (id i : Nat) (v : PVal) : (d.setL id i v).otp = d.otp := rfl
@[simp] theorem Dev.setL_key (id i : Nat) (v : PVal) : (d.setL id i v).key = d.key := rfl
@[simp] theorem Dev.setL_flash (id i : Nat) (v : PVal) : (d.setL id i v).flash = d.flash := rfl
@[simp] theorem Dev.setL_pwr (id i : Nat) (v : PVal) : (d.setL id i v).pwr = d.pwr := rfl
@[simp] theorem Dev.setL_spr (id i : Nat) (v : PVal) : (d.setL id i v).spr = d.spr := rfl
@[simp] theorem Dev.setL_moulds (id i : Nat) (v : PVal) : (d.setL id i v).moulds = d.moulds := rfl
@[simp] theorem Dev.setL_integ (id i : Nat) (v : PVal) : (d.setL id i v).integ = d.integ := rfl
@[simp] theorem Dev.setL_clk (id i : Nat) (v : PVal) : (d.setL id i v).clk = d.clk := rfl
@[simp] theorem Dev.setL_aud (id i : Nat) (v : PVal) : (d.setL id i v).aud = d.aud := rfl
@[simp] theorem Dev.setL_mor (id i : Nat) (v : PVal) : (d.setL id i v).mor = d.mor := rfl
@[simp] theorem Dev.setL_pair (id i : Nat) (v : PVal) : (d.setL id i v).pair = d.pair := rfl
@[simp] theorem Dev.setL_upd (id i : Nat) (v : PVal) : (d.setL id i v).upd = d.upd := rfl
@[simp] theorem Dev.setL_flt (id i : Nat) (v : PVal) : (d.setL id i v).flt = d.flt := rfl
@[simp] theorem Dev.setL_dirty (id i : Nat) (v : PVal) : (d.setL id i v).dirty = d.dirty := rfl
@[simp] theorem Dev.setL_out (id i : Nat) (v : PVal) : (d.setL id i v).out = d.out := rfl
@[simp] theorem Dev.setL_fresh (id i : Nat) (v : PVal) : (d.setL id i v).fresh = d.fresh := rfl

/-! ## `setS` -/

@[simp] theorem Dev.setS_variant (id i : Nat) (v : PVal) : (d.setS id i v).variant = d.variant := rfl
@[simp] theorem Dev.setS_work (id i : Nat) (v : PVal) : (d.setS id i v).work = d.work := rfl
@[simp] theorem Dev.setS_ctl (id i : Nat) (v : PVal) : (d.setS id i v).ctl = d.ctl := rfl
@[simp] theorem Dev.setS_txn (id i : Nat) (v : PVal) : (d.setS id i v).txn = d.txn := rfl
@[simp] theorem Dev.setS_rx (id i : Nat) (v : PVal) : (d.setS id i v).rx = d.rx := rfl
@[simp] theorem Dev.setS_tx (id i : Nat) (v : PVal) : (d.setS id i v).tx = d.tx := rfl
@[simp] theorem Dev.setS_tg (id i : Nat) (v : PVal) : (d.setS id i v).tg = d.tg := rfl
@[simp] theorem Dev.setS_run (id i : Nat) (v : PVal) : (d.setS id i v).run = d.run := rfl
@[simp] theorem Dev.setS_cru (id i : Nat) (v : PVal) : (d.setS id i v).cru = d.cru := rfl
@[simp] theorem Dev.setS_otp (id i : Nat) (v : PVal) : (d.setS id i v).otp = d.otp := rfl
@[simp] theorem Dev.setS_key (id i : Nat) (v : PVal) : (d.setS id i v).key = d.key := rfl
@[simp] theorem Dev.setS_flash (id i : Nat) (v : PVal) : (d.setS id i v).flash = d.flash := rfl
@[simp] theorem Dev.setS_pwr (id i : Nat) (v : PVal) : (d.setS id i v).pwr = d.pwr := rfl
@[simp] theorem Dev.setS_spr (id i : Nat) (v : PVal) : (d.setS id i v).spr = d.spr := rfl
@[simp] theorem Dev.setS_moulds (id i : Nat) (v : PVal) : (d.setS id i v).moulds = d.moulds := rfl
@[simp] theorem Dev.setS_integ (id i : Nat) (v : PVal) : (d.setS id i v).integ = d.integ := rfl
@[simp] theorem Dev.setS_clk (id i : Nat) (v : PVal) : (d.setS id i v).clk = d.clk := rfl
@[simp] theorem Dev.setS_aud (id i : Nat) (v : PVal) : (d.setS id i v).aud = d.aud := rfl
@[simp] theorem Dev.setS_mor (id i : Nat) (v : PVal) : (d.setS id i v).mor = d.mor := rfl
@[simp] theorem Dev.setS_pair (id i : Nat) (v : PVal) : (d.setS id i v).pair = d.pair := rfl
@[simp] theorem Dev.setS_upd (id i : Nat) (v : PVal) : (d.setS id i v).upd = d.upd := rfl
@[simp] theorem Dev.setS_flt (id i : Nat) (v : PVal) : (d.setS id i v).flt = d.flt := rfl
@[simp] theorem Dev.setS_dirty (id i : Nat) (v : PVal) : (d.setS id i v).dirty = d.dirty := rfl
@[simp] theorem Dev.setS_out (id i : Nat) (v : PVal) : (d.setS id i v).out = d.out := rfl
@[simp] theorem Dev.setS_fresh (id i : Nat) (v : PVal) : (d.setS id i v).fresh = d.fresh := rfl

/-! ## `setSN` -/

@[simp] theorem Dev.setSN_variant (id i v : Nat) : (d.setSN id i v).variant = d.variant := rfl
@[simp] theorem Dev.setSN_work (id i v : Nat) : (d.setSN id i v).work = d.work := rfl
@[simp] theorem Dev.setSN_ctl (id i v : Nat) : (d.setSN id i v).ctl = d.ctl := rfl
@[simp] theorem Dev.setSN_txn (id i v : Nat) : (d.setSN id i v).txn = d.txn := rfl
@[simp] theorem Dev.setSN_rx (id i v : Nat) : (d.setSN id i v).rx = d.rx := rfl
@[simp] theorem Dev.setSN_tx (id i v : Nat) : (d.setSN id i v).tx = d.tx := rfl
@[simp] theorem Dev.setSN_tg (id i v : Nat) : (d.setSN id i v).tg = d.tg := rfl
@[simp] theorem Dev.setSN_run (id i v : Nat) : (d.setSN id i v).run = d.run := rfl
@[simp] theorem Dev.setSN_cru (id i v : Nat) : (d.setSN id i v).cru = d.cru := rfl
@[simp] theorem Dev.setSN_otp (id i v : Nat) : (d.setSN id i v).otp = d.otp := rfl
@[simp] theorem Dev.setSN_key (id i v : Nat) : (d.setSN id i v).key = d.key := rfl
@[simp] theorem Dev.setSN_flash (id i v : Nat) : (d.setSN id i v).flash = d.flash := rfl
@[simp] theorem Dev.setSN_pwr (id i v : Nat) : (d.setSN id i v).pwr = d.pwr := rfl
@[simp] theorem Dev.setSN_spr (id i v : Nat) : (d.setSN id i v).spr = d.spr := rfl
@[simp] theorem Dev.setSN_moulds (id i v : Nat) : (d.setSN id i v).moulds = d.moulds := rfl
@[simp] theorem Dev.setSN_integ (id i v : Nat) : (d.setSN id i v).integ = d.integ := rfl
@[simp] theorem Dev.setSN_clk (id i v : Nat) : (d.setSN id i v).clk = d.clk := rfl
@[simp] theorem Dev.setSN_aud (id i v : Nat) : (d.setSN id i v).aud = d.aud := rfl
@[simp] theorem Dev.setSN_mor (id i v : Nat) : (d.setSN id i v).mor = d.mor := rfl
@[simp] theorem Dev.setSN_pair (id i v : Nat) : (d.setSN id i v).pair = d.pair := rfl
@[simp] theorem Dev.setSN_upd (id i v : Nat) : (d.setSN id i v).upd = d.upd := rfl
@[simp] theorem Dev.setSN_flt (id i v : Nat) : (d.setSN id i v).flt = d.flt := rfl
@[simp] theorem Dev.setSN_dirty (id i v : Nat) : (d.setSN id i v).dirty = d.dirty := rfl
@[simp] theorem Dev.setSN_out (id i v : Nat) : (d.setSN id i v).out = d.out := rfl
@[simp] theorem Dev.setSN_fresh (id i v : Nat) : (d.setSN id i v).fresh = d.fresh := rfl

/-! ## `bumpField` -/

@[simp] theorem Dev.bumpField_variant (id i lo w k : Nat) : (d.bumpField id i lo w k).variant = d.variant := rfl
@[simp] theorem Dev.bumpField_work (id i lo w k : Nat) : (d.bumpField id i lo w k).work = d.work := rfl
@[simp] theorem Dev.bumpField_ctl (id i lo w k : Nat) : (d.bumpField id i lo w k).ctl = d.ctl := rfl
@[simp] theorem Dev.bumpField_txn (id i lo w k : Nat) : (d.bumpField id i lo w k).txn = d.txn := rfl
@[simp] theorem Dev.bumpField_rx (id i lo w k : Nat) : (d.bumpField id i lo w k).rx = d.rx := rfl
@[simp] theorem Dev.bumpField_tx (id i lo w k : Nat) : (d.bumpField id i lo w k).tx = d.tx := rfl
@[simp] theorem Dev.bumpField_tg (id i lo w k : Nat) : (d.bumpField id i lo w k).tg = d.tg := rfl
@[simp] theorem Dev.bumpField_run (id i lo w k : Nat) : (d.bumpField id i lo w k).run = d.run := rfl
@[simp] theorem Dev.bumpField_cru (id i lo w k : Nat) : (d.bumpField id i lo w k).cru = d.cru := rfl
@[simp] theorem Dev.bumpField_otp (id i lo w k : Nat) : (d.bumpField id i lo w k).otp = d.otp := rfl
@[simp] theorem Dev.bumpField_key (id i lo w k : Nat) : (d.bumpField id i lo w k).key = d.key := rfl
@[simp] theorem Dev.bumpField_flash (id i lo w k : Nat) : (d.bumpField id i lo w k).flash = d.flash := rfl
@[simp] theorem Dev.bumpField_pwr (id i lo w k : Nat) : (d.bumpField id i lo w k).pwr = d.pwr := rfl
@[simp] theorem Dev.bumpField_spr (id i lo w k : Nat) : (d.bumpField id i lo w k).spr = d.spr := rfl
@[simp] theorem Dev.bumpField_moulds (id i lo w k : Nat) : (d.bumpField id i lo w k).moulds = d.moulds := rfl
@[simp] theorem Dev.bumpField_integ (id i lo w k : Nat) : (d.bumpField id i lo w k).integ = d.integ := rfl
@[simp] theorem Dev.bumpField_clk (id i lo w k : Nat) : (d.bumpField id i lo w k).clk = d.clk := rfl
@[simp] theorem Dev.bumpField_aud (id i lo w k : Nat) : (d.bumpField id i lo w k).aud = d.aud := rfl
@[simp] theorem Dev.bumpField_mor (id i lo w k : Nat) : (d.bumpField id i lo w k).mor = d.mor := rfl
@[simp] theorem Dev.bumpField_pair (id i lo w k : Nat) : (d.bumpField id i lo w k).pair = d.pair := rfl
@[simp] theorem Dev.bumpField_upd (id i lo w k : Nat) : (d.bumpField id i lo w k).upd = d.upd := rfl
@[simp] theorem Dev.bumpField_flt (id i lo w k : Nat) : (d.bumpField id i lo w k).flt = d.flt := rfl
@[simp] theorem Dev.bumpField_dirty (id i lo w k : Nat) : (d.bumpField id i lo w k).dirty = d.dirty := rfl
@[simp] theorem Dev.bumpField_out (id i lo w k : Nat) : (d.bumpField id i lo w k).out = d.out := rfl
@[simp] theorem Dev.bumpField_fresh (id i lo w k : Nat) : (d.bumpField id i lo w k).fresh = d.fresh := rfl

/-! ## `putField` -/

@[simp] theorem Dev.putField_variant (id i lo w k : Nat) : (d.putField id i lo w k).variant = d.variant := rfl
@[simp] theorem Dev.putField_work (id i lo w k : Nat) : (d.putField id i lo w k).work = d.work := rfl
@[simp] theorem Dev.putField_ctl (id i lo w k : Nat) : (d.putField id i lo w k).ctl = d.ctl := rfl
@[simp] theorem Dev.putField_txn (id i lo w k : Nat) : (d.putField id i lo w k).txn = d.txn := rfl
@[simp] theorem Dev.putField_rx (id i lo w k : Nat) : (d.putField id i lo w k).rx = d.rx := rfl
@[simp] theorem Dev.putField_tx (id i lo w k : Nat) : (d.putField id i lo w k).tx = d.tx := rfl
@[simp] theorem Dev.putField_tg (id i lo w k : Nat) : (d.putField id i lo w k).tg = d.tg := rfl
@[simp] theorem Dev.putField_run (id i lo w k : Nat) : (d.putField id i lo w k).run = d.run := rfl
@[simp] theorem Dev.putField_cru (id i lo w k : Nat) : (d.putField id i lo w k).cru = d.cru := rfl
@[simp] theorem Dev.putField_otp (id i lo w k : Nat) : (d.putField id i lo w k).otp = d.otp := rfl
@[simp] theorem Dev.putField_key (id i lo w k : Nat) : (d.putField id i lo w k).key = d.key := rfl
@[simp] theorem Dev.putField_flash (id i lo w k : Nat) : (d.putField id i lo w k).flash = d.flash := rfl
@[simp] theorem Dev.putField_pwr (id i lo w k : Nat) : (d.putField id i lo w k).pwr = d.pwr := rfl
@[simp] theorem Dev.putField_spr (id i lo w k : Nat) : (d.putField id i lo w k).spr = d.spr := rfl
@[simp] theorem Dev.putField_moulds (id i lo w k : Nat) : (d.putField id i lo w k).moulds = d.moulds := rfl
@[simp] theorem Dev.putField_integ (id i lo w k : Nat) : (d.putField id i lo w k).integ = d.integ := rfl
@[simp] theorem Dev.putField_clk (id i lo w k : Nat) : (d.putField id i lo w k).clk = d.clk := rfl
@[simp] theorem Dev.putField_aud (id i lo w k : Nat) : (d.putField id i lo w k).aud = d.aud := rfl
@[simp] theorem Dev.putField_mor (id i lo w k : Nat) : (d.putField id i lo w k).mor = d.mor := rfl
@[simp] theorem Dev.putField_pair (id i lo w k : Nat) : (d.putField id i lo w k).pair = d.pair := rfl
@[simp] theorem Dev.putField_upd (id i lo w k : Nat) : (d.putField id i lo w k).upd = d.upd := rfl
@[simp] theorem Dev.putField_flt (id i lo w k : Nat) : (d.putField id i lo w k).flt = d.flt := rfl
@[simp] theorem Dev.putField_dirty (id i lo w k : Nat) : (d.putField id i lo w k).dirty = d.dirty := rfl
@[simp] theorem Dev.putField_out (id i lo w k : Nat) : (d.putField id i lo w k).out = d.out := rfl
@[simp] theorem Dev.putField_fresh (id i lo w k : Nat) : (d.putField id i lo w k).fresh = d.fresh := rfl

/-! ## `say` -/

@[simp] theorem Dev.say_variant (o : Out) : (d.say o).variant = d.variant := rfl
@[simp] theorem Dev.say_par (o : Out) : (d.say o).par = d.par := rfl
@[simp] theorem Dev.say_work (o : Out) : (d.say o).work = d.work := rfl
@[simp] theorem Dev.say_ctl (o : Out) : (d.say o).ctl = d.ctl := rfl
@[simp] theorem Dev.say_txn (o : Out) : (d.say o).txn = d.txn := rfl
@[simp] theorem Dev.say_rx (o : Out) : (d.say o).rx = d.rx := rfl
@[simp] theorem Dev.say_tx (o : Out) : (d.say o).tx = d.tx := rfl
@[simp] theorem Dev.say_tg (o : Out) : (d.say o).tg = d.tg := rfl
@[simp] theorem Dev.say_run (o : Out) : (d.say o).run = d.run := rfl
@[simp] theorem Dev.say_cru (o : Out) : (d.say o).cru = d.cru := rfl
@[simp] theorem Dev.say_otp (o : Out) : (d.say o).otp = d.otp := rfl
@[simp] theorem Dev.say_key (o : Out) : (d.say o).key = d.key := rfl
@[simp] theorem Dev.say_flash (o : Out) : (d.say o).flash = d.flash := rfl
@[simp] theorem Dev.say_pwr (o : Out) : (d.say o).pwr = d.pwr := rfl
@[simp] theorem Dev.say_spr (o : Out) : (d.say o).spr = d.spr := rfl
@[simp] theorem Dev.say_moulds (o : Out) : (d.say o).moulds = d.moulds := rfl
@[simp] theorem Dev.say_integ (o : Out) : (d.say o).integ = d.integ := rfl
@[simp] theorem Dev.say_clk (o : Out) : (d.say o).clk = d.clk := rfl
@[simp] theorem Dev.say_aud (o : Out) : (d.say o).aud = d.aud := rfl
@[simp] theorem Dev.say_mor (o : Out) : (d.say o).mor = d.mor := rfl
@[simp] theorem Dev.say_pair (o : Out) : (d.say o).pair = d.pair := rfl
@[simp] theorem Dev.say_upd (o : Out) : (d.say o).upd = d.upd := rfl
@[simp] theorem Dev.say_flt (o : Out) : (d.say o).flt = d.flt := rfl
@[simp] theorem Dev.say_dirty (o : Out) : (d.say o).dirty = d.dirty := rfl
@[simp] theorem Dev.say_fresh (o : Out) : (d.say o).fresh = d.fresh := rfl

/-! ## `onSlot` -/

@[simp] theorem Dev.onSlot_variant (i : Nat) (f : Session → Session) : (d.onSlot i f).variant = d.variant := rfl
@[simp] theorem Dev.onSlot_par (i : Nat) (f : Session → Session) : (d.onSlot i f).par = d.par := rfl
@[simp] theorem Dev.onSlot_work (i : Nat) (f : Session → Session) : (d.onSlot i f).work = d.work := rfl
@[simp] theorem Dev.onSlot_txn (i : Nat) (f : Session → Session) : (d.onSlot i f).txn = d.txn := rfl
@[simp] theorem Dev.onSlot_rx (i : Nat) (f : Session → Session) : (d.onSlot i f).rx = d.rx := rfl
@[simp] theorem Dev.onSlot_tx (i : Nat) (f : Session → Session) : (d.onSlot i f).tx = d.tx := rfl
@[simp] theorem Dev.onSlot_tg (i : Nat) (f : Session → Session) : (d.onSlot i f).tg = d.tg := rfl
@[simp] theorem Dev.onSlot_run (i : Nat) (f : Session → Session) : (d.onSlot i f).run = d.run := rfl
@[simp] theorem Dev.onSlot_cru (i : Nat) (f : Session → Session) : (d.onSlot i f).cru = d.cru := rfl
@[simp] theorem Dev.onSlot_otp (i : Nat) (f : Session → Session) : (d.onSlot i f).otp = d.otp := rfl
@[simp] theorem Dev.onSlot_key (i : Nat) (f : Session → Session) : (d.onSlot i f).key = d.key := rfl
@[simp] theorem Dev.onSlot_flash (i : Nat) (f : Session → Session) : (d.onSlot i f).flash = d.flash := rfl
@[simp] theorem Dev.onSlot_pwr (i : Nat) (f : Session → Session) : (d.onSlot i f).pwr = d.pwr := rfl
@[simp] theorem Dev.onSlot_spr (i : Nat) (f : Session → Session) : (d.onSlot i f).spr = d.spr := rfl
@[simp] theorem Dev.onSlot_moulds (i : Nat) (f : Session → Session) : (d.onSlot i f).moulds = d.moulds := rfl
@[simp] theorem Dev.onSlot_integ (i : Nat) (f : Session → Session) : (d.onSlot i f).integ = d.integ := rfl
@[simp] theorem Dev.onSlot_clk (i : Nat) (f : Session → Session) : (d.onSlot i f).clk = d.clk := rfl
@[simp] theorem Dev.onSlot_aud (i : Nat) (f : Session → Session) : (d.onSlot i f).aud = d.aud := rfl
@[simp] theorem Dev.onSlot_mor (i : Nat) (f : Session → Session) : (d.onSlot i f).mor = d.mor := rfl
@[simp] theorem Dev.onSlot_pair (i : Nat) (f : Session → Session) : (d.onSlot i f).pair = d.pair := rfl
@[simp] theorem Dev.onSlot_upd (i : Nat) (f : Session → Session) : (d.onSlot i f).upd = d.upd := rfl
@[simp] theorem Dev.onSlot_flt (i : Nat) (f : Session → Session) : (d.onSlot i f).flt = d.flt := rfl
@[simp] theorem Dev.onSlot_dirty (i : Nat) (f : Session → Session) : (d.onSlot i f).dirty = d.dirty := rfl
@[simp] theorem Dev.onSlot_out (i : Nat) (f : Session → Session) : (d.onSlot i f).out = d.out := rfl
@[simp] theorem Dev.onSlot_fresh (i : Nat) (f : Session → Session) : (d.onSlot i f).fresh = d.fresh := rfl

/-! ## `hold` -/

@[simp] theorem Dev.hold_variant (h : HeldReply) : (d.hold h).variant = d.variant := rfl
@[simp] theorem Dev.hold_par (h : HeldReply) : (d.hold h).par = d.par := rfl
@[simp] theorem Dev.hold_work (h : HeldReply) : (d.hold h).work = d.work := rfl
@[simp] theorem Dev.hold_txn (h : HeldReply) : (d.hold h).txn = d.txn := rfl
@[simp] theorem Dev.hold_rx (h : HeldReply) : (d.hold h).rx = d.rx := rfl
@[simp] theorem Dev.hold_tx (h : HeldReply) : (d.hold h).tx = d.tx := rfl
@[simp] theorem Dev.hold_tg (h : HeldReply) : (d.hold h).tg = d.tg := rfl
@[simp] theorem Dev.hold_run (h : HeldReply) : (d.hold h).run = d.run := rfl
@[simp] theorem Dev.hold_cru (h : HeldReply) : (d.hold h).cru = d.cru := rfl
@[simp] theorem Dev.hold_otp (h : HeldReply) : (d.hold h).otp = d.otp := rfl
@[simp] theorem Dev.hold_key (h : HeldReply) : (d.hold h).key = d.key := rfl
@[simp] theorem Dev.hold_flash (h : HeldReply) : (d.hold h).flash = d.flash := rfl
@[simp] theorem Dev.hold_pwr (h : HeldReply) : (d.hold h).pwr = d.pwr := rfl
@[simp] theorem Dev.hold_spr (h : HeldReply) : (d.hold h).spr = d.spr := rfl
@[simp] theorem Dev.hold_moulds (h : HeldReply) : (d.hold h).moulds = d.moulds := rfl
@[simp] theorem Dev.hold_integ (h : HeldReply) : (d.hold h).integ = d.integ := rfl
@[simp] theorem Dev.hold_clk (h : HeldReply) : (d.hold h).clk = d.clk := rfl
@[simp] theorem Dev.hold_aud (h : HeldReply) : (d.hold h).aud = d.aud := rfl
@[simp] theorem Dev.hold_mor (h : HeldReply) : (d.hold h).mor = d.mor := rfl
@[simp] theorem Dev.hold_pair (h : HeldReply) : (d.hold h).pair = d.pair := rfl
@[simp] theorem Dev.hold_upd (h : HeldReply) : (d.hold h).upd = d.upd := rfl
@[simp] theorem Dev.hold_flt (h : HeldReply) : (d.hold h).flt = d.flt := rfl
@[simp] theorem Dev.hold_dirty (h : HeldReply) : (d.hold h).dirty = d.dirty := rfl
@[simp] theorem Dev.hold_out (h : HeldReply) : (d.hold h).out = d.out := rfl
@[simp] theorem Dev.hold_fresh (h : HeldReply) : (d.hold h).fresh = d.fresh := rfl

/-! ## `degrade` -/

@[simp] theorem Dev.degrade_variant (b : Nat) : (d.degrade b).variant = d.variant := rfl
@[simp] theorem Dev.degrade_work (b : Nat) : (d.degrade b).work = d.work := rfl
@[simp] theorem Dev.degrade_ctl (b : Nat) : (d.degrade b).ctl = d.ctl := rfl
@[simp] theorem Dev.degrade_txn (b : Nat) : (d.degrade b).txn = d.txn := rfl
@[simp] theorem Dev.degrade_rx (b : Nat) : (d.degrade b).rx = d.rx := rfl
@[simp] theorem Dev.degrade_tx (b : Nat) : (d.degrade b).tx = d.tx := rfl
@[simp] theorem Dev.degrade_tg (b : Nat) : (d.degrade b).tg = d.tg := rfl
@[simp] theorem Dev.degrade_run (b : Nat) : (d.degrade b).run = d.run := rfl
@[simp] theorem Dev.degrade_cru (b : Nat) : (d.degrade b).cru = d.cru := rfl
@[simp] theorem Dev.degrade_otp (b : Nat) : (d.degrade b).otp = d.otp := rfl
@[simp] theorem Dev.degrade_key (b : Nat) : (d.degrade b).key = d.key := rfl
@[simp] theorem Dev.degrade_flash (b : Nat) : (d.degrade b).flash = d.flash := rfl
@[simp] theorem Dev.degrade_pwr (b : Nat) : (d.degrade b).pwr = d.pwr := rfl
@[simp] theorem Dev.degrade_spr (b : Nat) : (d.degrade b).spr = d.spr := rfl
@[simp] theorem Dev.degrade_moulds (b : Nat) : (d.degrade b).moulds = d.moulds := rfl
@[simp] theorem Dev.degrade_integ (b : Nat) : (d.degrade b).integ = d.integ := rfl
@[simp] theorem Dev.degrade_clk (b : Nat) : (d.degrade b).clk = d.clk := rfl
@[simp] theorem Dev.degrade_aud (b : Nat) : (d.degrade b).aud = d.aud := rfl
@[simp] theorem Dev.degrade_mor (b : Nat) : (d.degrade b).mor = d.mor := rfl
@[simp] theorem Dev.degrade_pair (b : Nat) : (d.degrade b).pair = d.pair := rfl
@[simp] theorem Dev.degrade_upd (b : Nat) : (d.degrade b).upd = d.upd := rfl
@[simp] theorem Dev.degrade_flt (b : Nat) : (d.degrade b).flt = d.flt := rfl
@[simp] theorem Dev.degrade_dirty (b : Nat) : (d.degrade b).dirty = d.dirty := rfl
@[simp] theorem Dev.degrade_out (b : Nat) : (d.degrade b).out = d.out := rfl
@[simp] theorem Dev.degrade_fresh (b : Nat) : (d.degrade b).fresh = d.fresh := rfl

/-! ## `undegrade` -/

@[simp] theorem Dev.undegrade_variant (b : Nat) : (d.undegrade b).variant = d.variant := rfl
@[simp] theorem Dev.undegrade_work (b : Nat) : (d.undegrade b).work = d.work := rfl
@[simp] theorem Dev.undegrade_ctl (b : Nat) : (d.undegrade b).ctl = d.ctl := rfl
@[simp] theorem Dev.undegrade_txn (b : Nat) : (d.undegrade b).txn = d.txn := rfl
@[simp] theorem Dev.undegrade_rx (b : Nat) : (d.undegrade b).rx = d.rx := rfl
@[simp] theorem Dev.undegrade_tx (b : Nat) : (d.undegrade b).tx = d.tx := rfl
@[simp] theorem Dev.undegrade_tg (b : Nat) : (d.undegrade b).tg = d.tg := rfl
@[simp] theorem Dev.undegrade_run (b : Nat) : (d.undegrade b).run = d.run := rfl
@[simp] theorem Dev.undegrade_cru (b : Nat) : (d.undegrade b).cru = d.cru := rfl
@[simp] theorem Dev.undegrade_otp (b : Nat) : (d.undegrade b).otp = d.otp := rfl
@[simp] theorem Dev.undegrade_key (b : Nat) : (d.undegrade b).key = d.key := rfl
@[simp] theorem Dev.undegrade_flash (b : Nat) : (d.undegrade b).flash = d.flash := rfl
@[simp] theorem Dev.undegrade_pwr (b : Nat) : (d.undegrade b).pwr = d.pwr := rfl
@[simp] theorem Dev.undegrade_spr (b : Nat) : (d.undegrade b).spr = d.spr := rfl
@[simp] theorem Dev.undegrade_moulds (b : Nat) : (d.undegrade b).moulds = d.moulds := rfl
@[simp] theorem Dev.undegrade_integ (b : Nat) : (d.undegrade b).integ = d.integ := rfl
@[simp] theorem Dev.undegrade_clk (b : Nat) : (d.undegrade b).clk = d.clk := rfl
@[simp] theorem Dev.undegrade_aud (b : Nat) : (d.undegrade b).aud = d.aud := rfl
@[simp] theorem Dev.undegrade_mor (b : Nat) : (d.undegrade b).mor = d.mor := rfl
@[simp] theorem Dev.undegrade_pair (b : Nat) : (d.undegrade b).pair = d.pair := rfl
@[simp] theorem Dev.undegrade_upd (b : Nat) : (d.undegrade b).upd = d.upd := rfl
@[simp] theorem Dev.undegrade_flt (b : Nat) : (d.undegrade b).flt = d.flt := rfl
@[simp] theorem Dev.undegrade_dirty (b : Nat) : (d.undegrade b).dirty = d.dirty := rfl
@[simp] theorem Dev.undegrade_out (b : Nat) : (d.undegrade b).out = d.out := rfl
@[simp] theorem Dev.undegrade_fresh (b : Nat) : (d.undegrade b).fresh = d.fresh := rfl

/-! ## `onCup` -/

@[simp] theorem Dev.onCup_variant (i : Nat) (f : Cupola → Cupola) : (d.onCup i f).variant = d.variant := rfl
@[simp] theorem Dev.onCup_par (i : Nat) (f : Cupola → Cupola) : (d.onCup i f).par = d.par := rfl
@[simp] theorem Dev.onCup_work (i : Nat) (f : Cupola → Cupola) : (d.onCup i f).work = d.work := rfl
@[simp] theorem Dev.onCup_ctl (i : Nat) (f : Cupola → Cupola) : (d.onCup i f).ctl = d.ctl := rfl
@[simp] theorem Dev.onCup_txn (i : Nat) (f : Cupola → Cupola) : (d.onCup i f).txn = d.txn := rfl
@[simp] theorem Dev.onCup_rx (i : Nat) (f : Cupola → Cupola) : (d.onCup i f).rx = d.rx := rfl
@[simp] theorem Dev.onCup_tx (i : Nat) (f : Cupola → Cupola) : (d.onCup i f).tx = d.tx := rfl
@[simp] theorem Dev.onCup_tg (i : Nat) (f : Cupola → Cupola) : (d.onCup i f).tg = d.tg := rfl
@[simp] theorem Dev.onCup_run (i : Nat) (f : Cupola → Cupola) : (d.onCup i f).run = d.run := rfl
@[simp] theorem Dev.onCup_cru (i : Nat) (f : Cupola → Cupola) : (d.onCup i f).cru = d.cru := rfl
@[simp] theorem Dev.onCup_otp (i : Nat) (f : Cupola → Cupola) : (d.onCup i f).otp = d.otp := rfl
@[simp] theorem Dev.onCup_key (i : Nat) (f : Cupola → Cupola) : (d.onCup i f).key = d.key := rfl
@[simp] theorem Dev.onCup_flash (i : Nat) (f : Cupola → Cupola) : (d.onCup i f).flash = d.flash := rfl
@[simp] theorem Dev.onCup_pwr (i : Nat) (f : Cupola → Cupola) : (d.onCup i f).pwr = d.pwr := rfl
@[simp] theorem Dev.onCup_spr (i : Nat) (f : Cupola → Cupola) : (d.onCup i f).spr = d.spr := rfl
@[simp] theorem Dev.onCup_moulds (i : Nat) (f : Cupola → Cupola) : (d.onCup i f).moulds = d.moulds := rfl
@[simp] theorem Dev.onCup_integ (i : Nat) (f : Cupola → Cupola) : (d.onCup i f).integ = d.integ := rfl
@[simp] theorem Dev.onCup_aud (i : Nat) (f : Cupola → Cupola) : (d.onCup i f).aud = d.aud := rfl
@[simp] theorem Dev.onCup_mor (i : Nat) (f : Cupola → Cupola) : (d.onCup i f).mor = d.mor := rfl
@[simp] theorem Dev.onCup_pair (i : Nat) (f : Cupola → Cupola) : (d.onCup i f).pair = d.pair := rfl
@[simp] theorem Dev.onCup_upd (i : Nat) (f : Cupola → Cupola) : (d.onCup i f).upd = d.upd := rfl
@[simp] theorem Dev.onCup_flt (i : Nat) (f : Cupola → Cupola) : (d.onCup i f).flt = d.flt := rfl
@[simp] theorem Dev.onCup_dirty (i : Nat) (f : Cupola → Cupola) : (d.onCup i f).dirty = d.dirty := rfl
@[simp] theorem Dev.onCup_out (i : Nat) (f : Cupola → Cupola) : (d.onCup i f).out = d.out := rfl
@[simp] theorem Dev.onCup_fresh (i : Nat) (f : Cupola → Cupola) : (d.onCup i f).fresh = d.fresh := rfl

/-! ## `onRef` -/

@[simp] theorem Dev.onRef_variant (f : RefMon → RefMon) : (d.onRef f).variant = d.variant := rfl
@[simp] theorem Dev.onRef_par (f : RefMon → RefMon) : (d.onRef f).par = d.par := rfl
@[simp] theorem Dev.onRef_work (f : RefMon → RefMon) : (d.onRef f).work = d.work := rfl
@[simp] theorem Dev.onRef_ctl (f : RefMon → RefMon) : (d.onRef f).ctl = d.ctl := rfl
@[simp] theorem Dev.onRef_txn (f : RefMon → RefMon) : (d.onRef f).txn = d.txn := rfl
@[simp] theorem Dev.onRef_rx (f : RefMon → RefMon) : (d.onRef f).rx = d.rx := rfl
@[simp] theorem Dev.onRef_tx (f : RefMon → RefMon) : (d.onRef f).tx = d.tx := rfl
@[simp] theorem Dev.onRef_tg (f : RefMon → RefMon) : (d.onRef f).tg = d.tg := rfl
@[simp] theorem Dev.onRef_run (f : RefMon → RefMon) : (d.onRef f).run = d.run := rfl
@[simp] theorem Dev.onRef_cru (f : RefMon → RefMon) : (d.onRef f).cru = d.cru := rfl
@[simp] theorem Dev.onRef_otp (f : RefMon → RefMon) : (d.onRef f).otp = d.otp := rfl
@[simp] theorem Dev.onRef_key (f : RefMon → RefMon) : (d.onRef f).key = d.key := rfl
@[simp] theorem Dev.onRef_flash (f : RefMon → RefMon) : (d.onRef f).flash = d.flash := rfl
@[simp] theorem Dev.onRef_pwr (f : RefMon → RefMon) : (d.onRef f).pwr = d.pwr := rfl
@[simp] theorem Dev.onRef_spr (f : RefMon → RefMon) : (d.onRef f).spr = d.spr := rfl
@[simp] theorem Dev.onRef_moulds (f : RefMon → RefMon) : (d.onRef f).moulds = d.moulds := rfl
@[simp] theorem Dev.onRef_integ (f : RefMon → RefMon) : (d.onRef f).integ = d.integ := rfl
@[simp] theorem Dev.onRef_aud (f : RefMon → RefMon) : (d.onRef f).aud = d.aud := rfl
@[simp] theorem Dev.onRef_mor (f : RefMon → RefMon) : (d.onRef f).mor = d.mor := rfl
@[simp] theorem Dev.onRef_pair (f : RefMon → RefMon) : (d.onRef f).pair = d.pair := rfl
@[simp] theorem Dev.onRef_upd (f : RefMon → RefMon) : (d.onRef f).upd = d.upd := rfl
@[simp] theorem Dev.onRef_flt (f : RefMon → RefMon) : (d.onRef f).flt = d.flt := rfl
@[simp] theorem Dev.onRef_dirty (f : RefMon → RefMon) : (d.onRef f).dirty = d.dirty := rfl
@[simp] theorem Dev.onRef_out (f : RefMon → RefMon) : (d.onRef f).out = d.out := rfl
@[simp] theorem Dev.onRef_fresh (f : RefMon → RefMon) : (d.onRef f).fresh = d.fresh := rfl

/-! ## `onLadle` -/

@[simp] theorem Dev.onLadle_variant (i : Nat) (f : Ladle → Ladle) : (d.onLadle i f).variant = d.variant := rfl
@[simp] theorem Dev.onLadle_par (i : Nat) (f : Ladle → Ladle) : (d.onLadle i f).par = d.par := rfl
@[simp] theorem Dev.onLadle_work (i : Nat) (f : Ladle → Ladle) : (d.onLadle i f).work = d.work := rfl
@[simp] theorem Dev.onLadle_ctl (i : Nat) (f : Ladle → Ladle) : (d.onLadle i f).ctl = d.ctl := rfl
@[simp] theorem Dev.onLadle_txn (i : Nat) (f : Ladle → Ladle) : (d.onLadle i f).txn = d.txn := rfl
@[simp] theorem Dev.onLadle_rx (i : Nat) (f : Ladle → Ladle) : (d.onLadle i f).rx = d.rx := rfl
@[simp] theorem Dev.onLadle_tx (i : Nat) (f : Ladle → Ladle) : (d.onLadle i f).tx = d.tx := rfl
@[simp] theorem Dev.onLadle_tg (i : Nat) (f : Ladle → Ladle) : (d.onLadle i f).tg = d.tg := rfl
@[simp] theorem Dev.onLadle_run (i : Nat) (f : Ladle → Ladle) : (d.onLadle i f).run = d.run := rfl
@[simp] theorem Dev.onLadle_cru (i : Nat) (f : Ladle → Ladle) : (d.onLadle i f).cru = d.cru := rfl
@[simp] theorem Dev.onLadle_otp (i : Nat) (f : Ladle → Ladle) : (d.onLadle i f).otp = d.otp := rfl
@[simp] theorem Dev.onLadle_key (i : Nat) (f : Ladle → Ladle) : (d.onLadle i f).key = d.key := rfl
@[simp] theorem Dev.onLadle_flash (i : Nat) (f : Ladle → Ladle) : (d.onLadle i f).flash = d.flash := rfl
@[simp] theorem Dev.onLadle_pwr (i : Nat) (f : Ladle → Ladle) : (d.onLadle i f).pwr = d.pwr := rfl
@[simp] theorem Dev.onLadle_spr (i : Nat) (f : Ladle → Ladle) : (d.onLadle i f).spr = d.spr := rfl
@[simp] theorem Dev.onLadle_moulds (i : Nat) (f : Ladle → Ladle) : (d.onLadle i f).moulds = d.moulds := rfl
@[simp] theorem Dev.onLadle_integ (i : Nat) (f : Ladle → Ladle) : (d.onLadle i f).integ = d.integ := rfl
@[simp] theorem Dev.onLadle_aud (i : Nat) (f : Ladle → Ladle) : (d.onLadle i f).aud = d.aud := rfl
@[simp] theorem Dev.onLadle_mor (i : Nat) (f : Ladle → Ladle) : (d.onLadle i f).mor = d.mor := rfl
@[simp] theorem Dev.onLadle_pair (i : Nat) (f : Ladle → Ladle) : (d.onLadle i f).pair = d.pair := rfl
@[simp] theorem Dev.onLadle_upd (i : Nat) (f : Ladle → Ladle) : (d.onLadle i f).upd = d.upd := rfl
@[simp] theorem Dev.onLadle_flt (i : Nat) (f : Ladle → Ladle) : (d.onLadle i f).flt = d.flt := rfl
@[simp] theorem Dev.onLadle_dirty (i : Nat) (f : Ladle → Ladle) : (d.onLadle i f).dirty = d.dirty := rfl
@[simp] theorem Dev.onLadle_out (i : Nat) (f : Ladle → Ladle) : (d.onLadle i f).out = d.out := rfl
@[simp] theorem Dev.onLadle_fresh (i : Nat) (f : Ladle → Ladle) : (d.onLadle i f).fresh = d.fresh := rfl

/-! ## `onSap` -/

@[simp] theorem Dev.onSap_variant (i : Nat) (f : Sap → Sap) : (d.onSap i f).variant = d.variant := rfl
@[simp] theorem Dev.onSap_par (i : Nat) (f : Sap → Sap) : (d.onSap i f).par = d.par := rfl
@[simp] theorem Dev.onSap_work (i : Nat) (f : Sap → Sap) : (d.onSap i f).work = d.work := rfl
@[simp] theorem Dev.onSap_ctl (i : Nat) (f : Sap → Sap) : (d.onSap i f).ctl = d.ctl := rfl
@[simp] theorem Dev.onSap_txn (i : Nat) (f : Sap → Sap) : (d.onSap i f).txn = d.txn := rfl
@[simp] theorem Dev.onSap_rx (i : Nat) (f : Sap → Sap) : (d.onSap i f).rx = d.rx := rfl
@[simp] theorem Dev.onSap_tx (i : Nat) (f : Sap → Sap) : (d.onSap i f).tx = d.tx := rfl
@[simp] theorem Dev.onSap_tg (i : Nat) (f : Sap → Sap) : (d.onSap i f).tg = d.tg := rfl
@[simp] theorem Dev.onSap_run (i : Nat) (f : Sap → Sap) : (d.onSap i f).run = d.run := rfl
@[simp] theorem Dev.onSap_cru (i : Nat) (f : Sap → Sap) : (d.onSap i f).cru = d.cru := rfl
@[simp] theorem Dev.onSap_otp (i : Nat) (f : Sap → Sap) : (d.onSap i f).otp = d.otp := rfl
@[simp] theorem Dev.onSap_key (i : Nat) (f : Sap → Sap) : (d.onSap i f).key = d.key := rfl
@[simp] theorem Dev.onSap_flash (i : Nat) (f : Sap → Sap) : (d.onSap i f).flash = d.flash := rfl
@[simp] theorem Dev.onSap_pwr (i : Nat) (f : Sap → Sap) : (d.onSap i f).pwr = d.pwr := rfl
@[simp] theorem Dev.onSap_spr (i : Nat) (f : Sap → Sap) : (d.onSap i f).spr = d.spr := rfl
@[simp] theorem Dev.onSap_moulds (i : Nat) (f : Sap → Sap) : (d.onSap i f).moulds = d.moulds := rfl
@[simp] theorem Dev.onSap_integ (i : Nat) (f : Sap → Sap) : (d.onSap i f).integ = d.integ := rfl
@[simp] theorem Dev.onSap_clk (i : Nat) (f : Sap → Sap) : (d.onSap i f).clk = d.clk := rfl
@[simp] theorem Dev.onSap_mor (i : Nat) (f : Sap → Sap) : (d.onSap i f).mor = d.mor := rfl
@[simp] theorem Dev.onSap_pair (i : Nat) (f : Sap → Sap) : (d.onSap i f).pair = d.pair := rfl
@[simp] theorem Dev.onSap_upd (i : Nat) (f : Sap → Sap) : (d.onSap i f).upd = d.upd := rfl
@[simp] theorem Dev.onSap_flt (i : Nat) (f : Sap → Sap) : (d.onSap i f).flt = d.flt := rfl
@[simp] theorem Dev.onSap_dirty (i : Nat) (f : Sap → Sap) : (d.onSap i f).dirty = d.dirty := rfl
@[simp] theorem Dev.onSap_out (i : Nat) (f : Sap → Sap) : (d.onSap i f).out = d.out := rfl
@[simp] theorem Dev.onSap_fresh (i : Nat) (f : Sap → Sap) : (d.onSap i f).fresh = d.fresh := rfl

/-! ## `onPdm` -/

@[simp] theorem Dev.onPdm_variant (i : Nat) (f : Pdm → Pdm) : (d.onPdm i f).variant = d.variant := rfl
@[simp] theorem Dev.onPdm_par (i : Nat) (f : Pdm → Pdm) : (d.onPdm i f).par = d.par := rfl
@[simp] theorem Dev.onPdm_work (i : Nat) (f : Pdm → Pdm) : (d.onPdm i f).work = d.work := rfl
@[simp] theorem Dev.onPdm_ctl (i : Nat) (f : Pdm → Pdm) : (d.onPdm i f).ctl = d.ctl := rfl
@[simp] theorem Dev.onPdm_txn (i : Nat) (f : Pdm → Pdm) : (d.onPdm i f).txn = d.txn := rfl
@[simp] theorem Dev.onPdm_rx (i : Nat) (f : Pdm → Pdm) : (d.onPdm i f).rx = d.rx := rfl
@[simp] theorem Dev.onPdm_tx (i : Nat) (f : Pdm → Pdm) : (d.onPdm i f).tx = d.tx := rfl
@[simp] theorem Dev.onPdm_tg (i : Nat) (f : Pdm → Pdm) : (d.onPdm i f).tg = d.tg := rfl
@[simp] theorem Dev.onPdm_run (i : Nat) (f : Pdm → Pdm) : (d.onPdm i f).run = d.run := rfl
@[simp] theorem Dev.onPdm_cru (i : Nat) (f : Pdm → Pdm) : (d.onPdm i f).cru = d.cru := rfl
@[simp] theorem Dev.onPdm_otp (i : Nat) (f : Pdm → Pdm) : (d.onPdm i f).otp = d.otp := rfl
@[simp] theorem Dev.onPdm_key (i : Nat) (f : Pdm → Pdm) : (d.onPdm i f).key = d.key := rfl
@[simp] theorem Dev.onPdm_flash (i : Nat) (f : Pdm → Pdm) : (d.onPdm i f).flash = d.flash := rfl
@[simp] theorem Dev.onPdm_pwr (i : Nat) (f : Pdm → Pdm) : (d.onPdm i f).pwr = d.pwr := rfl
@[simp] theorem Dev.onPdm_spr (i : Nat) (f : Pdm → Pdm) : (d.onPdm i f).spr = d.spr := rfl
@[simp] theorem Dev.onPdm_moulds (i : Nat) (f : Pdm → Pdm) : (d.onPdm i f).moulds = d.moulds := rfl
@[simp] theorem Dev.onPdm_integ (i : Nat) (f : Pdm → Pdm) : (d.onPdm i f).integ = d.integ := rfl
@[simp] theorem Dev.onPdm_clk (i : Nat) (f : Pdm → Pdm) : (d.onPdm i f).clk = d.clk := rfl
@[simp] theorem Dev.onPdm_mor (i : Nat) (f : Pdm → Pdm) : (d.onPdm i f).mor = d.mor := rfl
@[simp] theorem Dev.onPdm_pair (i : Nat) (f : Pdm → Pdm) : (d.onPdm i f).pair = d.pair := rfl
@[simp] theorem Dev.onPdm_upd (i : Nat) (f : Pdm → Pdm) : (d.onPdm i f).upd = d.upd := rfl
@[simp] theorem Dev.onPdm_flt (i : Nat) (f : Pdm → Pdm) : (d.onPdm i f).flt = d.flt := rfl
@[simp] theorem Dev.onPdm_dirty (i : Nat) (f : Pdm → Pdm) : (d.onPdm i f).dirty = d.dirty := rfl
@[simp] theorem Dev.onPdm_out (i : Nat) (f : Pdm → Pdm) : (d.onPdm i f).out = d.out := rfl
@[simp] theorem Dev.onPdm_fresh (i : Nat) (f : Pdm → Pdm) : (d.onPdm i f).fresh = d.fresh := rfl

/-! ## `onTun` -/

@[simp] theorem Dev.onTun_variant (i : Nat) (f : Tundish → Tundish) : (d.onTun i f).variant = d.variant := rfl
@[simp] theorem Dev.onTun_par (i : Nat) (f : Tundish → Tundish) : (d.onTun i f).par = d.par := rfl
@[simp] theorem Dev.onTun_work (i : Nat) (f : Tundish → Tundish) : (d.onTun i f).work = d.work := rfl
@[simp] theorem Dev.onTun_ctl (i : Nat) (f : Tundish → Tundish) : (d.onTun i f).ctl = d.ctl := rfl
@[simp] theorem Dev.onTun_txn (i : Nat) (f : Tundish → Tundish) : (d.onTun i f).txn = d.txn := rfl
@[simp] theorem Dev.onTun_rx (i : Nat) (f : Tundish → Tundish) : (d.onTun i f).rx = d.rx := rfl
@[simp] theorem Dev.onTun_tx (i : Nat) (f : Tundish → Tundish) : (d.onTun i f).tx = d.tx := rfl
@[simp] theorem Dev.onTun_tg (i : Nat) (f : Tundish → Tundish) : (d.onTun i f).tg = d.tg := rfl
@[simp] theorem Dev.onTun_run (i : Nat) (f : Tundish → Tundish) : (d.onTun i f).run = d.run := rfl
@[simp] theorem Dev.onTun_cru (i : Nat) (f : Tundish → Tundish) : (d.onTun i f).cru = d.cru := rfl
@[simp] theorem Dev.onTun_otp (i : Nat) (f : Tundish → Tundish) : (d.onTun i f).otp = d.otp := rfl
@[simp] theorem Dev.onTun_key (i : Nat) (f : Tundish → Tundish) : (d.onTun i f).key = d.key := rfl
@[simp] theorem Dev.onTun_flash (i : Nat) (f : Tundish → Tundish) : (d.onTun i f).flash = d.flash := rfl
@[simp] theorem Dev.onTun_pwr (i : Nat) (f : Tundish → Tundish) : (d.onTun i f).pwr = d.pwr := rfl
@[simp] theorem Dev.onTun_spr (i : Nat) (f : Tundish → Tundish) : (d.onTun i f).spr = d.spr := rfl
@[simp] theorem Dev.onTun_moulds (i : Nat) (f : Tundish → Tundish) : (d.onTun i f).moulds = d.moulds := rfl
@[simp] theorem Dev.onTun_integ (i : Nat) (f : Tundish → Tundish) : (d.onTun i f).integ = d.integ := rfl
@[simp] theorem Dev.onTun_clk (i : Nat) (f : Tundish → Tundish) : (d.onTun i f).clk = d.clk := rfl
@[simp] theorem Dev.onTun_mor (i : Nat) (f : Tundish → Tundish) : (d.onTun i f).mor = d.mor := rfl
@[simp] theorem Dev.onTun_pair (i : Nat) (f : Tundish → Tundish) : (d.onTun i f).pair = d.pair := rfl
@[simp] theorem Dev.onTun_upd (i : Nat) (f : Tundish → Tundish) : (d.onTun i f).upd = d.upd := rfl
@[simp] theorem Dev.onTun_flt (i : Nat) (f : Tundish → Tundish) : (d.onTun i f).flt = d.flt := rfl
@[simp] theorem Dev.onTun_dirty (i : Nat) (f : Tundish → Tundish) : (d.onTun i f).dirty = d.dirty := rfl
@[simp] theorem Dev.onTun_out (i : Nat) (f : Tundish → Tundish) : (d.onTun i f).out = d.out := rfl
@[simp] theorem Dev.onTun_fresh (i : Nat) (f : Tundish → Tundish) : (d.onTun i f).fresh = d.fresh := rfl

/-! ## `onEaud` -/

@[simp] theorem Dev.onEaud_variant (i : Nat) (f : Eaud → Eaud) : (d.onEaud i f).variant = d.variant := rfl
@[simp] theorem Dev.onEaud_par (i : Nat) (f : Eaud → Eaud) : (d.onEaud i f).par = d.par := rfl
@[simp] theorem Dev.onEaud_work (i : Nat) (f : Eaud → Eaud) : (d.onEaud i f).work = d.work := rfl
@[simp] theorem Dev.onEaud_ctl (i : Nat) (f : Eaud → Eaud) : (d.onEaud i f).ctl = d.ctl := rfl
@[simp] theorem Dev.onEaud_txn (i : Nat) (f : Eaud → Eaud) : (d.onEaud i f).txn = d.txn := rfl
@[simp] theorem Dev.onEaud_rx (i : Nat) (f : Eaud → Eaud) : (d.onEaud i f).rx = d.rx := rfl
@[simp] theorem Dev.onEaud_tx (i : Nat) (f : Eaud → Eaud) : (d.onEaud i f).tx = d.tx := rfl
@[simp] theorem Dev.onEaud_tg (i : Nat) (f : Eaud → Eaud) : (d.onEaud i f).tg = d.tg := rfl
@[simp] theorem Dev.onEaud_run (i : Nat) (f : Eaud → Eaud) : (d.onEaud i f).run = d.run := rfl
@[simp] theorem Dev.onEaud_cru (i : Nat) (f : Eaud → Eaud) : (d.onEaud i f).cru = d.cru := rfl
@[simp] theorem Dev.onEaud_otp (i : Nat) (f : Eaud → Eaud) : (d.onEaud i f).otp = d.otp := rfl
@[simp] theorem Dev.onEaud_key (i : Nat) (f : Eaud → Eaud) : (d.onEaud i f).key = d.key := rfl
@[simp] theorem Dev.onEaud_flash (i : Nat) (f : Eaud → Eaud) : (d.onEaud i f).flash = d.flash := rfl
@[simp] theorem Dev.onEaud_pwr (i : Nat) (f : Eaud → Eaud) : (d.onEaud i f).pwr = d.pwr := rfl
@[simp] theorem Dev.onEaud_spr (i : Nat) (f : Eaud → Eaud) : (d.onEaud i f).spr = d.spr := rfl
@[simp] theorem Dev.onEaud_moulds (i : Nat) (f : Eaud → Eaud) : (d.onEaud i f).moulds = d.moulds := rfl
@[simp] theorem Dev.onEaud_integ (i : Nat) (f : Eaud → Eaud) : (d.onEaud i f).integ = d.integ := rfl
@[simp] theorem Dev.onEaud_clk (i : Nat) (f : Eaud → Eaud) : (d.onEaud i f).clk = d.clk := rfl
@[simp] theorem Dev.onEaud_mor (i : Nat) (f : Eaud → Eaud) : (d.onEaud i f).mor = d.mor := rfl
@[simp] theorem Dev.onEaud_pair (i : Nat) (f : Eaud → Eaud) : (d.onEaud i f).pair = d.pair := rfl
@[simp] theorem Dev.onEaud_upd (i : Nat) (f : Eaud → Eaud) : (d.onEaud i f).upd = d.upd := rfl
@[simp] theorem Dev.onEaud_flt (i : Nat) (f : Eaud → Eaud) : (d.onEaud i f).flt = d.flt := rfl
@[simp] theorem Dev.onEaud_dirty (i : Nat) (f : Eaud → Eaud) : (d.onEaud i f).dirty = d.dirty := rfl
@[simp] theorem Dev.onEaud_out (i : Nat) (f : Eaud → Eaud) : (d.onEaud i f).out = d.out := rfl
@[simp] theorem Dev.onEaud_fresh (i : Nat) (f : Eaud → Eaud) : (d.onEaud i f).fresh = d.fresh := rfl

/-! ## `onBuf` -/

@[simp] theorem Dev.onBuf_variant (h : Nat) (f : Buf → Buf) : (d.onBuf h f).variant = d.variant := rfl
@[simp] theorem Dev.onBuf_par (h : Nat) (f : Buf → Buf) : (d.onBuf h f).par = d.par := rfl
@[simp] theorem Dev.onBuf_work (h : Nat) (f : Buf → Buf) : (d.onBuf h f).work = d.work := rfl
@[simp] theorem Dev.onBuf_ctl (h : Nat) (f : Buf → Buf) : (d.onBuf h f).ctl = d.ctl := rfl
@[simp] theorem Dev.onBuf_txn (h : Nat) (f : Buf → Buf) : (d.onBuf h f).txn = d.txn := rfl
@[simp] theorem Dev.onBuf_rx (h : Nat) (f : Buf → Buf) : (d.onBuf h f).rx = d.rx := rfl
@[simp] theorem Dev.onBuf_tx (h : Nat) (f : Buf → Buf) : (d.onBuf h f).tx = d.tx := rfl
@[simp] theorem Dev.onBuf_tg (h : Nat) (f : Buf → Buf) : (d.onBuf h f).tg = d.tg := rfl
@[simp] theorem Dev.onBuf_run (h : Nat) (f : Buf → Buf) : (d.onBuf h f).run = d.run := rfl
@[simp] theorem Dev.onBuf_otp (h : Nat) (f : Buf → Buf) : (d.onBuf h f).otp = d.otp := rfl
@[simp] theorem Dev.onBuf_key (h : Nat) (f : Buf → Buf) : (d.onBuf h f).key = d.key := rfl
@[simp] theorem Dev.onBuf_flash (h : Nat) (f : Buf → Buf) : (d.onBuf h f).flash = d.flash := rfl
@[simp] theorem Dev.onBuf_pwr (h : Nat) (f : Buf → Buf) : (d.onBuf h f).pwr = d.pwr := rfl
@[simp] theorem Dev.onBuf_spr (h : Nat) (f : Buf → Buf) : (d.onBuf h f).spr = d.spr := rfl
@[simp] theorem Dev.onBuf_moulds (h : Nat) (f : Buf → Buf) : (d.onBuf h f).moulds = d.moulds := rfl
@[simp] theorem Dev.onBuf_integ (h : Nat) (f : Buf → Buf) : (d.onBuf h f).integ = d.integ := rfl
@[simp] theorem Dev.onBuf_clk (h : Nat) (f : Buf → Buf) : (d.onBuf h f).clk = d.clk := rfl
@[simp] theorem Dev.onBuf_aud (h : Nat) (f : Buf → Buf) : (d.onBuf h f).aud = d.aud := rfl
@[simp] theorem Dev.onBuf_mor (h : Nat) (f : Buf → Buf) : (d.onBuf h f).mor = d.mor := rfl
@[simp] theorem Dev.onBuf_pair (h : Nat) (f : Buf → Buf) : (d.onBuf h f).pair = d.pair := rfl
@[simp] theorem Dev.onBuf_upd (h : Nat) (f : Buf → Buf) : (d.onBuf h f).upd = d.upd := rfl
@[simp] theorem Dev.onBuf_flt (h : Nat) (f : Buf → Buf) : (d.onBuf h f).flt = d.flt := rfl
@[simp] theorem Dev.onBuf_dirty (h : Nat) (f : Buf → Buf) : (d.onBuf h f).dirty = d.dirty := rfl
@[simp] theorem Dev.onBuf_out (h : Nat) (f : Buf → Buf) : (d.onBuf h f).out = d.out := rfl
@[simp] theorem Dev.onBuf_fresh (h : Nat) (f : Buf → Buf) : (d.onBuf h f).fresh = d.fresh := rfl

/-! ## `onBufSlot` -/

@[simp] theorem Dev.onBufSlot_variant (h i : Nat) (f : SlotRec → SlotRec) : (d.onBufSlot h i f).variant = d.variant := rfl
@[simp] theorem Dev.onBufSlot_par (h i : Nat) (f : SlotRec → SlotRec) : (d.onBufSlot h i f).par = d.par := rfl
@[simp] theorem Dev.onBufSlot_work (h i : Nat) (f : SlotRec → SlotRec) : (d.onBufSlot h i f).work = d.work := rfl
@[simp] theorem Dev.onBufSlot_ctl (h i : Nat) (f : SlotRec → SlotRec) : (d.onBufSlot h i f).ctl = d.ctl := rfl
@[simp] theorem Dev.onBufSlot_txn (h i : Nat) (f : SlotRec → SlotRec) : (d.onBufSlot h i f).txn = d.txn := rfl
@[simp] theorem Dev.onBufSlot_rx (h i : Nat) (f : SlotRec → SlotRec) : (d.onBufSlot h i f).rx = d.rx := rfl
@[simp] theorem Dev.onBufSlot_tx (h i : Nat) (f : SlotRec → SlotRec) : (d.onBufSlot h i f).tx = d.tx := rfl
@[simp] theorem Dev.onBufSlot_tg (h i : Nat) (f : SlotRec → SlotRec) : (d.onBufSlot h i f).tg = d.tg := rfl
@[simp] theorem Dev.onBufSlot_run (h i : Nat) (f : SlotRec → SlotRec) : (d.onBufSlot h i f).run = d.run := rfl
@[simp] theorem Dev.onBufSlot_otp (h i : Nat) (f : SlotRec → SlotRec) : (d.onBufSlot h i f).otp = d.otp := rfl
@[simp] theorem Dev.onBufSlot_key (h i : Nat) (f : SlotRec → SlotRec) : (d.onBufSlot h i f).key = d.key := rfl
@[simp] theorem Dev.onBufSlot_flash (h i : Nat) (f : SlotRec → SlotRec) : (d.onBufSlot h i f).flash = d.flash := rfl
@[simp] theorem Dev.onBufSlot_pwr (h i : Nat) (f : SlotRec → SlotRec) : (d.onBufSlot h i f).pwr = d.pwr := rfl
@[simp] theorem Dev.onBufSlot_spr (h i : Nat) (f : SlotRec → SlotRec) : (d.onBufSlot h i f).spr = d.spr := rfl
@[simp] theorem Dev.onBufSlot_moulds (h i : Nat) (f : SlotRec → SlotRec) : (d.onBufSlot h i f).moulds = d.moulds := rfl
@[simp] theorem Dev.onBufSlot_integ (h i : Nat) (f : SlotRec → SlotRec) : (d.onBufSlot h i f).integ = d.integ := rfl
@[simp] theorem Dev.onBufSlot_clk (h i : Nat) (f : SlotRec → SlotRec) : (d.onBufSlot h i f).clk = d.clk := rfl
@[simp] theorem Dev.onBufSlot_aud (h i : Nat) (f : SlotRec → SlotRec) : (d.onBufSlot h i f).aud = d.aud := rfl
@[simp] theorem Dev.onBufSlot_mor (h i : Nat) (f : SlotRec → SlotRec) : (d.onBufSlot h i f).mor = d.mor := rfl
@[simp] theorem Dev.onBufSlot_pair (h i : Nat) (f : SlotRec → SlotRec) : (d.onBufSlot h i f).pair = d.pair := rfl
@[simp] theorem Dev.onBufSlot_upd (h i : Nat) (f : SlotRec → SlotRec) : (d.onBufSlot h i f).upd = d.upd := rfl
@[simp] theorem Dev.onBufSlot_flt (h i : Nat) (f : SlotRec → SlotRec) : (d.onBufSlot h i f).flt = d.flt := rfl
@[simp] theorem Dev.onBufSlot_dirty (h i : Nat) (f : SlotRec → SlotRec) : (d.onBufSlot h i f).dirty = d.dirty := rfl
@[simp] theorem Dev.onBufSlot_out (h i : Nat) (f : SlotRec → SlotRec) : (d.onBufSlot h i f).out = d.out := rfl
@[simp] theorem Dev.onBufSlot_fresh (h i : Nat) (f : SlotRec → SlotRec) : (d.onBufSlot h i f).fresh = d.fresh := rfl

/-! ## `onMould` -/

@[simp] theorem Dev.onMould_variant (m : Nat) (f : Mould → Mould) : (d.onMould m f).variant = d.variant := rfl
@[simp] theorem Dev.onMould_par (m : Nat) (f : Mould → Mould) : (d.onMould m f).par = d.par := rfl
@[simp] theorem Dev.onMould_work (m : Nat) (f : Mould → Mould) : (d.onMould m f).work = d.work := rfl
@[simp] theorem Dev.onMould_ctl (m : Nat) (f : Mould → Mould) : (d.onMould m f).ctl = d.ctl := rfl
@[simp] theorem Dev.onMould_txn (m : Nat) (f : Mould → Mould) : (d.onMould m f).txn = d.txn := rfl
@[simp] theorem Dev.onMould_rx (m : Nat) (f : Mould → Mould) : (d.onMould m f).rx = d.rx := rfl
@[simp] theorem Dev.onMould_tx (m : Nat) (f : Mould → Mould) : (d.onMould m f).tx = d.tx := rfl
@[simp] theorem Dev.onMould_tg (m : Nat) (f : Mould → Mould) : (d.onMould m f).tg = d.tg := rfl
@[simp] theorem Dev.onMould_run (m : Nat) (f : Mould → Mould) : (d.onMould m f).run = d.run := rfl
@[simp] theorem Dev.onMould_cru (m : Nat) (f : Mould → Mould) : (d.onMould m f).cru = d.cru := rfl
@[simp] theorem Dev.onMould_otp (m : Nat) (f : Mould → Mould) : (d.onMould m f).otp = d.otp := rfl
@[simp] theorem Dev.onMould_key (m : Nat) (f : Mould → Mould) : (d.onMould m f).key = d.key := rfl
@[simp] theorem Dev.onMould_flash (m : Nat) (f : Mould → Mould) : (d.onMould m f).flash = d.flash := rfl
@[simp] theorem Dev.onMould_pwr (m : Nat) (f : Mould → Mould) : (d.onMould m f).pwr = d.pwr := rfl
@[simp] theorem Dev.onMould_spr (m : Nat) (f : Mould → Mould) : (d.onMould m f).spr = d.spr := rfl
@[simp] theorem Dev.onMould_integ (m : Nat) (f : Mould → Mould) : (d.onMould m f).integ = d.integ := rfl
@[simp] theorem Dev.onMould_clk (m : Nat) (f : Mould → Mould) : (d.onMould m f).clk = d.clk := rfl
@[simp] theorem Dev.onMould_aud (m : Nat) (f : Mould → Mould) : (d.onMould m f).aud = d.aud := rfl
@[simp] theorem Dev.onMould_mor (m : Nat) (f : Mould → Mould) : (d.onMould m f).mor = d.mor := rfl
@[simp] theorem Dev.onMould_pair (m : Nat) (f : Mould → Mould) : (d.onMould m f).pair = d.pair := rfl
@[simp] theorem Dev.onMould_upd (m : Nat) (f : Mould → Mould) : (d.onMould m f).upd = d.upd := rfl
@[simp] theorem Dev.onMould_flt (m : Nat) (f : Mould → Mould) : (d.onMould m f).flt = d.flt := rfl
@[simp] theorem Dev.onMould_dirty (m : Nat) (f : Mould → Mould) : (d.onMould m f).dirty = d.dirty := rfl
@[simp] theorem Dev.onMould_out (m : Nat) (f : Mould → Mould) : (d.onMould m f).out = d.out := rfl
@[simp] theorem Dev.onMould_fresh (m : Nat) (f : Mould → Mould) : (d.onMould m f).fresh = d.fresh := rfl

/-! ## `onLayer` -/

@[simp] theorem Dev.onLayer_variant (m k : Nat) (f : Layer → Layer) : (d.onLayer m k f).variant = d.variant := rfl
@[simp] theorem Dev.onLayer_par (m k : Nat) (f : Layer → Layer) : (d.onLayer m k f).par = d.par := rfl
@[simp] theorem Dev.onLayer_work (m k : Nat) (f : Layer → Layer) : (d.onLayer m k f).work = d.work := rfl
@[simp] theorem Dev.onLayer_ctl (m k : Nat) (f : Layer → Layer) : (d.onLayer m k f).ctl = d.ctl := rfl
@[simp] theorem Dev.onLayer_txn (m k : Nat) (f : Layer → Layer) : (d.onLayer m k f).txn = d.txn := rfl
@[simp] theorem Dev.onLayer_rx (m k : Nat) (f : Layer → Layer) : (d.onLayer m k f).rx = d.rx := rfl
@[simp] theorem Dev.onLayer_tx (m k : Nat) (f : Layer → Layer) : (d.onLayer m k f).tx = d.tx := rfl
@[simp] theorem Dev.onLayer_tg (m k : Nat) (f : Layer → Layer) : (d.onLayer m k f).tg = d.tg := rfl
@[simp] theorem Dev.onLayer_run (m k : Nat) (f : Layer → Layer) : (d.onLayer m k f).run = d.run := rfl
@[simp] theorem Dev.onLayer_cru (m k : Nat) (f : Layer → Layer) : (d.onLayer m k f).cru = d.cru := rfl
@[simp] theorem Dev.onLayer_otp (m k : Nat) (f : Layer → Layer) : (d.onLayer m k f).otp = d.otp := rfl
@[simp] theorem Dev.onLayer_key (m k : Nat) (f : Layer → Layer) : (d.onLayer m k f).key = d.key := rfl
@[simp] theorem Dev.onLayer_flash (m k : Nat) (f : Layer → Layer) : (d.onLayer m k f).flash = d.flash := rfl
@[simp] theorem Dev.onLayer_pwr (m k : Nat) (f : Layer → Layer) : (d.onLayer m k f).pwr = d.pwr := rfl
@[simp] theorem Dev.onLayer_spr (m k : Nat) (f : Layer → Layer) : (d.onLayer m k f).spr = d.spr := rfl
@[simp] theorem Dev.onLayer_integ (m k : Nat) (f : Layer → Layer) : (d.onLayer m k f).integ = d.integ := rfl
@[simp] theorem Dev.onLayer_clk (m k : Nat) (f : Layer → Layer) : (d.onLayer m k f).clk = d.clk := rfl
@[simp] theorem Dev.onLayer_aud (m k : Nat) (f : Layer → Layer) : (d.onLayer m k f).aud = d.aud := rfl
@[simp] theorem Dev.onLayer_mor (m k : Nat) (f : Layer → Layer) : (d.onLayer m k f).mor = d.mor := rfl
@[simp] theorem Dev.onLayer_pair (m k : Nat) (f : Layer → Layer) : (d.onLayer m k f).pair = d.pair := rfl
@[simp] theorem Dev.onLayer_upd (m k : Nat) (f : Layer → Layer) : (d.onLayer m k f).upd = d.upd := rfl
@[simp] theorem Dev.onLayer_flt (m k : Nat) (f : Layer → Layer) : (d.onLayer m k f).flt = d.flt := rfl
@[simp] theorem Dev.onLayer_dirty (m k : Nat) (f : Layer → Layer) : (d.onLayer m k f).dirty = d.dirty := rfl
@[simp] theorem Dev.onLayer_out (m k : Nat) (f : Layer → Layer) : (d.onLayer m k f).out = d.out := rfl
@[simp] theorem Dev.onLayer_fresh (m k : Nat) (f : Layer → Layer) : (d.onLayer m k f).fresh = d.fresh := rfl

/-! ## `onWin` -/

@[simp] theorem Dev.onWin_variant (m w : Nat) (f : Win → Win) : (d.onWin m w f).variant = d.variant := rfl
@[simp] theorem Dev.onWin_par (m w : Nat) (f : Win → Win) : (d.onWin m w f).par = d.par := rfl
@[simp] theorem Dev.onWin_work (m w : Nat) (f : Win → Win) : (d.onWin m w f).work = d.work := rfl
@[simp] theorem Dev.onWin_ctl (m w : Nat) (f : Win → Win) : (d.onWin m w f).ctl = d.ctl := rfl
@[simp] theorem Dev.onWin_txn (m w : Nat) (f : Win → Win) : (d.onWin m w f).txn = d.txn := rfl
@[simp] theorem Dev.onWin_rx (m w : Nat) (f : Win → Win) : (d.onWin m w f).rx = d.rx := rfl
@[simp] theorem Dev.onWin_tx (m w : Nat) (f : Win → Win) : (d.onWin m w f).tx = d.tx := rfl
@[simp] theorem Dev.onWin_tg (m w : Nat) (f : Win → Win) : (d.onWin m w f).tg = d.tg := rfl
@[simp] theorem Dev.onWin_run (m w : Nat) (f : Win → Win) : (d.onWin m w f).run = d.run := rfl
@[simp] theorem Dev.onWin_cru (m w : Nat) (f : Win → Win) : (d.onWin m w f).cru = d.cru := rfl
@[simp] theorem Dev.onWin_otp (m w : Nat) (f : Win → Win) : (d.onWin m w f).otp = d.otp := rfl
@[simp] theorem Dev.onWin_key (m w : Nat) (f : Win → Win) : (d.onWin m w f).key = d.key := rfl
@[simp] theorem Dev.onWin_flash (m w : Nat) (f : Win → Win) : (d.onWin m w f).flash = d.flash := rfl
@[simp] theorem Dev.onWin_pwr (m w : Nat) (f : Win → Win) : (d.onWin m w f).pwr = d.pwr := rfl
@[simp] theorem Dev.onWin_spr (m w : Nat) (f : Win → Win) : (d.onWin m w f).spr = d.spr := rfl
@[simp] theorem Dev.onWin_integ (m w : Nat) (f : Win → Win) : (d.onWin m w f).integ = d.integ := rfl
@[simp] theorem Dev.onWin_clk (m w : Nat) (f : Win → Win) : (d.onWin m w f).clk = d.clk := rfl
@[simp] theorem Dev.onWin_aud (m w : Nat) (f : Win → Win) : (d.onWin m w f).aud = d.aud := rfl
@[simp] theorem Dev.onWin_mor (m w : Nat) (f : Win → Win) : (d.onWin m w f).mor = d.mor := rfl
@[simp] theorem Dev.onWin_pair (m w : Nat) (f : Win → Win) : (d.onWin m w f).pair = d.pair := rfl
@[simp] theorem Dev.onWin_upd (m w : Nat) (f : Win → Win) : (d.onWin m w f).upd = d.upd := rfl
@[simp] theorem Dev.onWin_flt (m w : Nat) (f : Win → Win) : (d.onWin m w f).flt = d.flt := rfl
@[simp] theorem Dev.onWin_dirty (m w : Nat) (f : Win → Win) : (d.onWin m w f).dirty = d.dirty := rfl
@[simp] theorem Dev.onWin_out (m w : Nat) (f : Win → Win) : (d.onWin m w f).out = d.out := rfl
@[simp] theorem Dev.onWin_fresh (m w : Nat) (f : Win → Win) : (d.onWin m w f).fresh = d.fresh := rfl

/-! ## `onIngot` -/

@[simp] theorem Dev.onIngot_variant (m : Nat) (f : Ingot → Ingot) : (d.onIngot m f).variant = d.variant := rfl
@[simp] theorem Dev.onIngot_par (m : Nat) (f : Ingot → Ingot) : (d.onIngot m f).par = d.par := rfl
@[simp] theorem Dev.onIngot_work (m : Nat) (f : Ingot → Ingot) : (d.onIngot m f).work = d.work := rfl
@[simp] theorem Dev.onIngot_ctl (m : Nat) (f : Ingot → Ingot) : (d.onIngot m f).ctl = d.ctl := rfl
@[simp] theorem Dev.onIngot_txn (m : Nat) (f : Ingot → Ingot) : (d.onIngot m f).txn = d.txn := rfl
@[simp] theorem Dev.onIngot_rx (m : Nat) (f : Ingot → Ingot) : (d.onIngot m f).rx = d.rx := rfl
@[simp] theorem Dev.onIngot_tx (m : Nat) (f : Ingot → Ingot) : (d.onIngot m f).tx = d.tx := rfl
@[simp] theorem Dev.onIngot_tg (m : Nat) (f : Ingot → Ingot) : (d.onIngot m f).tg = d.tg := rfl
@[simp] theorem Dev.onIngot_run (m : Nat) (f : Ingot → Ingot) : (d.onIngot m f).run = d.run := rfl
@[simp] theorem Dev.onIngot_cru (m : Nat) (f : Ingot → Ingot) : (d.onIngot m f).cru = d.cru := rfl
@[simp] theorem Dev.onIngot_otp (m : Nat) (f : Ingot → Ingot) : (d.onIngot m f).otp = d.otp := rfl
@[simp] theorem Dev.onIngot_key (m : Nat) (f : Ingot → Ingot) : (d.onIngot m f).key = d.key := rfl
@[simp] theorem Dev.onIngot_flash (m : Nat) (f : Ingot → Ingot) : (d.onIngot m f).flash = d.flash := rfl
@[simp] theorem Dev.onIngot_pwr (m : Nat) (f : Ingot → Ingot) : (d.onIngot m f).pwr = d.pwr := rfl
@[simp] theorem Dev.onIngot_spr (m : Nat) (f : Ingot → Ingot) : (d.onIngot m f).spr = d.spr := rfl
@[simp] theorem Dev.onIngot_integ (m : Nat) (f : Ingot → Ingot) : (d.onIngot m f).integ = d.integ := rfl
@[simp] theorem Dev.onIngot_clk (m : Nat) (f : Ingot → Ingot) : (d.onIngot m f).clk = d.clk := rfl
@[simp] theorem Dev.onIngot_aud (m : Nat) (f : Ingot → Ingot) : (d.onIngot m f).aud = d.aud := rfl
@[simp] theorem Dev.onIngot_mor (m : Nat) (f : Ingot → Ingot) : (d.onIngot m f).mor = d.mor := rfl
@[simp] theorem Dev.onIngot_pair (m : Nat) (f : Ingot → Ingot) : (d.onIngot m f).pair = d.pair := rfl
@[simp] theorem Dev.onIngot_upd (m : Nat) (f : Ingot → Ingot) : (d.onIngot m f).upd = d.upd := rfl
@[simp] theorem Dev.onIngot_flt (m : Nat) (f : Ingot → Ingot) : (d.onIngot m f).flt = d.flt := rfl
@[simp] theorem Dev.onIngot_dirty (m : Nat) (f : Ingot → Ingot) : (d.onIngot m f).dirty = d.dirty := rfl
@[simp] theorem Dev.onIngot_out (m : Nat) (f : Ingot → Ingot) : (d.onIngot m f).out = d.out := rfl
@[simp] theorem Dev.onIngot_fresh (m : Nat) (f : Ingot → Ingot) : (d.onIngot m f).fresh = d.fresh := rfl

/-! ## `onMor` -/

@[simp] theorem Dev.onMor_variant (f : Morcel → Morcel) : (d.onMor f).variant = d.variant := rfl
@[simp] theorem Dev.onMor_par (f : Morcel → Morcel) : (d.onMor f).par = d.par := rfl
@[simp] theorem Dev.onMor_work (f : Morcel → Morcel) : (d.onMor f).work = d.work := rfl
@[simp] theorem Dev.onMor_ctl (f : Morcel → Morcel) : (d.onMor f).ctl = d.ctl := rfl
@[simp] theorem Dev.onMor_txn (f : Morcel → Morcel) : (d.onMor f).txn = d.txn := rfl
@[simp] theorem Dev.onMor_rx (f : Morcel → Morcel) : (d.onMor f).rx = d.rx := rfl
@[simp] theorem Dev.onMor_tx (f : Morcel → Morcel) : (d.onMor f).tx = d.tx := rfl
@[simp] theorem Dev.onMor_tg (f : Morcel → Morcel) : (d.onMor f).tg = d.tg := rfl
@[simp] theorem Dev.onMor_run (f : Morcel → Morcel) : (d.onMor f).run = d.run := rfl
@[simp] theorem Dev.onMor_cru (f : Morcel → Morcel) : (d.onMor f).cru = d.cru := rfl
@[simp] theorem Dev.onMor_otp (f : Morcel → Morcel) : (d.onMor f).otp = d.otp := rfl
@[simp] theorem Dev.onMor_key (f : Morcel → Morcel) : (d.onMor f).key = d.key := rfl
@[simp] theorem Dev.onMor_flash (f : Morcel → Morcel) : (d.onMor f).flash = d.flash := rfl
@[simp] theorem Dev.onMor_pwr (f : Morcel → Morcel) : (d.onMor f).pwr = d.pwr := rfl
@[simp] theorem Dev.onMor_spr (f : Morcel → Morcel) : (d.onMor f).spr = d.spr := rfl
@[simp] theorem Dev.onMor_moulds (f : Morcel → Morcel) : (d.onMor f).moulds = d.moulds := rfl
@[simp] theorem Dev.onMor_integ (f : Morcel → Morcel) : (d.onMor f).integ = d.integ := rfl
@[simp] theorem Dev.onMor_clk (f : Morcel → Morcel) : (d.onMor f).clk = d.clk := rfl
@[simp] theorem Dev.onMor_aud (f : Morcel → Morcel) : (d.onMor f).aud = d.aud := rfl
@[simp] theorem Dev.onMor_pair (f : Morcel → Morcel) : (d.onMor f).pair = d.pair := rfl
@[simp] theorem Dev.onMor_upd (f : Morcel → Morcel) : (d.onMor f).upd = d.upd := rfl
@[simp] theorem Dev.onMor_flt (f : Morcel → Morcel) : (d.onMor f).flt = d.flt := rfl
@[simp] theorem Dev.onMor_dirty (f : Morcel → Morcel) : (d.onMor f).dirty = d.dirty := rfl
@[simp] theorem Dev.onMor_out (f : Morcel → Morcel) : (d.onMor f).out = d.out := rfl
@[simp] theorem Dev.onMor_fresh (f : Morcel → Morcel) : (d.onMor f).fresh = d.fresh := rfl

/-! ## `onMorLane` -/

@[simp] theorem Dev.onMorLane_variant (i : Nat) (f : MorLane → MorLane) : (d.onMorLane i f).variant = d.variant := rfl
@[simp] theorem Dev.onMorLane_par (i : Nat) (f : MorLane → MorLane) : (d.onMorLane i f).par = d.par := rfl
@[simp] theorem Dev.onMorLane_work (i : Nat) (f : MorLane → MorLane) : (d.onMorLane i f).work = d.work := rfl
@[simp] theorem Dev.onMorLane_ctl (i : Nat) (f : MorLane → MorLane) : (d.onMorLane i f).ctl = d.ctl := rfl
@[simp] theorem Dev.onMorLane_txn (i : Nat) (f : MorLane → MorLane) : (d.onMorLane i f).txn = d.txn := rfl
@[simp] theorem Dev.onMorLane_rx (i : Nat) (f : MorLane → MorLane) : (d.onMorLane i f).rx = d.rx := rfl
@[simp] theorem Dev.onMorLane_tx (i : Nat) (f : MorLane → MorLane) : (d.onMorLane i f).tx = d.tx := rfl
@[simp] theorem Dev.onMorLane_tg (i : Nat) (f : MorLane → MorLane) : (d.onMorLane i f).tg = d.tg := rfl
@[simp] theorem Dev.onMorLane_run (i : Nat) (f : MorLane → MorLane) : (d.onMorLane i f).run = d.run := rfl
@[simp] theorem Dev.onMorLane_cru (i : Nat) (f : MorLane → MorLane) : (d.onMorLane i f).cru = d.cru := rfl
@[simp] theorem Dev.onMorLane_otp (i : Nat) (f : MorLane → MorLane) : (d.onMorLane i f).otp = d.otp := rfl
@[simp] theorem Dev.onMorLane_key (i : Nat) (f : MorLane → MorLane) : (d.onMorLane i f).key = d.key := rfl
@[simp] theorem Dev.onMorLane_flash (i : Nat) (f : MorLane → MorLane) : (d.onMorLane i f).flash = d.flash := rfl
@[simp] theorem Dev.onMorLane_pwr (i : Nat) (f : MorLane → MorLane) : (d.onMorLane i f).pwr = d.pwr := rfl
@[simp] theorem Dev.onMorLane_spr (i : Nat) (f : MorLane → MorLane) : (d.onMorLane i f).spr = d.spr := rfl
@[simp] theorem Dev.onMorLane_moulds (i : Nat) (f : MorLane → MorLane) : (d.onMorLane i f).moulds = d.moulds := rfl
@[simp] theorem Dev.onMorLane_integ (i : Nat) (f : MorLane → MorLane) : (d.onMorLane i f).integ = d.integ := rfl
@[simp] theorem Dev.onMorLane_clk (i : Nat) (f : MorLane → MorLane) : (d.onMorLane i f).clk = d.clk := rfl
@[simp] theorem Dev.onMorLane_aud (i : Nat) (f : MorLane → MorLane) : (d.onMorLane i f).aud = d.aud := rfl
@[simp] theorem Dev.onMorLane_pair (i : Nat) (f : MorLane → MorLane) : (d.onMorLane i f).pair = d.pair := rfl
@[simp] theorem Dev.onMorLane_upd (i : Nat) (f : MorLane → MorLane) : (d.onMorLane i f).upd = d.upd := rfl
@[simp] theorem Dev.onMorLane_flt (i : Nat) (f : MorLane → MorLane) : (d.onMorLane i f).flt = d.flt := rfl
@[simp] theorem Dev.onMorLane_dirty (i : Nat) (f : MorLane → MorLane) : (d.onMorLane i f).dirty = d.dirty := rfl
@[simp] theorem Dev.onMorLane_out (i : Nat) (f : MorLane → MorLane) : (d.onMorLane i f).out = d.out := rfl
@[simp] theorem Dev.onMorLane_fresh (i : Nat) (f : MorLane → MorLane) : (d.onMorLane i f).fresh = d.fresh := rfl

/-! ## `onEth` -/

@[simp] theorem Dev.onEth_variant (i : Nat) (f : EthPort → EthPort) : (d.onEth i f).variant = d.variant := rfl
@[simp] theorem Dev.onEth_par (i : Nat) (f : EthPort → EthPort) : (d.onEth i f).par = d.par := rfl
@[simp] theorem Dev.onEth_work (i : Nat) (f : EthPort → EthPort) : (d.onEth i f).work = d.work := rfl
@[simp] theorem Dev.onEth_txn (i : Nat) (f : EthPort → EthPort) : (d.onEth i f).txn = d.txn := rfl
@[simp] theorem Dev.onEth_rx (i : Nat) (f : EthPort → EthPort) : (d.onEth i f).rx = d.rx := rfl
@[simp] theorem Dev.onEth_tx (i : Nat) (f : EthPort → EthPort) : (d.onEth i f).tx = d.tx := rfl
@[simp] theorem Dev.onEth_tg (i : Nat) (f : EthPort → EthPort) : (d.onEth i f).tg = d.tg := rfl
@[simp] theorem Dev.onEth_run (i : Nat) (f : EthPort → EthPort) : (d.onEth i f).run = d.run := rfl
@[simp] theorem Dev.onEth_cru (i : Nat) (f : EthPort → EthPort) : (d.onEth i f).cru = d.cru := rfl
@[simp] theorem Dev.onEth_otp (i : Nat) (f : EthPort → EthPort) : (d.onEth i f).otp = d.otp := rfl
@[simp] theorem Dev.onEth_key (i : Nat) (f : EthPort → EthPort) : (d.onEth i f).key = d.key := rfl
@[simp] theorem Dev.onEth_flash (i : Nat) (f : EthPort → EthPort) : (d.onEth i f).flash = d.flash := rfl
@[simp] theorem Dev.onEth_pwr (i : Nat) (f : EthPort → EthPort) : (d.onEth i f).pwr = d.pwr := rfl
@[simp] theorem Dev.onEth_spr (i : Nat) (f : EthPort → EthPort) : (d.onEth i f).spr = d.spr := rfl
@[simp] theorem Dev.onEth_moulds (i : Nat) (f : EthPort → EthPort) : (d.onEth i f).moulds = d.moulds := rfl
@[simp] theorem Dev.onEth_integ (i : Nat) (f : EthPort → EthPort) : (d.onEth i f).integ = d.integ := rfl
@[simp] theorem Dev.onEth_clk (i : Nat) (f : EthPort → EthPort) : (d.onEth i f).clk = d.clk := rfl
@[simp] theorem Dev.onEth_aud (i : Nat) (f : EthPort → EthPort) : (d.onEth i f).aud = d.aud := rfl
@[simp] theorem Dev.onEth_mor (i : Nat) (f : EthPort → EthPort) : (d.onEth i f).mor = d.mor := rfl
@[simp] theorem Dev.onEth_pair (i : Nat) (f : EthPort → EthPort) : (d.onEth i f).pair = d.pair := rfl
@[simp] theorem Dev.onEth_upd (i : Nat) (f : EthPort → EthPort) : (d.onEth i f).upd = d.upd := rfl
@[simp] theorem Dev.onEth_flt (i : Nat) (f : EthPort → EthPort) : (d.onEth i f).flt = d.flt := rfl
@[simp] theorem Dev.onEth_dirty (i : Nat) (f : EthPort → EthPort) : (d.onEth i f).dirty = d.dirty := rfl
@[simp] theorem Dev.onEth_out (i : Nat) (f : EthPort → EthPort) : (d.onEth i f).out = d.out := rfl
@[simp] theorem Dev.onEth_fresh (i : Nat) (f : EthPort → EthPort) : (d.onEth i f).fresh = d.fresh := rfl

/-! ## `onCan` -/

@[simp] theorem Dev.onCan_variant (i : Nat) (f : CanCtl → CanCtl) : (d.onCan i f).variant = d.variant := rfl
@[simp] theorem Dev.onCan_par (i : Nat) (f : CanCtl → CanCtl) : (d.onCan i f).par = d.par := rfl
@[simp] theorem Dev.onCan_work (i : Nat) (f : CanCtl → CanCtl) : (d.onCan i f).work = d.work := rfl
@[simp] theorem Dev.onCan_txn (i : Nat) (f : CanCtl → CanCtl) : (d.onCan i f).txn = d.txn := rfl
@[simp] theorem Dev.onCan_rx (i : Nat) (f : CanCtl → CanCtl) : (d.onCan i f).rx = d.rx := rfl
@[simp] theorem Dev.onCan_tx (i : Nat) (f : CanCtl → CanCtl) : (d.onCan i f).tx = d.tx := rfl
@[simp] theorem Dev.onCan_tg (i : Nat) (f : CanCtl → CanCtl) : (d.onCan i f).tg = d.tg := rfl
@[simp] theorem Dev.onCan_run (i : Nat) (f : CanCtl → CanCtl) : (d.onCan i f).run = d.run := rfl
@[simp] theorem Dev.onCan_cru (i : Nat) (f : CanCtl → CanCtl) : (d.onCan i f).cru = d.cru := rfl
@[simp] theorem Dev.onCan_otp (i : Nat) (f : CanCtl → CanCtl) : (d.onCan i f).otp = d.otp := rfl
@[simp] theorem Dev.onCan_key (i : Nat) (f : CanCtl → CanCtl) : (d.onCan i f).key = d.key := rfl
@[simp] theorem Dev.onCan_flash (i : Nat) (f : CanCtl → CanCtl) : (d.onCan i f).flash = d.flash := rfl
@[simp] theorem Dev.onCan_pwr (i : Nat) (f : CanCtl → CanCtl) : (d.onCan i f).pwr = d.pwr := rfl
@[simp] theorem Dev.onCan_spr (i : Nat) (f : CanCtl → CanCtl) : (d.onCan i f).spr = d.spr := rfl
@[simp] theorem Dev.onCan_moulds (i : Nat) (f : CanCtl → CanCtl) : (d.onCan i f).moulds = d.moulds := rfl
@[simp] theorem Dev.onCan_integ (i : Nat) (f : CanCtl → CanCtl) : (d.onCan i f).integ = d.integ := rfl
@[simp] theorem Dev.onCan_clk (i : Nat) (f : CanCtl → CanCtl) : (d.onCan i f).clk = d.clk := rfl
@[simp] theorem Dev.onCan_aud (i : Nat) (f : CanCtl → CanCtl) : (d.onCan i f).aud = d.aud := rfl
@[simp] theorem Dev.onCan_mor (i : Nat) (f : CanCtl → CanCtl) : (d.onCan i f).mor = d.mor := rfl
@[simp] theorem Dev.onCan_pair (i : Nat) (f : CanCtl → CanCtl) : (d.onCan i f).pair = d.pair := rfl
@[simp] theorem Dev.onCan_upd (i : Nat) (f : CanCtl → CanCtl) : (d.onCan i f).upd = d.upd := rfl
@[simp] theorem Dev.onCan_flt (i : Nat) (f : CanCtl → CanCtl) : (d.onCan i f).flt = d.flt := rfl
@[simp] theorem Dev.onCan_dirty (i : Nat) (f : CanCtl → CanCtl) : (d.onCan i f).dirty = d.dirty := rfl
@[simp] theorem Dev.onCan_out (i : Nat) (f : CanCtl → CanCtl) : (d.onCan i f).out = d.out := rfl
@[simp] theorem Dev.onCan_fresh (i : Nat) (f : CanCtl → CanCtl) : (d.onCan i f).fresh = d.fresh := rfl

/-! ## `onI2c` -/

@[simp] theorem Dev.onI2c_variant (i : Nat) (f : I2cCtl → I2cCtl) : (d.onI2c i f).variant = d.variant := rfl
@[simp] theorem Dev.onI2c_par (i : Nat) (f : I2cCtl → I2cCtl) : (d.onI2c i f).par = d.par := rfl
@[simp] theorem Dev.onI2c_work (i : Nat) (f : I2cCtl → I2cCtl) : (d.onI2c i f).work = d.work := rfl
@[simp] theorem Dev.onI2c_txn (i : Nat) (f : I2cCtl → I2cCtl) : (d.onI2c i f).txn = d.txn := rfl
@[simp] theorem Dev.onI2c_rx (i : Nat) (f : I2cCtl → I2cCtl) : (d.onI2c i f).rx = d.rx := rfl
@[simp] theorem Dev.onI2c_tx (i : Nat) (f : I2cCtl → I2cCtl) : (d.onI2c i f).tx = d.tx := rfl
@[simp] theorem Dev.onI2c_tg (i : Nat) (f : I2cCtl → I2cCtl) : (d.onI2c i f).tg = d.tg := rfl
@[simp] theorem Dev.onI2c_run (i : Nat) (f : I2cCtl → I2cCtl) : (d.onI2c i f).run = d.run := rfl
@[simp] theorem Dev.onI2c_cru (i : Nat) (f : I2cCtl → I2cCtl) : (d.onI2c i f).cru = d.cru := rfl
@[simp] theorem Dev.onI2c_otp (i : Nat) (f : I2cCtl → I2cCtl) : (d.onI2c i f).otp = d.otp := rfl
@[simp] theorem Dev.onI2c_key (i : Nat) (f : I2cCtl → I2cCtl) : (d.onI2c i f).key = d.key := rfl
@[simp] theorem Dev.onI2c_flash (i : Nat) (f : I2cCtl → I2cCtl) : (d.onI2c i f).flash = d.flash := rfl
@[simp] theorem Dev.onI2c_pwr (i : Nat) (f : I2cCtl → I2cCtl) : (d.onI2c i f).pwr = d.pwr := rfl
@[simp] theorem Dev.onI2c_spr (i : Nat) (f : I2cCtl → I2cCtl) : (d.onI2c i f).spr = d.spr := rfl
@[simp] theorem Dev.onI2c_moulds (i : Nat) (f : I2cCtl → I2cCtl) : (d.onI2c i f).moulds = d.moulds := rfl
@[simp] theorem Dev.onI2c_integ (i : Nat) (f : I2cCtl → I2cCtl) : (d.onI2c i f).integ = d.integ := rfl
@[simp] theorem Dev.onI2c_clk (i : Nat) (f : I2cCtl → I2cCtl) : (d.onI2c i f).clk = d.clk := rfl
@[simp] theorem Dev.onI2c_aud (i : Nat) (f : I2cCtl → I2cCtl) : (d.onI2c i f).aud = d.aud := rfl
@[simp] theorem Dev.onI2c_mor (i : Nat) (f : I2cCtl → I2cCtl) : (d.onI2c i f).mor = d.mor := rfl
@[simp] theorem Dev.onI2c_pair (i : Nat) (f : I2cCtl → I2cCtl) : (d.onI2c i f).pair = d.pair := rfl
@[simp] theorem Dev.onI2c_upd (i : Nat) (f : I2cCtl → I2cCtl) : (d.onI2c i f).upd = d.upd := rfl
@[simp] theorem Dev.onI2c_flt (i : Nat) (f : I2cCtl → I2cCtl) : (d.onI2c i f).flt = d.flt := rfl
@[simp] theorem Dev.onI2c_dirty (i : Nat) (f : I2cCtl → I2cCtl) : (d.onI2c i f).dirty = d.dirty := rfl
@[simp] theorem Dev.onI2c_out (i : Nat) (f : I2cCtl → I2cCtl) : (d.onI2c i f).out = d.out := rfl
@[simp] theorem Dev.onI2c_fresh (i : Nat) (f : I2cCtl → I2cCtl) : (d.onI2c i f).fresh = d.fresh := rfl

/-! ## `onPair` -/

@[simp] theorem Dev.onPair_variant (f : Pair → Pair) : (d.onPair f).variant = d.variant := rfl
@[simp] theorem Dev.onPair_par (f : Pair → Pair) : (d.onPair f).par = d.par := rfl
@[simp] theorem Dev.onPair_work (f : Pair → Pair) : (d.onPair f).work = d.work := rfl
@[simp] theorem Dev.onPair_ctl (f : Pair → Pair) : (d.onPair f).ctl = d.ctl := rfl
@[simp] theorem Dev.onPair_txn (f : Pair → Pair) : (d.onPair f).txn = d.txn := rfl
@[simp] theorem Dev.onPair_rx (f : Pair → Pair) : (d.onPair f).rx = d.rx := rfl
@[simp] theorem Dev.onPair_tx (f : Pair → Pair) : (d.onPair f).tx = d.tx := rfl
@[simp] theorem Dev.onPair_tg (f : Pair → Pair) : (d.onPair f).tg = d.tg := rfl
@[simp] theorem Dev.onPair_run (f : Pair → Pair) : (d.onPair f).run = d.run := rfl
@[simp] theorem Dev.onPair_cru (f : Pair → Pair) : (d.onPair f).cru = d.cru := rfl
@[simp] theorem Dev.onPair_otp (f : Pair → Pair) : (d.onPair f).otp = d.otp := rfl
@[simp] theorem Dev.onPair_key (f : Pair → Pair) : (d.onPair f).key = d.key := rfl
@[simp] theorem Dev.onPair_flash (f : Pair → Pair) : (d.onPair f).flash = d.flash := rfl
@[simp] theorem Dev.onPair_pwr (f : Pair → Pair) : (d.onPair f).pwr = d.pwr := rfl
@[simp] theorem Dev.onPair_spr (f : Pair → Pair) : (d.onPair f).spr = d.spr := rfl
@[simp] theorem Dev.onPair_moulds (f : Pair → Pair) : (d.onPair f).moulds = d.moulds := rfl
@[simp] theorem Dev.onPair_integ (f : Pair → Pair) : (d.onPair f).integ = d.integ := rfl
@[simp] theorem Dev.onPair_clk (f : Pair → Pair) : (d.onPair f).clk = d.clk := rfl
@[simp] theorem Dev.onPair_aud (f : Pair → Pair) : (d.onPair f).aud = d.aud := rfl
@[simp] theorem Dev.onPair_mor (f : Pair → Pair) : (d.onPair f).mor = d.mor := rfl
@[simp] theorem Dev.onPair_upd (f : Pair → Pair) : (d.onPair f).upd = d.upd := rfl
@[simp] theorem Dev.onPair_flt (f : Pair → Pair) : (d.onPair f).flt = d.flt := rfl
@[simp] theorem Dev.onPair_dirty (f : Pair → Pair) : (d.onPair f).dirty = d.dirty := rfl
@[simp] theorem Dev.onPair_out (f : Pair → Pair) : (d.onPair f).out = d.out := rfl
@[simp] theorem Dev.onPair_fresh (f : Pair → Pair) : (d.onPair f).fresh = d.fresh := rfl

/-! ## `onSprue` -/

@[simp] theorem Dev.onSprue_variant (i : Nat) (f : Sprue → Sprue) : (d.onSprue i f).variant = d.variant := rfl
@[simp] theorem Dev.onSprue_par (i : Nat) (f : Sprue → Sprue) : (d.onSprue i f).par = d.par := rfl
@[simp] theorem Dev.onSprue_work (i : Nat) (f : Sprue → Sprue) : (d.onSprue i f).work = d.work := rfl
@[simp] theorem Dev.onSprue_ctl (i : Nat) (f : Sprue → Sprue) : (d.onSprue i f).ctl = d.ctl := rfl
@[simp] theorem Dev.onSprue_txn (i : Nat) (f : Sprue → Sprue) : (d.onSprue i f).txn = d.txn := rfl
@[simp] theorem Dev.onSprue_rx (i : Nat) (f : Sprue → Sprue) : (d.onSprue i f).rx = d.rx := rfl
@[simp] theorem Dev.onSprue_tx (i : Nat) (f : Sprue → Sprue) : (d.onSprue i f).tx = d.tx := rfl
@[simp] theorem Dev.onSprue_tg (i : Nat) (f : Sprue → Sprue) : (d.onSprue i f).tg = d.tg := rfl
@[simp] theorem Dev.onSprue_run (i : Nat) (f : Sprue → Sprue) : (d.onSprue i f).run = d.run := rfl
@[simp] theorem Dev.onSprue_cru (i : Nat) (f : Sprue → Sprue) : (d.onSprue i f).cru = d.cru := rfl
@[simp] theorem Dev.onSprue_otp (i : Nat) (f : Sprue → Sprue) : (d.onSprue i f).otp = d.otp := rfl
@[simp] theorem Dev.onSprue_key (i : Nat) (f : Sprue → Sprue) : (d.onSprue i f).key = d.key := rfl
@[simp] theorem Dev.onSprue_flash (i : Nat) (f : Sprue → Sprue) : (d.onSprue i f).flash = d.flash := rfl
@[simp] theorem Dev.onSprue_pwr (i : Nat) (f : Sprue → Sprue) : (d.onSprue i f).pwr = d.pwr := rfl
@[simp] theorem Dev.onSprue_moulds (i : Nat) (f : Sprue → Sprue) : (d.onSprue i f).moulds = d.moulds := rfl
@[simp] theorem Dev.onSprue_integ (i : Nat) (f : Sprue → Sprue) : (d.onSprue i f).integ = d.integ := rfl
@[simp] theorem Dev.onSprue_clk (i : Nat) (f : Sprue → Sprue) : (d.onSprue i f).clk = d.clk := rfl
@[simp] theorem Dev.onSprue_aud (i : Nat) (f : Sprue → Sprue) : (d.onSprue i f).aud = d.aud := rfl
@[simp] theorem Dev.onSprue_mor (i : Nat) (f : Sprue → Sprue) : (d.onSprue i f).mor = d.mor := rfl
@[simp] theorem Dev.onSprue_pair (i : Nat) (f : Sprue → Sprue) : (d.onSprue i f).pair = d.pair := rfl
@[simp] theorem Dev.onSprue_upd (i : Nat) (f : Sprue → Sprue) : (d.onSprue i f).upd = d.upd := rfl
@[simp] theorem Dev.onSprue_flt (i : Nat) (f : Sprue → Sprue) : (d.onSprue i f).flt = d.flt := rfl
@[simp] theorem Dev.onSprue_dirty (i : Nat) (f : Sprue → Sprue) : (d.onSprue i f).dirty = d.dirty := rfl
@[simp] theorem Dev.onSprue_out (i : Nat) (f : Sprue → Sprue) : (d.onSprue i f).out = d.out := rfl
@[simp] theorem Dev.onSprue_fresh (i : Nat) (f : Sprue → Sprue) : (d.onSprue i f).fresh = d.fresh := rfl

/-! ## `onStream` -/

@[simp] theorem Dev.onStream_variant (e : Nat) (f : StreamRun → StreamRun) : (d.onStream e f).variant = d.variant := rfl
@[simp] theorem Dev.onStream_par (e : Nat) (f : StreamRun → StreamRun) : (d.onStream e f).par = d.par := rfl
@[simp] theorem Dev.onStream_work (e : Nat) (f : StreamRun → StreamRun) : (d.onStream e f).work = d.work := rfl
@[simp] theorem Dev.onStream_ctl (e : Nat) (f : StreamRun → StreamRun) : (d.onStream e f).ctl = d.ctl := rfl
@[simp] theorem Dev.onStream_txn (e : Nat) (f : StreamRun → StreamRun) : (d.onStream e f).txn = d.txn := rfl
@[simp] theorem Dev.onStream_rx (e : Nat) (f : StreamRun → StreamRun) : (d.onStream e f).rx = d.rx := rfl
@[simp] theorem Dev.onStream_tx (e : Nat) (f : StreamRun → StreamRun) : (d.onStream e f).tx = d.tx := rfl
@[simp] theorem Dev.onStream_tg (e : Nat) (f : StreamRun → StreamRun) : (d.onStream e f).tg = d.tg := rfl
@[simp] theorem Dev.onStream_cru (e : Nat) (f : StreamRun → StreamRun) : (d.onStream e f).cru = d.cru := rfl
@[simp] theorem Dev.onStream_otp (e : Nat) (f : StreamRun → StreamRun) : (d.onStream e f).otp = d.otp := rfl
@[simp] theorem Dev.onStream_key (e : Nat) (f : StreamRun → StreamRun) : (d.onStream e f).key = d.key := rfl
@[simp] theorem Dev.onStream_flash (e : Nat) (f : StreamRun → StreamRun) : (d.onStream e f).flash = d.flash := rfl
@[simp] theorem Dev.onStream_pwr (e : Nat) (f : StreamRun → StreamRun) : (d.onStream e f).pwr = d.pwr := rfl
@[simp] theorem Dev.onStream_spr (e : Nat) (f : StreamRun → StreamRun) : (d.onStream e f).spr = d.spr := rfl
@[simp] theorem Dev.onStream_moulds (e : Nat) (f : StreamRun → StreamRun) : (d.onStream e f).moulds = d.moulds := rfl
@[simp] theorem Dev.onStream_integ (e : Nat) (f : StreamRun → StreamRun) : (d.onStream e f).integ = d.integ := rfl
@[simp] theorem Dev.onStream_clk (e : Nat) (f : StreamRun → StreamRun) : (d.onStream e f).clk = d.clk := rfl
@[simp] theorem Dev.onStream_aud (e : Nat) (f : StreamRun → StreamRun) : (d.onStream e f).aud = d.aud := rfl
@[simp] theorem Dev.onStream_mor (e : Nat) (f : StreamRun → StreamRun) : (d.onStream e f).mor = d.mor := rfl
@[simp] theorem Dev.onStream_pair (e : Nat) (f : StreamRun → StreamRun) : (d.onStream e f).pair = d.pair := rfl
@[simp] theorem Dev.onStream_upd (e : Nat) (f : StreamRun → StreamRun) : (d.onStream e f).upd = d.upd := rfl
@[simp] theorem Dev.onStream_flt (e : Nat) (f : StreamRun → StreamRun) : (d.onStream e f).flt = d.flt := rfl
@[simp] theorem Dev.onStream_dirty (e : Nat) (f : StreamRun → StreamRun) : (d.onStream e f).dirty = d.dirty := rfl
@[simp] theorem Dev.onStream_out (e : Nat) (f : StreamRun → StreamRun) : (d.onStream e f).out = d.out := rfl
@[simp] theorem Dev.onStream_fresh (e : Nat) (f : StreamRun → StreamRun) : (d.onStream e f).fresh = d.fresh := rfl

/-! ## `onOut` -/

@[simp] theorem Dev.onOut_variant (o : Nat) (f : RouteOut → RouteOut) : (d.onOut o f).variant = d.variant := rfl
@[simp] theorem Dev.onOut_par (o : Nat) (f : RouteOut → RouteOut) : (d.onOut o f).par = d.par := rfl
@[simp] theorem Dev.onOut_work (o : Nat) (f : RouteOut → RouteOut) : (d.onOut o f).work = d.work := rfl
@[simp] theorem Dev.onOut_ctl (o : Nat) (f : RouteOut → RouteOut) : (d.onOut o f).ctl = d.ctl := rfl
@[simp] theorem Dev.onOut_txn (o : Nat) (f : RouteOut → RouteOut) : (d.onOut o f).txn = d.txn := rfl
@[simp] theorem Dev.onOut_rx (o : Nat) (f : RouteOut → RouteOut) : (d.onOut o f).rx = d.rx := rfl
@[simp] theorem Dev.onOut_tx (o : Nat) (f : RouteOut → RouteOut) : (d.onOut o f).tx = d.tx := rfl
@[simp] theorem Dev.onOut_tg (o : Nat) (f : RouteOut → RouteOut) : (d.onOut o f).tg = d.tg := rfl
@[simp] theorem Dev.onOut_cru (o : Nat) (f : RouteOut → RouteOut) : (d.onOut o f).cru = d.cru := rfl
@[simp] theorem Dev.onOut_otp (o : Nat) (f : RouteOut → RouteOut) : (d.onOut o f).otp = d.otp := rfl
@[simp] theorem Dev.onOut_key (o : Nat) (f : RouteOut → RouteOut) : (d.onOut o f).key = d.key := rfl
@[simp] theorem Dev.onOut_flash (o : Nat) (f : RouteOut → RouteOut) : (d.onOut o f).flash = d.flash := rfl
@[simp] theorem Dev.onOut_pwr (o : Nat) (f : RouteOut → RouteOut) : (d.onOut o f).pwr = d.pwr := rfl
@[simp] theorem Dev.onOut_spr (o : Nat) (f : RouteOut → RouteOut) : (d.onOut o f).spr = d.spr := rfl
@[simp] theorem Dev.onOut_moulds (o : Nat) (f : RouteOut → RouteOut) : (d.onOut o f).moulds = d.moulds := rfl
@[simp] theorem Dev.onOut_integ (o : Nat) (f : RouteOut → RouteOut) : (d.onOut o f).integ = d.integ := rfl
@[simp] theorem Dev.onOut_clk (o : Nat) (f : RouteOut → RouteOut) : (d.onOut o f).clk = d.clk := rfl
@[simp] theorem Dev.onOut_aud (o : Nat) (f : RouteOut → RouteOut) : (d.onOut o f).aud = d.aud := rfl
@[simp] theorem Dev.onOut_mor (o : Nat) (f : RouteOut → RouteOut) : (d.onOut o f).mor = d.mor := rfl
@[simp] theorem Dev.onOut_pair (o : Nat) (f : RouteOut → RouteOut) : (d.onOut o f).pair = d.pair := rfl
@[simp] theorem Dev.onOut_upd (o : Nat) (f : RouteOut → RouteOut) : (d.onOut o f).upd = d.upd := rfl
@[simp] theorem Dev.onOut_flt (o : Nat) (f : RouteOut → RouteOut) : (d.onOut o f).flt = d.flt := rfl
@[simp] theorem Dev.onOut_dirty (o : Nat) (f : RouteOut → RouteOut) : (d.onOut o f).dirty = d.dirty := rfl
@[simp] theorem Dev.onOut_out (o : Nat) (f : RouteOut → RouteOut) : (d.onOut o f).out = d.out := rfl
@[simp] theorem Dev.onOut_fresh (o : Nat) (f : RouteOut → RouteOut) : (d.onOut o f).fresh = d.fresh := rfl

/-! ## `onUpd` -/

@[simp] theorem Dev.onUpd_variant (f : Update → Update) : (d.onUpd f).variant = d.variant := rfl
@[simp] theorem Dev.onUpd_par (f : Update → Update) : (d.onUpd f).par = d.par := rfl
@[simp] theorem Dev.onUpd_work (f : Update → Update) : (d.onUpd f).work = d.work := rfl
@[simp] theorem Dev.onUpd_ctl (f : Update → Update) : (d.onUpd f).ctl = d.ctl := rfl
@[simp] theorem Dev.onUpd_txn (f : Update → Update) : (d.onUpd f).txn = d.txn := rfl
@[simp] theorem Dev.onUpd_rx (f : Update → Update) : (d.onUpd f).rx = d.rx := rfl
@[simp] theorem Dev.onUpd_tx (f : Update → Update) : (d.onUpd f).tx = d.tx := rfl
@[simp] theorem Dev.onUpd_tg (f : Update → Update) : (d.onUpd f).tg = d.tg := rfl
@[simp] theorem Dev.onUpd_run (f : Update → Update) : (d.onUpd f).run = d.run := rfl
@[simp] theorem Dev.onUpd_cru (f : Update → Update) : (d.onUpd f).cru = d.cru := rfl
@[simp] theorem Dev.onUpd_otp (f : Update → Update) : (d.onUpd f).otp = d.otp := rfl
@[simp] theorem Dev.onUpd_key (f : Update → Update) : (d.onUpd f).key = d.key := rfl
@[simp] theorem Dev.onUpd_flash (f : Update → Update) : (d.onUpd f).flash = d.flash := rfl
@[simp] theorem Dev.onUpd_pwr (f : Update → Update) : (d.onUpd f).pwr = d.pwr := rfl
@[simp] theorem Dev.onUpd_spr (f : Update → Update) : (d.onUpd f).spr = d.spr := rfl
@[simp] theorem Dev.onUpd_moulds (f : Update → Update) : (d.onUpd f).moulds = d.moulds := rfl
@[simp] theorem Dev.onUpd_integ (f : Update → Update) : (d.onUpd f).integ = d.integ := rfl
@[simp] theorem Dev.onUpd_clk (f : Update → Update) : (d.onUpd f).clk = d.clk := rfl
@[simp] theorem Dev.onUpd_aud (f : Update → Update) : (d.onUpd f).aud = d.aud := rfl
@[simp] theorem Dev.onUpd_mor (f : Update → Update) : (d.onUpd f).mor = d.mor := rfl
@[simp] theorem Dev.onUpd_pair (f : Update → Update) : (d.onUpd f).pair = d.pair := rfl
@[simp] theorem Dev.onUpd_flt (f : Update → Update) : (d.onUpd f).flt = d.flt := rfl
@[simp] theorem Dev.onUpd_dirty (f : Update → Update) : (d.onUpd f).dirty = d.dirty := rfl
@[simp] theorem Dev.onUpd_out (f : Update → Update) : (d.onUpd f).out = d.out := rfl
@[simp] theorem Dev.onUpd_fresh (f : Update → Update) : (d.onUpd f).fresh = d.fresh := rfl

/-! ## `onRx` -/

@[simp] theorem Dev.onRx_variant (i : Nat) (f : RxPort → RxPort) : (d.onRx i f).variant = d.variant := rfl
@[simp] theorem Dev.onRx_par (i : Nat) (f : RxPort → RxPort) : (d.onRx i f).par = d.par := rfl
@[simp] theorem Dev.onRx_work (i : Nat) (f : RxPort → RxPort) : (d.onRx i f).work = d.work := rfl
@[simp] theorem Dev.onRx_ctl (i : Nat) (f : RxPort → RxPort) : (d.onRx i f).ctl = d.ctl := rfl
@[simp] theorem Dev.onRx_txn (i : Nat) (f : RxPort → RxPort) : (d.onRx i f).txn = d.txn := rfl
@[simp] theorem Dev.onRx_tx (i : Nat) (f : RxPort → RxPort) : (d.onRx i f).tx = d.tx := rfl
@[simp] theorem Dev.onRx_tg (i : Nat) (f : RxPort → RxPort) : (d.onRx i f).tg = d.tg := rfl
@[simp] theorem Dev.onRx_run (i : Nat) (f : RxPort → RxPort) : (d.onRx i f).run = d.run := rfl
@[simp] theorem Dev.onRx_cru (i : Nat) (f : RxPort → RxPort) : (d.onRx i f).cru = d.cru := rfl
@[simp] theorem Dev.onRx_otp (i : Nat) (f : RxPort → RxPort) : (d.onRx i f).otp = d.otp := rfl
@[simp] theorem Dev.onRx_key (i : Nat) (f : RxPort → RxPort) : (d.onRx i f).key = d.key := rfl
@[simp] theorem Dev.onRx_flash (i : Nat) (f : RxPort → RxPort) : (d.onRx i f).flash = d.flash := rfl
@[simp] theorem Dev.onRx_pwr (i : Nat) (f : RxPort → RxPort) : (d.onRx i f).pwr = d.pwr := rfl
@[simp] theorem Dev.onRx_spr (i : Nat) (f : RxPort → RxPort) : (d.onRx i f).spr = d.spr := rfl
@[simp] theorem Dev.onRx_moulds (i : Nat) (f : RxPort → RxPort) : (d.onRx i f).moulds = d.moulds := rfl
@[simp] theorem Dev.onRx_integ (i : Nat) (f : RxPort → RxPort) : (d.onRx i f).integ = d.integ := rfl
@[simp] theorem Dev.onRx_clk (i : Nat) (f : RxPort → RxPort) : (d.onRx i f).clk = d.clk := rfl
@[simp] theorem Dev.onRx_aud (i : Nat) (f : RxPort → RxPort) : (d.onRx i f).aud = d.aud := rfl
@[simp] theorem Dev.onRx_mor (i : Nat) (f : RxPort → RxPort) : (d.onRx i f).mor = d.mor := rfl
@[simp] theorem Dev.onRx_pair (i : Nat) (f : RxPort → RxPort) : (d.onRx i f).pair = d.pair := rfl
@[simp] theorem Dev.onRx_upd (i : Nat) (f : RxPort → RxPort) : (d.onRx i f).upd = d.upd := rfl
@[simp] theorem Dev.onRx_flt (i : Nat) (f : RxPort → RxPort) : (d.onRx i f).flt = d.flt := rfl
@[simp] theorem Dev.onRx_dirty (i : Nat) (f : RxPort → RxPort) : (d.onRx i f).dirty = d.dirty := rfl
@[simp] theorem Dev.onRx_out (i : Nat) (f : RxPort → RxPort) : (d.onRx i f).out = d.out := rfl
@[simp] theorem Dev.onRx_fresh (i : Nat) (f : RxPort → RxPort) : (d.onRx i f).fresh = d.fresh := rfl

/-! ## `onTx` -/

@[simp] theorem Dev.onTx_variant (i : Nat) (f : TxPort → TxPort) : (d.onTx i f).variant = d.variant := rfl
@[simp] theorem Dev.onTx_par (i : Nat) (f : TxPort → TxPort) : (d.onTx i f).par = d.par := rfl
@[simp] theorem Dev.onTx_work (i : Nat) (f : TxPort → TxPort) : (d.onTx i f).work = d.work := rfl
@[simp] theorem Dev.onTx_ctl (i : Nat) (f : TxPort → TxPort) : (d.onTx i f).ctl = d.ctl := rfl
@[simp] theorem Dev.onTx_txn (i : Nat) (f : TxPort → TxPort) : (d.onTx i f).txn = d.txn := rfl
@[simp] theorem Dev.onTx_rx (i : Nat) (f : TxPort → TxPort) : (d.onTx i f).rx = d.rx := rfl
@[simp] theorem Dev.onTx_tg (i : Nat) (f : TxPort → TxPort) : (d.onTx i f).tg = d.tg := rfl
@[simp] theorem Dev.onTx_run (i : Nat) (f : TxPort → TxPort) : (d.onTx i f).run = d.run := rfl
@[simp] theorem Dev.onTx_cru (i : Nat) (f : TxPort → TxPort) : (d.onTx i f).cru = d.cru := rfl
@[simp] theorem Dev.onTx_otp (i : Nat) (f : TxPort → TxPort) : (d.onTx i f).otp = d.otp := rfl
@[simp] theorem Dev.onTx_key (i : Nat) (f : TxPort → TxPort) : (d.onTx i f).key = d.key := rfl
@[simp] theorem Dev.onTx_flash (i : Nat) (f : TxPort → TxPort) : (d.onTx i f).flash = d.flash := rfl
@[simp] theorem Dev.onTx_pwr (i : Nat) (f : TxPort → TxPort) : (d.onTx i f).pwr = d.pwr := rfl
@[simp] theorem Dev.onTx_spr (i : Nat) (f : TxPort → TxPort) : (d.onTx i f).spr = d.spr := rfl
@[simp] theorem Dev.onTx_moulds (i : Nat) (f : TxPort → TxPort) : (d.onTx i f).moulds = d.moulds := rfl
@[simp] theorem Dev.onTx_integ (i : Nat) (f : TxPort → TxPort) : (d.onTx i f).integ = d.integ := rfl
@[simp] theorem Dev.onTx_clk (i : Nat) (f : TxPort → TxPort) : (d.onTx i f).clk = d.clk := rfl
@[simp] theorem Dev.onTx_aud (i : Nat) (f : TxPort → TxPort) : (d.onTx i f).aud = d.aud := rfl
@[simp] theorem Dev.onTx_mor (i : Nat) (f : TxPort → TxPort) : (d.onTx i f).mor = d.mor := rfl
@[simp] theorem Dev.onTx_pair (i : Nat) (f : TxPort → TxPort) : (d.onTx i f).pair = d.pair := rfl
@[simp] theorem Dev.onTx_upd (i : Nat) (f : TxPort → TxPort) : (d.onTx i f).upd = d.upd := rfl
@[simp] theorem Dev.onTx_flt (i : Nat) (f : TxPort → TxPort) : (d.onTx i f).flt = d.flt := rfl
@[simp] theorem Dev.onTx_dirty (i : Nat) (f : TxPort → TxPort) : (d.onTx i f).dirty = d.dirty := rfl
@[simp] theorem Dev.onTx_out (i : Nat) (f : TxPort → TxPort) : (d.onTx i f).out = d.out := rfl
@[simp] theorem Dev.onTx_fresh (i : Nat) (f : TxPort → TxPort) : (d.onTx i f).fresh = d.fresh := rfl

/-! ## `onTg` -/

@[simp] theorem Dev.onTg_variant (i : Nat) (f : Tg → Tg) : (d.onTg i f).variant = d.variant := rfl
@[simp] theorem Dev.onTg_par (i : Nat) (f : Tg → Tg) : (d.onTg i f).par = d.par := rfl
@[simp] theorem Dev.onTg_work (i : Nat) (f : Tg → Tg) : (d.onTg i f).work = d.work := rfl
@[simp] theorem Dev.onTg_ctl (i : Nat) (f : Tg → Tg) : (d.onTg i f).ctl = d.ctl := rfl
@[simp] theorem Dev.onTg_txn (i : Nat) (f : Tg → Tg) : (d.onTg i f).txn = d.txn := rfl
@[simp] theorem Dev.onTg_rx (i : Nat) (f : Tg → Tg) : (d.onTg i f).rx = d.rx := rfl
@[simp] theorem Dev.onTg_tx (i : Nat) (f : Tg → Tg) : (d.onTg i f).tx = d.tx := rfl
@[simp] theorem Dev.onTg_run (i : Nat) (f : Tg → Tg) : (d.onTg i f).run = d.run := rfl
@[simp] theorem Dev.onTg_cru (i : Nat) (f : Tg → Tg) : (d.onTg i f).cru = d.cru := rfl
@[simp] theorem Dev.onTg_otp (i : Nat) (f : Tg → Tg) : (d.onTg i f).otp = d.otp := rfl
@[simp] theorem Dev.onTg_key (i : Nat) (f : Tg → Tg) : (d.onTg i f).key = d.key := rfl
@[simp] theorem Dev.onTg_flash (i : Nat) (f : Tg → Tg) : (d.onTg i f).flash = d.flash := rfl
@[simp] theorem Dev.onTg_pwr (i : Nat) (f : Tg → Tg) : (d.onTg i f).pwr = d.pwr := rfl
@[simp] theorem Dev.onTg_spr (i : Nat) (f : Tg → Tg) : (d.onTg i f).spr = d.spr := rfl
@[simp] theorem Dev.onTg_moulds (i : Nat) (f : Tg → Tg) : (d.onTg i f).moulds = d.moulds := rfl
@[simp] theorem Dev.onTg_integ (i : Nat) (f : Tg → Tg) : (d.onTg i f).integ = d.integ := rfl
@[simp] theorem Dev.onTg_clk (i : Nat) (f : Tg → Tg) : (d.onTg i f).clk = d.clk := rfl
@[simp] theorem Dev.onTg_aud (i : Nat) (f : Tg → Tg) : (d.onTg i f).aud = d.aud := rfl
@[simp] theorem Dev.onTg_mor (i : Nat) (f : Tg → Tg) : (d.onTg i f).mor = d.mor := rfl
@[simp] theorem Dev.onTg_pair (i : Nat) (f : Tg → Tg) : (d.onTg i f).pair = d.pair := rfl
@[simp] theorem Dev.onTg_upd (i : Nat) (f : Tg → Tg) : (d.onTg i f).upd = d.upd := rfl
@[simp] theorem Dev.onTg_flt (i : Nat) (f : Tg → Tg) : (d.onTg i f).flt = d.flt := rfl
@[simp] theorem Dev.onTg_dirty (i : Nat) (f : Tg → Tg) : (d.onTg i f).dirty = d.dirty := rfl
@[simp] theorem Dev.onTg_out (i : Nat) (f : Tg → Tg) : (d.onTg i f).out = d.out := rfl
@[simp] theorem Dev.onTg_fresh (i : Nat) (f : Tg → Tg) : (d.onTg i f).fresh = d.fresh := rfl

/-! ## `onPairCtl` -/

@[simp] theorem Dev.onPairCtl_variant (i : Nat) (f : CtlPair → CtlPair) : (d.onPairCtl i f).variant = d.variant := rfl
@[simp] theorem Dev.onPairCtl_par (i : Nat) (f : CtlPair → CtlPair) : (d.onPairCtl i f).par = d.par := rfl
@[simp] theorem Dev.onPairCtl_work (i : Nat) (f : CtlPair → CtlPair) : (d.onPairCtl i f).work = d.work := rfl
@[simp] theorem Dev.onPairCtl_ctl (i : Nat) (f : CtlPair → CtlPair) : (d.onPairCtl i f).ctl = d.ctl := rfl
@[simp] theorem Dev.onPairCtl_txn (i : Nat) (f : CtlPair → CtlPair) : (d.onPairCtl i f).txn = d.txn := rfl
@[simp] theorem Dev.onPairCtl_rx (i : Nat) (f : CtlPair → CtlPair) : (d.onPairCtl i f).rx = d.rx := rfl
@[simp] theorem Dev.onPairCtl_tx (i : Nat) (f : CtlPair → CtlPair) : (d.onPairCtl i f).tx = d.tx := rfl
@[simp] theorem Dev.onPairCtl_tg (i : Nat) (f : CtlPair → CtlPair) : (d.onPairCtl i f).tg = d.tg := rfl
@[simp] theorem Dev.onPairCtl_run (i : Nat) (f : CtlPair → CtlPair) : (d.onPairCtl i f).run = d.run := rfl
@[simp] theorem Dev.onPairCtl_cru (i : Nat) (f : CtlPair → CtlPair) : (d.onPairCtl i f).cru = d.cru := rfl
@[simp] theorem Dev.onPairCtl_otp (i : Nat) (f : CtlPair → CtlPair) : (d.onPairCtl i f).otp = d.otp := rfl
@[simp] theorem Dev.onPairCtl_key (i : Nat) (f : CtlPair → CtlPair) : (d.onPairCtl i f).key = d.key := rfl
@[simp] theorem Dev.onPairCtl_flash (i : Nat) (f : CtlPair → CtlPair) : (d.onPairCtl i f).flash = d.flash := rfl
@[simp] theorem Dev.onPairCtl_pwr (i : Nat) (f : CtlPair → CtlPair) : (d.onPairCtl i f).pwr = d.pwr := rfl
@[simp] theorem Dev.onPairCtl_spr (i : Nat) (f : CtlPair → CtlPair) : (d.onPairCtl i f).spr = d.spr := rfl
@[simp] theorem Dev.onPairCtl_moulds (i : Nat) (f : CtlPair → CtlPair) : (d.onPairCtl i f).moulds = d.moulds := rfl
@[simp] theorem Dev.onPairCtl_integ (i : Nat) (f : CtlPair → CtlPair) : (d.onPairCtl i f).integ = d.integ := rfl
@[simp] theorem Dev.onPairCtl_clk (i : Nat) (f : CtlPair → CtlPair) : (d.onPairCtl i f).clk = d.clk := rfl
@[simp] theorem Dev.onPairCtl_aud (i : Nat) (f : CtlPair → CtlPair) : (d.onPairCtl i f).aud = d.aud := rfl
@[simp] theorem Dev.onPairCtl_mor (i : Nat) (f : CtlPair → CtlPair) : (d.onPairCtl i f).mor = d.mor := rfl
@[simp] theorem Dev.onPairCtl_pair (i : Nat) (f : CtlPair → CtlPair) : (d.onPairCtl i f).pair = d.pair := rfl
@[simp] theorem Dev.onPairCtl_upd (i : Nat) (f : CtlPair → CtlPair) : (d.onPairCtl i f).upd = d.upd := rfl
@[simp] theorem Dev.onPairCtl_dirty (i : Nat) (f : CtlPair → CtlPair) : (d.onPairCtl i f).dirty = d.dirty := rfl
@[simp] theorem Dev.onPairCtl_out (i : Nat) (f : CtlPair → CtlPair) : (d.onPairCtl i f).out = d.out := rfl
@[simp] theorem Dev.onPairCtl_fresh (i : Nat) (f : CtlPair → CtlPair) : (d.onPairCtl i f).fresh = d.fresh := rfl

/-! ## `bumpBy` -/

@[simp] theorem Dev.bumpBy_variant (id i k : Nat) : (d.bumpBy id i k).variant = d.variant := by unfold Dev.bumpBy; split <;> rfl
@[simp] theorem Dev.bumpBy_work (id i k : Nat) : (d.bumpBy id i k).work = d.work := by unfold Dev.bumpBy; split <;> rfl
@[simp] theorem Dev.bumpBy_ctl (id i k : Nat) : (d.bumpBy id i k).ctl = d.ctl := by unfold Dev.bumpBy; split <;> rfl
@[simp] theorem Dev.bumpBy_txn (id i k : Nat) : (d.bumpBy id i k).txn = d.txn := by unfold Dev.bumpBy; split <;> rfl
@[simp] theorem Dev.bumpBy_rx (id i k : Nat) : (d.bumpBy id i k).rx = d.rx := by unfold Dev.bumpBy; split <;> rfl
@[simp] theorem Dev.bumpBy_tx (id i k : Nat) : (d.bumpBy id i k).tx = d.tx := by unfold Dev.bumpBy; split <;> rfl
@[simp] theorem Dev.bumpBy_tg (id i k : Nat) : (d.bumpBy id i k).tg = d.tg := by unfold Dev.bumpBy; split <;> rfl
@[simp] theorem Dev.bumpBy_run (id i k : Nat) : (d.bumpBy id i k).run = d.run := by unfold Dev.bumpBy; split <;> rfl
@[simp] theorem Dev.bumpBy_cru (id i k : Nat) : (d.bumpBy id i k).cru = d.cru := by unfold Dev.bumpBy; split <;> rfl
@[simp] theorem Dev.bumpBy_otp (id i k : Nat) : (d.bumpBy id i k).otp = d.otp := by unfold Dev.bumpBy; split <;> rfl
@[simp] theorem Dev.bumpBy_key (id i k : Nat) : (d.bumpBy id i k).key = d.key := by unfold Dev.bumpBy; split <;> rfl
@[simp] theorem Dev.bumpBy_flash (id i k : Nat) : (d.bumpBy id i k).flash = d.flash := by unfold Dev.bumpBy; split <;> rfl
@[simp] theorem Dev.bumpBy_pwr (id i k : Nat) : (d.bumpBy id i k).pwr = d.pwr := by unfold Dev.bumpBy; split <;> rfl
@[simp] theorem Dev.bumpBy_spr (id i k : Nat) : (d.bumpBy id i k).spr = d.spr := by unfold Dev.bumpBy; split <;> rfl
@[simp] theorem Dev.bumpBy_moulds (id i k : Nat) : (d.bumpBy id i k).moulds = d.moulds := by unfold Dev.bumpBy; split <;> rfl
@[simp] theorem Dev.bumpBy_integ (id i k : Nat) : (d.bumpBy id i k).integ = d.integ := by unfold Dev.bumpBy; split <;> rfl
@[simp] theorem Dev.bumpBy_clk (id i k : Nat) : (d.bumpBy id i k).clk = d.clk := by unfold Dev.bumpBy; split <;> rfl
@[simp] theorem Dev.bumpBy_aud (id i k : Nat) : (d.bumpBy id i k).aud = d.aud := by unfold Dev.bumpBy; split <;> rfl
@[simp] theorem Dev.bumpBy_mor (id i k : Nat) : (d.bumpBy id i k).mor = d.mor := by unfold Dev.bumpBy; split <;> rfl
@[simp] theorem Dev.bumpBy_pair (id i k : Nat) : (d.bumpBy id i k).pair = d.pair := by unfold Dev.bumpBy; split <;> rfl
@[simp] theorem Dev.bumpBy_upd (id i k : Nat) : (d.bumpBy id i k).upd = d.upd := by unfold Dev.bumpBy; split <;> rfl
@[simp] theorem Dev.bumpBy_flt (id i k : Nat) : (d.bumpBy id i k).flt = d.flt := by unfold Dev.bumpBy; split <;> rfl
@[simp] theorem Dev.bumpBy_dirty (id i k : Nat) : (d.bumpBy id i k).dirty = d.dirty := by unfold Dev.bumpBy; split <;> rfl
@[simp] theorem Dev.bumpBy_out (id i k : Nat) : (d.bumpBy id i k).out = d.out := by unfold Dev.bumpBy; split <;> rfl
@[simp] theorem Dev.bumpBy_fresh (id i k : Nat) : (d.bumpBy id i k).fresh = d.fresh := by unfold Dev.bumpBy; split <;> rfl

/-! ## `bump` -/

@[simp] theorem Dev.bump_variant (id i : Nat) : (d.bump id i).variant = d.variant := by simp [Dev.bump]
@[simp] theorem Dev.bump_work (id i : Nat) : (d.bump id i).work = d.work := by simp [Dev.bump]
@[simp] theorem Dev.bump_ctl (id i : Nat) : (d.bump id i).ctl = d.ctl := by simp [Dev.bump]
@[simp] theorem Dev.bump_txn (id i : Nat) : (d.bump id i).txn = d.txn := by simp [Dev.bump]
@[simp] theorem Dev.bump_rx (id i : Nat) : (d.bump id i).rx = d.rx := by simp [Dev.bump]
@[simp] theorem Dev.bump_tx (id i : Nat) : (d.bump id i).tx = d.tx := by simp [Dev.bump]
@[simp] theorem Dev.bump_tg (id i : Nat) : (d.bump id i).tg = d.tg := by simp [Dev.bump]
@[simp] theorem Dev.bump_run (id i : Nat) : (d.bump id i).run = d.run := by simp [Dev.bump]
@[simp] theorem Dev.bump_cru (id i : Nat) : (d.bump id i).cru = d.cru := by simp [Dev.bump]
@[simp] theorem Dev.bump_otp (id i : Nat) : (d.bump id i).otp = d.otp := by simp [Dev.bump]
@[simp] theorem Dev.bump_key (id i : Nat) : (d.bump id i).key = d.key := by simp [Dev.bump]
@[simp] theorem Dev.bump_flash (id i : Nat) : (d.bump id i).flash = d.flash := by simp [Dev.bump]
@[simp] theorem Dev.bump_pwr (id i : Nat) : (d.bump id i).pwr = d.pwr := by simp [Dev.bump]
@[simp] theorem Dev.bump_spr (id i : Nat) : (d.bump id i).spr = d.spr := by simp [Dev.bump]
@[simp] theorem Dev.bump_moulds (id i : Nat) : (d.bump id i).moulds = d.moulds := by simp [Dev.bump]
@[simp] theorem Dev.bump_integ (id i : Nat) : (d.bump id i).integ = d.integ := by simp [Dev.bump]
@[simp] theorem Dev.bump_clk (id i : Nat) : (d.bump id i).clk = d.clk := by simp [Dev.bump]
@[simp] theorem Dev.bump_aud (id i : Nat) : (d.bump id i).aud = d.aud := by simp [Dev.bump]
@[simp] theorem Dev.bump_mor (id i : Nat) : (d.bump id i).mor = d.mor := by simp [Dev.bump]
@[simp] theorem Dev.bump_pair (id i : Nat) : (d.bump id i).pair = d.pair := by simp [Dev.bump]
@[simp] theorem Dev.bump_upd (id i : Nat) : (d.bump id i).upd = d.upd := by simp [Dev.bump]
@[simp] theorem Dev.bump_flt (id i : Nat) : (d.bump id i).flt = d.flt := by simp [Dev.bump]
@[simp] theorem Dev.bump_dirty (id i : Nat) : (d.bump id i).dirty = d.dirty := by simp [Dev.bump]
@[simp] theorem Dev.bump_out (id i : Nat) : (d.bump id i).out = d.out := by simp [Dev.bump]
@[simp] theorem Dev.bump_fresh (id i : Nat) : (d.bump id i).fresh = d.fresh := by simp [Dev.bump]

/-! ## `raise` -/

@[simp] theorem Dev.raise_variant (n : Now) (c i : Nat) (b : Bytes) : (d.raise n c i b).variant = d.variant := by simp [Dev.raise]
@[simp] theorem Dev.raise_work (n : Now) (c i : Nat) (b : Bytes) : (d.raise n c i b).work = d.work := by simp [Dev.raise]
@[simp] theorem Dev.raise_txn (n : Now) (c i : Nat) (b : Bytes) : (d.raise n c i b).txn = d.txn := by simp [Dev.raise]
@[simp] theorem Dev.raise_rx (n : Now) (c i : Nat) (b : Bytes) : (d.raise n c i b).rx = d.rx := by simp [Dev.raise]
@[simp] theorem Dev.raise_tx (n : Now) (c i : Nat) (b : Bytes) : (d.raise n c i b).tx = d.tx := by simp [Dev.raise]
@[simp] theorem Dev.raise_tg (n : Now) (c i : Nat) (b : Bytes) : (d.raise n c i b).tg = d.tg := by simp [Dev.raise]
@[simp] theorem Dev.raise_run (n : Now) (c i : Nat) (b : Bytes) : (d.raise n c i b).run = d.run := by simp [Dev.raise]
@[simp] theorem Dev.raise_cru (n : Now) (c i : Nat) (b : Bytes) : (d.raise n c i b).cru = d.cru := by simp [Dev.raise]
@[simp] theorem Dev.raise_otp (n : Now) (c i : Nat) (b : Bytes) : (d.raise n c i b).otp = d.otp := by simp [Dev.raise]
@[simp] theorem Dev.raise_key (n : Now) (c i : Nat) (b : Bytes) : (d.raise n c i b).key = d.key := by simp [Dev.raise]
@[simp] theorem Dev.raise_flash (n : Now) (c i : Nat) (b : Bytes) : (d.raise n c i b).flash = d.flash := by simp [Dev.raise]
@[simp] theorem Dev.raise_pwr (n : Now) (c i : Nat) (b : Bytes) : (d.raise n c i b).pwr = d.pwr := by simp [Dev.raise]
@[simp] theorem Dev.raise_spr (n : Now) (c i : Nat) (b : Bytes) : (d.raise n c i b).spr = d.spr := by simp [Dev.raise]
@[simp] theorem Dev.raise_moulds (n : Now) (c i : Nat) (b : Bytes) : (d.raise n c i b).moulds = d.moulds := by simp [Dev.raise]
@[simp] theorem Dev.raise_integ (n : Now) (c i : Nat) (b : Bytes) : (d.raise n c i b).integ = d.integ := by simp [Dev.raise]
@[simp] theorem Dev.raise_clk (n : Now) (c i : Nat) (b : Bytes) : (d.raise n c i b).clk = d.clk := by simp [Dev.raise]
@[simp] theorem Dev.raise_aud (n : Now) (c i : Nat) (b : Bytes) : (d.raise n c i b).aud = d.aud := by simp [Dev.raise]
@[simp] theorem Dev.raise_mor (n : Now) (c i : Nat) (b : Bytes) : (d.raise n c i b).mor = d.mor := by simp [Dev.raise]
@[simp] theorem Dev.raise_pair (n : Now) (c i : Nat) (b : Bytes) : (d.raise n c i b).pair = d.pair := by simp [Dev.raise]
@[simp] theorem Dev.raise_upd (n : Now) (c i : Nat) (b : Bytes) : (d.raise n c i b).upd = d.upd := by simp [Dev.raise]
@[simp] theorem Dev.raise_flt (n : Now) (c i : Nat) (b : Bytes) : (d.raise n c i b).flt = d.flt := by simp [Dev.raise]
@[simp] theorem Dev.raise_dirty (n : Now) (c i : Nat) (b : Bytes) : (d.raise n c i b).dirty = d.dirty := by simp [Dev.raise]
@[simp] theorem Dev.raise_out (n : Now) (c i : Nat) (b : Bytes) : (d.raise n c i b).out = d.out := by simp [Dev.raise]
@[simp] theorem Dev.raise_fresh (n : Now) (c i : Nat) (b : Bytes) : (d.raise n c i b).fresh = d.fresh := by simp [Dev.raise]

/-! ## `raiseTo` -/

@[simp] theorem Dev.raiseTo_variant (n : Now) (s c i : Nat) (b : Bytes) : (d.raiseTo n s c i b).variant = d.variant := by simp [Dev.raiseTo]
@[simp] theorem Dev.raiseTo_work (n : Now) (s c i : Nat) (b : Bytes) : (d.raiseTo n s c i b).work = d.work := by simp [Dev.raiseTo]
@[simp] theorem Dev.raiseTo_txn (n : Now) (s c i : Nat) (b : Bytes) : (d.raiseTo n s c i b).txn = d.txn := by simp [Dev.raiseTo]
@[simp] theorem Dev.raiseTo_rx (n : Now) (s c i : Nat) (b : Bytes) : (d.raiseTo n s c i b).rx = d.rx := by simp [Dev.raiseTo]
@[simp] theorem Dev.raiseTo_tx (n : Now) (s c i : Nat) (b : Bytes) : (d.raiseTo n s c i b).tx = d.tx := by simp [Dev.raiseTo]
@[simp] theorem Dev.raiseTo_tg (n : Now) (s c i : Nat) (b : Bytes) : (d.raiseTo n s c i b).tg = d.tg := by simp [Dev.raiseTo]
@[simp] theorem Dev.raiseTo_run (n : Now) (s c i : Nat) (b : Bytes) : (d.raiseTo n s c i b).run = d.run := by simp [Dev.raiseTo]
@[simp] theorem Dev.raiseTo_cru (n : Now) (s c i : Nat) (b : Bytes) : (d.raiseTo n s c i b).cru = d.cru := by simp [Dev.raiseTo]
@[simp] theorem Dev.raiseTo_otp (n : Now) (s c i : Nat) (b : Bytes) : (d.raiseTo n s c i b).otp = d.otp := by simp [Dev.raiseTo]
@[simp] theorem Dev.raiseTo_key (n : Now) (s c i : Nat) (b : Bytes) : (d.raiseTo n s c i b).key = d.key := by simp [Dev.raiseTo]
@[simp] theorem Dev.raiseTo_flash (n : Now) (s c i : Nat) (b : Bytes) : (d.raiseTo n s c i b).flash = d.flash := by simp [Dev.raiseTo]
@[simp] theorem Dev.raiseTo_pwr (n : Now) (s c i : Nat) (b : Bytes) : (d.raiseTo n s c i b).pwr = d.pwr := by simp [Dev.raiseTo]
@[simp] theorem Dev.raiseTo_spr (n : Now) (s c i : Nat) (b : Bytes) : (d.raiseTo n s c i b).spr = d.spr := by simp [Dev.raiseTo]
@[simp] theorem Dev.raiseTo_moulds (n : Now) (s c i : Nat) (b : Bytes) : (d.raiseTo n s c i b).moulds = d.moulds := by simp [Dev.raiseTo]
@[simp] theorem Dev.raiseTo_integ (n : Now) (s c i : Nat) (b : Bytes) : (d.raiseTo n s c i b).integ = d.integ := by simp [Dev.raiseTo]
@[simp] theorem Dev.raiseTo_clk (n : Now) (s c i : Nat) (b : Bytes) : (d.raiseTo n s c i b).clk = d.clk := by simp [Dev.raiseTo]
@[simp] theorem Dev.raiseTo_aud (n : Now) (s c i : Nat) (b : Bytes) : (d.raiseTo n s c i b).aud = d.aud := by simp [Dev.raiseTo]
@[simp] theorem Dev.raiseTo_mor (n : Now) (s c i : Nat) (b : Bytes) : (d.raiseTo n s c i b).mor = d.mor := by simp [Dev.raiseTo]
@[simp] theorem Dev.raiseTo_pair (n : Now) (s c i : Nat) (b : Bytes) : (d.raiseTo n s c i b).pair = d.pair := by simp [Dev.raiseTo]
@[simp] theorem Dev.raiseTo_upd (n : Now) (s c i : Nat) (b : Bytes) : (d.raiseTo n s c i b).upd = d.upd := by simp [Dev.raiseTo]
@[simp] theorem Dev.raiseTo_flt (n : Now) (s c i : Nat) (b : Bytes) : (d.raiseTo n s c i b).flt = d.flt := by simp [Dev.raiseTo]
@[simp] theorem Dev.raiseTo_dirty (n : Now) (s c i : Nat) (b : Bytes) : (d.raiseTo n s c i b).dirty = d.dirty := by simp [Dev.raiseTo]
@[simp] theorem Dev.raiseTo_out (n : Now) (s c i : Nat) (b : Bytes) : (d.raiseTo n s c i b).out = d.out := by simp [Dev.raiseTo]
@[simp] theorem Dev.raiseTo_fresh (n : Now) (s c i : Nat) (b : Bytes) : (d.raiseTo n s c i b).fresh = d.fresh := by simp [Dev.raiseTo]

/-! ## `askMode` -/

@[simp] theorem Dev.askMode_variant (c : Nat) : (d.askMode c).variant = d.variant := by unfold Dev.askMode; split <;> rfl
@[simp] theorem Dev.askMode_par (c : Nat) : (d.askMode c).par = d.par := by unfold Dev.askMode; split <;> rfl
@[simp] theorem Dev.askMode_work (c : Nat) : (d.askMode c).work = d.work := by unfold Dev.askMode; split <;> rfl
@[simp] theorem Dev.askMode_ctl (c : Nat) : (d.askMode c).ctl = d.ctl := by unfold Dev.askMode; split <;> rfl
@[simp] theorem Dev.askMode_txn (c : Nat) : (d.askMode c).txn = d.txn := by unfold Dev.askMode; split <;> rfl
@[simp] theorem Dev.askMode_rx (c : Nat) : (d.askMode c).rx = d.rx := by unfold Dev.askMode; split <;> rfl
@[simp] theorem Dev.askMode_tx (c : Nat) : (d.askMode c).tx = d.tx := by unfold Dev.askMode; split <;> rfl
@[simp] theorem Dev.askMode_tg (c : Nat) : (d.askMode c).tg = d.tg := by unfold Dev.askMode; split <;> rfl
@[simp] theorem Dev.askMode_run (c : Nat) : (d.askMode c).run = d.run := by unfold Dev.askMode; split <;> rfl
@[simp] theorem Dev.askMode_cru (c : Nat) : (d.askMode c).cru = d.cru := by unfold Dev.askMode; split <;> rfl
@[simp] theorem Dev.askMode_otp (c : Nat) : (d.askMode c).otp = d.otp := by unfold Dev.askMode; split <;> rfl
@[simp] theorem Dev.askMode_key (c : Nat) : (d.askMode c).key = d.key := by unfold Dev.askMode; split <;> rfl
@[simp] theorem Dev.askMode_flash (c : Nat) : (d.askMode c).flash = d.flash := by unfold Dev.askMode; split <;> rfl
@[simp] theorem Dev.askMode_spr (c : Nat) : (d.askMode c).spr = d.spr := by unfold Dev.askMode; split <;> rfl
@[simp] theorem Dev.askMode_moulds (c : Nat) : (d.askMode c).moulds = d.moulds := by unfold Dev.askMode; split <;> rfl
@[simp] theorem Dev.askMode_integ (c : Nat) : (d.askMode c).integ = d.integ := by unfold Dev.askMode; split <;> rfl
@[simp] theorem Dev.askMode_clk (c : Nat) : (d.askMode c).clk = d.clk := by unfold Dev.askMode; split <;> rfl
@[simp] theorem Dev.askMode_aud (c : Nat) : (d.askMode c).aud = d.aud := by unfold Dev.askMode; split <;> rfl
@[simp] theorem Dev.askMode_mor (c : Nat) : (d.askMode c).mor = d.mor := by unfold Dev.askMode; split <;> rfl
@[simp] theorem Dev.askMode_pair (c : Nat) : (d.askMode c).pair = d.pair := by unfold Dev.askMode; split <;> rfl
@[simp] theorem Dev.askMode_upd (c : Nat) : (d.askMode c).upd = d.upd := by unfold Dev.askMode; split <;> rfl
@[simp] theorem Dev.askMode_flt (c : Nat) : (d.askMode c).flt = d.flt := by unfold Dev.askMode; split <;> rfl
@[simp] theorem Dev.askMode_dirty (c : Nat) : (d.askMode c).dirty = d.dirty := by unfold Dev.askMode; split <;> rfl
@[simp] theorem Dev.askMode_out (c : Nat) : (d.askMode c).out = d.out := by unfold Dev.askMode; split <;> rfl
@[simp] theorem Dev.askMode_fresh (c : Nat) : (d.askMode c).fresh = d.fresh := by unfold Dev.askMode; split <;> rfl

/-! ## `send` -/

/-- A part that one output leaves alone is left alone by a list of them. -/
theorem Dev.say_foldl {α β : Type} (f : Dev → β) (h : ∀ d o, f (Dev.say d o) = f d) (g : Dev → α → Out) (l : List α) :
    ∀ d : Dev, f (l.foldl (fun d p => d.say (g d p)) d) = f d := by
  induction l with
  | nil => intro d; rfl
  | cons a l ih => intro d; exact (ih _).trans (h d _)

/-- What sending a message leaves alone: all but the outputs, the free values drawn and the pair's joining of a bus. -/
theorem Dev.send_keeps {β : Type} (f : Dev → β) (hs : ∀ d o, f (Dev.say d o) = f d) (hp : ∀ d k, f { d with pair := { d.pair with joins := k } } = f d)
    (hf : ∀ d k, f { d with fresh := k } = f d) (r : Route) (j : Jorek) : f (d.send r j) = f d := by
  have udp : ∀ (d : Dev) (i a p : Nat) (b : Bytes), f (d.sendUdp i a p b) = f d := by
    intro d i a p b
    simp only [Dev.sendUdp, Dev.draw]
    repeat' split
    all_goals first | rfl | exact hs d _ | exact (Dev.say_foldl f hs _ _ _).trans (hf d _)
  have can : ∀ (d : Dev) (c m : Nat) (b : Bytes), f (d.sendCan c m b) = f d := by
    intro d c m b
    simp only [Dev.sendCan]
    split
    · refine (Dev.say_foldl f hs _ _ _).trans ?_
      split
      · exact (hs _ _).trans (hp d _)
      · rfl
    · rfl
  simp only [Dev.send, Dev.frames]
  repeat' split
  · rfl
  · exact (udp _ _ _ _ _).trans (hs d _)
  · exact (can _ _ _ _).trans (hs d _)
  · exact hs d _

@[simp] theorem Dev.send_variant (r : Route) (j : Jorek) : (d.send r j).variant = d.variant := by exact Dev.send_keeps d (fun d => d.variant) (fun _ _ => rfl) (fun _ _ => rfl) (fun _ _ => rfl) r j
@[simp] theorem Dev.send_par (r : Route) (j : Jorek) : (d.send r j).par = d.par := by exact Dev.send_keeps d (fun d => d.par) (fun _ _ => rfl) (fun _ _ => rfl) (fun _ _ => rfl) r j
@[simp] theorem Dev.send_work (r : Route) (j : Jorek) : (d.send r j).work = d.work := by exact Dev.send_keeps d (fun d => d.work) (fun _ _ => rfl) (fun _ _ => rfl) (fun _ _ => rfl) r j
@[simp] theorem Dev.send_ctl (r : Route) (j : Jorek) : (d.send r j).ctl = d.ctl := by exact Dev.send_keeps d (fun d => d.ctl) (fun _ _ => rfl) (fun _ _ => rfl) (fun _ _ => rfl) r j
@[simp] theorem Dev.send_txn (r : Route) (j : Jorek) : (d.send r j).txn = d.txn := by exact Dev.send_keeps d (fun d => d.txn) (fun _ _ => rfl) (fun _ _ => rfl) (fun _ _ => rfl) r j
@[simp] theorem Dev.send_rx (r : Route) (j : Jorek) : (d.send r j).rx = d.rx := by exact Dev.send_keeps d (fun d => d.rx) (fun _ _ => rfl) (fun _ _ => rfl) (fun _ _ => rfl) r j
@[simp] theorem Dev.send_tx (r : Route) (j : Jorek) : (d.send r j).tx = d.tx := by exact Dev.send_keeps d (fun d => d.tx) (fun _ _ => rfl) (fun _ _ => rfl) (fun _ _ => rfl) r j
@[simp] theorem Dev.send_tg (r : Route) (j : Jorek) : (d.send r j).tg = d.tg := by exact Dev.send_keeps d (fun d => d.tg) (fun _ _ => rfl) (fun _ _ => rfl) (fun _ _ => rfl) r j
@[simp] theorem Dev.send_run (r : Route) (j : Jorek) : (d.send r j).run = d.run := by exact Dev.send_keeps d (fun d => d.run) (fun _ _ => rfl) (fun _ _ => rfl) (fun _ _ => rfl) r j
@[simp] theorem Dev.send_cru (r : Route) (j : Jorek) : (d.send r j).cru = d.cru := by exact Dev.send_keeps d (fun d => d.cru) (fun _ _ => rfl) (fun _ _ => rfl) (fun _ _ => rfl) r j
@[simp] theorem Dev.send_otp (r : Route) (j : Jorek) : (d.send r j).otp = d.otp := by exact Dev.send_keeps d (fun d => d.otp) (fun _ _ => rfl) (fun _ _ => rfl) (fun _ _ => rfl) r j
@[simp] theorem Dev.send_key (r : Route) (j : Jorek) : (d.send r j).key = d.key := by exact Dev.send_keeps d (fun d => d.key) (fun _ _ => rfl) (fun _ _ => rfl) (fun _ _ => rfl) r j
@[simp] theorem Dev.send_flash (r : Route) (j : Jorek) : (d.send r j).flash = d.flash := by exact Dev.send_keeps d (fun d => d.flash) (fun _ _ => rfl) (fun _ _ => rfl) (fun _ _ => rfl) r j
@[simp] theorem Dev.send_pwr (r : Route) (j : Jorek) : (d.send r j).pwr = d.pwr := by exact Dev.send_keeps d (fun d => d.pwr) (fun _ _ => rfl) (fun _ _ => rfl) (fun _ _ => rfl) r j
@[simp] theorem Dev.send_spr (r : Route) (j : Jorek) : (d.send r j).spr = d.spr := by exact Dev.send_keeps d (fun d => d.spr) (fun _ _ => rfl) (fun _ _ => rfl) (fun _ _ => rfl) r j
@[simp] theorem Dev.send_moulds (r : Route) (j : Jorek) : (d.send r j).moulds = d.moulds := by exact Dev.send_keeps d (fun d => d.moulds) (fun _ _ => rfl) (fun _ _ => rfl) (fun _ _ => rfl) r j
@[simp] theorem Dev.send_integ (r : Route) (j : Jorek) : (d.send r j).integ = d.integ := by exact Dev.send_keeps d (fun d => d.integ) (fun _ _ => rfl) (fun _ _ => rfl) (fun _ _ => rfl) r j
@[simp] theorem Dev.send_clk (r : Route) (j : Jorek) : (d.send r j).clk = d.clk := by exact Dev.send_keeps d (fun d => d.clk) (fun _ _ => rfl) (fun _ _ => rfl) (fun _ _ => rfl) r j
@[simp] theorem Dev.send_aud (r : Route) (j : Jorek) : (d.send r j).aud = d.aud := by exact Dev.send_keeps d (fun d => d.aud) (fun _ _ => rfl) (fun _ _ => rfl) (fun _ _ => rfl) r j
@[simp] theorem Dev.send_mor (r : Route) (j : Jorek) : (d.send r j).mor = d.mor := by exact Dev.send_keeps d (fun d => d.mor) (fun _ _ => rfl) (fun _ _ => rfl) (fun _ _ => rfl) r j
@[simp] theorem Dev.send_upd (r : Route) (j : Jorek) : (d.send r j).upd = d.upd := by exact Dev.send_keeps d (fun d => d.upd) (fun _ _ => rfl) (fun _ _ => rfl) (fun _ _ => rfl) r j
@[simp] theorem Dev.send_flt (r : Route) (j : Jorek) : (d.send r j).flt = d.flt := by exact Dev.send_keeps d (fun d => d.flt) (fun _ _ => rfl) (fun _ _ => rfl) (fun _ _ => rfl) r j
@[simp] theorem Dev.send_dirty (r : Route) (j : Jorek) : (d.send r j).dirty = d.dirty := by exact Dev.send_keeps d (fun d => d.dirty) (fun _ _ => rfl) (fun _ _ => rfl) (fun _ _ => rfl) r j

/-! ## `sendIn` -/

@[simp] theorem Dev.sendIn_variant (s : Nat) (r : Route) (t f : Nat) (p : Bytes) : (d.sendIn s r t f p).variant = d.variant := by simp [Dev.sendIn]
@[simp] theorem Dev.sendIn_par (s : Nat) (r : Route) (t f : Nat) (p : Bytes) : (d.sendIn s r t f p).par = d.par := by simp [Dev.sendIn]
@[simp] theorem Dev.sendIn_work (s : Nat) (r : Route) (t f : Nat) (p : Bytes) : (d.sendIn s r t f p).work = d.work := by simp [Dev.sendIn]
@[simp] theorem Dev.sendIn_txn (s : Nat) (r : Route) (t f : Nat) (p : Bytes) : (d.sendIn s r t f p).txn = d.txn := by simp [Dev.sendIn]
@[simp] theorem Dev.sendIn_rx (s : Nat) (r : Route) (t f : Nat) (p : Bytes) : (d.sendIn s r t f p).rx = d.rx := by simp [Dev.sendIn]
@[simp] theorem Dev.sendIn_tx (s : Nat) (r : Route) (t f : Nat) (p : Bytes) : (d.sendIn s r t f p).tx = d.tx := by simp [Dev.sendIn]
@[simp] theorem Dev.sendIn_tg (s : Nat) (r : Route) (t f : Nat) (p : Bytes) : (d.sendIn s r t f p).tg = d.tg := by simp [Dev.sendIn]
@[simp] theorem Dev.sendIn_run (s : Nat) (r : Route) (t f : Nat) (p : Bytes) : (d.sendIn s r t f p).run = d.run := by simp [Dev.sendIn]
@[simp] theorem Dev.sendIn_cru (s : Nat) (r : Route) (t f : Nat) (p : Bytes) : (d.sendIn s r t f p).cru = d.cru := by simp [Dev.sendIn]
@[simp] theorem Dev.sendIn_otp (s : Nat) (r : Route) (t f : Nat) (p : Bytes) : (d.sendIn s r t f p).otp = d.otp := by simp [Dev.sendIn]
@[simp] theorem Dev.sendIn_key (s : Nat) (r : Route) (t f : Nat) (p : Bytes) : (d.sendIn s r t f p).key = d.key := by simp [Dev.sendIn]
@[simp] theorem Dev.sendIn_flash (s : Nat) (r : Route) (t f : Nat) (p : Bytes) : (d.sendIn s r t f p).flash = d.flash := by simp [Dev.sendIn]
@[simp] theorem Dev.sendIn_pwr (s : Nat) (r : Route) (t f : Nat) (p : Bytes) : (d.sendIn s r t f p).pwr = d.pwr := by simp [Dev.sendIn]
@[simp] theorem Dev.sendIn_spr (s : Nat) (r : Route) (t f : Nat) (p : Bytes) : (d.sendIn s r t f p).spr = d.spr := by simp [Dev.sendIn]
@[simp] theorem Dev.sendIn_moulds (s : Nat) (r : Route) (t f : Nat) (p : Bytes) : (d.sendIn s r t f p).moulds = d.moulds := by simp [Dev.sendIn]
@[simp] theorem Dev.sendIn_integ (s : Nat) (r : Route) (t f : Nat) (p : Bytes) : (d.sendIn s r t f p).integ = d.integ := by simp [Dev.sendIn]
@[simp] theorem Dev.sendIn_clk (s : Nat) (r : Route) (t f : Nat) (p : Bytes) : (d.sendIn s r t f p).clk = d.clk := by simp [Dev.sendIn]
@[simp] theorem Dev.sendIn_aud (s : Nat) (r : Route) (t f : Nat) (p : Bytes) : (d.sendIn s r t f p).aud = d.aud := by simp [Dev.sendIn]
@[simp] theorem Dev.sendIn_mor (s : Nat) (r : Route) (t f : Nat) (p : Bytes) : (d.sendIn s r t f p).mor = d.mor := by simp [Dev.sendIn]
@[simp] theorem Dev.sendIn_upd (s : Nat) (r : Route) (t f : Nat) (p : Bytes) : (d.sendIn s r t f p).upd = d.upd := by simp [Dev.sendIn]
@[simp] theorem Dev.sendIn_flt (s : Nat) (r : Route) (t f : Nat) (p : Bytes) : (d.sendIn s r t f p).flt = d.flt := by simp [Dev.sendIn]
@[simp] theorem Dev.sendIn_dirty (s : Nat) (r : Route) (t f : Nat) (p : Bytes) : (d.sendIn s r t f p).dirty = d.dirty := by simp [Dev.sendIn]

/-! ## `replyUntagged` -/

@[simp] theorem Dev.replyUntagged_variant (r : Route) (t s q u : Nat) (p : Bytes) : (d.replyUntagged r t s q u p).variant = d.variant := by simp [Dev.replyUntagged]
@[simp] theorem Dev.replyUntagged_par (r : Route) (t s q u : Nat) (p : Bytes) : (d.replyUntagged r t s q u p).par = d.par := by simp [Dev.replyUntagged]
@[simp] theorem Dev.replyUntagged_work (r : Route) (t s q u : Nat) (p : Bytes) : (d.replyUntagged r t s q u p).work = d.work := by simp [Dev.replyUntagged]
@[simp] theorem Dev.replyUntagged_ctl (r : Route) (t s q u : Nat) (p : Bytes) : (d.replyUntagged r t s q u p).ctl = d.ctl := by simp [Dev.replyUntagged]
@[simp] theorem Dev.replyUntagged_txn (r : Route) (t s q u : Nat) (p : Bytes) : (d.replyUntagged r t s q u p).txn = d.txn := by simp [Dev.replyUntagged]
@[simp] theorem Dev.replyUntagged_rx (r : Route) (t s q u : Nat) (p : Bytes) : (d.replyUntagged r t s q u p).rx = d.rx := by simp [Dev.replyUntagged]
@[simp] theorem Dev.replyUntagged_tx (r : Route) (t s q u : Nat) (p : Bytes) : (d.replyUntagged r t s q u p).tx = d.tx := by simp [Dev.replyUntagged]
@[simp] theorem Dev.replyUntagged_tg (r : Route) (t s q u : Nat) (p : Bytes) : (d.replyUntagged r t s q u p).tg = d.tg := by simp [Dev.replyUntagged]
@[simp] theorem Dev.replyUntagged_run (r : Route) (t s q u : Nat) (p : Bytes) : (d.replyUntagged r t s q u p).run = d.run := by simp [Dev.replyUntagged]
@[simp] theorem Dev.replyUntagged_cru (r : Route) (t s q u : Nat) (p : Bytes) : (d.replyUntagged r t s q u p).cru = d.cru := by simp [Dev.replyUntagged]
@[simp] theorem Dev.replyUntagged_otp (r : Route) (t s q u : Nat) (p : Bytes) : (d.replyUntagged r t s q u p).otp = d.otp := by simp [Dev.replyUntagged]
@[simp] theorem Dev.replyUntagged_key (r : Route) (t s q u : Nat) (p : Bytes) : (d.replyUntagged r t s q u p).key = d.key := by simp [Dev.replyUntagged]
@[simp] theorem Dev.replyUntagged_flash (r : Route) (t s q u : Nat) (p : Bytes) : (d.replyUntagged r t s q u p).flash = d.flash := by simp [Dev.replyUntagged]
@[simp] theorem Dev.replyUntagged_pwr (r : Route) (t s q u : Nat) (p : Bytes) : (d.replyUntagged r t s q u p).pwr = d.pwr := by simp [Dev.replyUntagged]
@[simp] theorem Dev.replyUntagged_spr (r : Route) (t s q u : Nat) (p : Bytes) : (d.replyUntagged r t s q u p).spr = d.spr := by simp [Dev.replyUntagged]
@[simp] theorem Dev.replyUntagged_moulds (r : Route) (t s q u : Nat) (p : Bytes) : (d.replyUntagged r t s q u p).moulds = d.moulds := by simp [Dev.replyUntagged]
@[simp] theorem Dev.replyUntagged_integ (r : Route) (t s q u : Nat) (p : Bytes) : (d.replyUntagged r t s q u p).integ = d.integ := by simp [Dev.replyUntagged]
@[simp] theorem Dev.replyUntagged_clk (r : Route) (t s q u : Nat) (p : Bytes) : (d.replyUntagged r t s q u p).clk = d.clk := by simp [Dev.replyUntagged]
@[simp] theorem Dev.replyUntagged_aud (r : Route) (t s q u : Nat) (p : Bytes) : (d.replyUntagged r t s q u p).aud = d.aud := by simp [Dev.replyUntagged]
@[simp] theorem Dev.replyUntagged_mor (r : Route) (t s q u : Nat) (p : Bytes) : (d.replyUntagged r t s q u p).mor = d.mor := by simp [Dev.replyUntagged]
@[simp] theorem Dev.replyUntagged_upd (r : Route) (t s q u : Nat) (p : Bytes) : (d.replyUntagged r t s q u p).upd = d.upd := by simp [Dev.replyUntagged]
@[simp] theorem Dev.replyUntagged_flt (r : Route) (t s q u : Nat) (p : Bytes) : (d.replyUntagged r t s q u p).flt = d.flt := by simp [Dev.replyUntagged]
@[simp] theorem Dev.replyUntagged_dirty (r : Route) (t s q u : Nat) (p : Bytes) : (d.replyUntagged r t s q u p).dirty = d.dirty := by simp [Dev.replyUntagged]

/-! ## `replyTo` -/

@[simp] theorem Dev.replyTo_variant (i s : Nat) (r : Route) (t q u : Nat) (p : Bytes) : (d.replyTo i s r t q u p).variant = d.variant := by simp only [Dev.replyTo]; split <;> simp
@[simp] theorem Dev.replyTo_par (i s : Nat) (r : Route) (t q u : Nat) (p : Bytes) : (d.replyTo i s r t q u p).par = d.par := by simp only [Dev.replyTo]; split <;> simp
@[simp] theorem Dev.replyTo_work (i s : Nat) (r : Route) (t q u : Nat) (p : Bytes) : (d.replyTo i s r t q u p).work = d.work := by simp only [Dev.replyTo]; split <;> simp
@[simp] theorem Dev.replyTo_txn (i s : Nat) (r : Route) (t q u : Nat) (p : Bytes) : (d.replyTo i s r t q u p).txn = d.txn := by simp only [Dev.replyTo]; split <;> simp
@[simp] theorem Dev.replyTo_rx (i s : Nat) (r : Route) (t q u : Nat) (p : Bytes) : (d.replyTo i s r t q u p).rx = d.rx := by simp only [Dev.replyTo]; split <;> simp
@[simp] theorem Dev.replyTo_tx (i s : Nat) (r : Route) (t q u : Nat) (p : Bytes) : (d.replyTo i s r t q u p).tx = d.tx := by simp only [Dev.replyTo]; split <;> simp
@[simp] theorem Dev.replyTo_tg (i s : Nat) (r : Route) (t q u : Nat) (p : Bytes) : (d.replyTo i s r t q u p).tg = d.tg := by simp only [Dev.replyTo]; split <;> simp
@[simp] theorem Dev.replyTo_run (i s : Nat) (r : Route) (t q u : Nat) (p : Bytes) : (d.replyTo i s r t q u p).run = d.run := by simp only [Dev.replyTo]; split <;> simp
@[simp] theorem Dev.replyTo_cru (i s : Nat) (r : Route) (t q u : Nat) (p : Bytes) : (d.replyTo i s r t q u p).cru = d.cru := by simp only [Dev.replyTo]; split <;> simp
@[simp] theorem Dev.replyTo_otp (i s : Nat) (r : Route) (t q u : Nat) (p : Bytes) : (d.replyTo i s r t q u p).otp = d.otp := by simp only [Dev.replyTo]; split <;> simp
@[simp] theorem Dev.replyTo_key (i s : Nat) (r : Route) (t q u : Nat) (p : Bytes) : (d.replyTo i s r t q u p).key = d.key := by simp only [Dev.replyTo]; split <;> simp
@[simp] theorem Dev.replyTo_flash (i s : Nat) (r : Route) (t q u : Nat) (p : Bytes) : (d.replyTo i s r t q u p).flash = d.flash := by simp only [Dev.replyTo]; split <;> simp
@[simp] theorem Dev.replyTo_pwr (i s : Nat) (r : Route) (t q u : Nat) (p : Bytes) : (d.replyTo i s r t q u p).pwr = d.pwr := by simp only [Dev.replyTo]; split <;> simp
@[simp] theorem Dev.replyTo_spr (i s : Nat) (r : Route) (t q u : Nat) (p : Bytes) : (d.replyTo i s r t q u p).spr = d.spr := by simp only [Dev.replyTo]; split <;> simp
@[simp] theorem Dev.replyTo_moulds (i s : Nat) (r : Route) (t q u : Nat) (p : Bytes) : (d.replyTo i s r t q u p).moulds = d.moulds := by simp only [Dev.replyTo]; split <;> simp
@[simp] theorem Dev.replyTo_integ (i s : Nat) (r : Route) (t q u : Nat) (p : Bytes) : (d.replyTo i s r t q u p).integ = d.integ := by simp only [Dev.replyTo]; split <;> simp
@[simp] theorem Dev.replyTo_clk (i s : Nat) (r : Route) (t q u : Nat) (p : Bytes) : (d.replyTo i s r t q u p).clk = d.clk := by simp only [Dev.replyTo]; split <;> simp
@[simp] theorem Dev.replyTo_aud (i s : Nat) (r : Route) (t q u : Nat) (p : Bytes) : (d.replyTo i s r t q u p).aud = d.aud := by simp only [Dev.replyTo]; split <;> simp
@[simp] theorem Dev.replyTo_mor (i s : Nat) (r : Route) (t q u : Nat) (p : Bytes) : (d.replyTo i s r t q u p).mor = d.mor := by simp only [Dev.replyTo]; split <;> simp
@[simp] theorem Dev.replyTo_upd (i s : Nat) (r : Route) (t q u : Nat) (p : Bytes) : (d.replyTo i s r t q u p).upd = d.upd := by simp only [Dev.replyTo]; split <;> simp
@[simp] theorem Dev.replyTo_flt (i s : Nat) (r : Route) (t q u : Nat) (p : Bytes) : (d.replyTo i s r t q u p).flt = d.flt := by simp only [Dev.replyTo]; split <;> simp
@[simp] theorem Dev.replyTo_dirty (i s : Nat) (r : Route) (t q u : Nat) (p : Bytes) : (d.replyTo i s r t q u p).dirty = d.dirty := by simp only [Dev.replyTo]; split <;> simp

/-! ## `reply` -/

@[simp] theorem Dev.reply_variant (m : Msg) (u : Nat) (p : Bytes) : (d.reply m u p).variant = d.variant := by simp [Dev.reply]
@[simp] theorem Dev.reply_par (m : Msg) (u : Nat) (p : Bytes) : (d.reply m u p).par = d.par := by simp [Dev.reply]
@[simp] theorem Dev.reply_work (m : Msg) (u : Nat) (p : Bytes) : (d.reply m u p).work = d.work := by simp [Dev.reply]
@[simp] theorem Dev.reply_txn (m : Msg) (u : Nat) (p : Bytes) : (d.reply m u p).txn = d.txn := by simp [Dev.reply]
@[simp] theorem Dev.reply_rx (m : Msg) (u : Nat) (p : Bytes) : (d.reply m u p).rx = d.rx := by simp [Dev.reply]
@[simp] theorem Dev.reply_tx (m : Msg) (u : Nat) (p : Bytes) : (d.reply m u p).tx = d.tx := by simp [Dev.reply]
@[simp] theorem Dev.reply_tg (m : Msg) (u : Nat) (p : Bytes) : (d.reply m u p).tg = d.tg := by simp [Dev.reply]
@[simp] theorem Dev.reply_run (m : Msg) (u : Nat) (p : Bytes) : (d.reply m u p).run = d.run := by simp [Dev.reply]
@[simp] theorem Dev.reply_cru (m : Msg) (u : Nat) (p : Bytes) : (d.reply m u p).cru = d.cru := by simp [Dev.reply]
@[simp] theorem Dev.reply_otp (m : Msg) (u : Nat) (p : Bytes) : (d.reply m u p).otp = d.otp := by simp [Dev.reply]
@[simp] theorem Dev.reply_key (m : Msg) (u : Nat) (p : Bytes) : (d.reply m u p).key = d.key := by simp [Dev.reply]
@[simp] theorem Dev.reply_flash (m : Msg) (u : Nat) (p : Bytes) : (d.reply m u p).flash = d.flash := by simp [Dev.reply]
@[simp] theorem Dev.reply_pwr (m : Msg) (u : Nat) (p : Bytes) : (d.reply m u p).pwr = d.pwr := by simp [Dev.reply]
@[simp] theorem Dev.reply_spr (m : Msg) (u : Nat) (p : Bytes) : (d.reply m u p).spr = d.spr := by simp [Dev.reply]
@[simp] theorem Dev.reply_moulds (m : Msg) (u : Nat) (p : Bytes) : (d.reply m u p).moulds = d.moulds := by simp [Dev.reply]
@[simp] theorem Dev.reply_integ (m : Msg) (u : Nat) (p : Bytes) : (d.reply m u p).integ = d.integ := by simp [Dev.reply]
@[simp] theorem Dev.reply_clk (m : Msg) (u : Nat) (p : Bytes) : (d.reply m u p).clk = d.clk := by simp [Dev.reply]
@[simp] theorem Dev.reply_aud (m : Msg) (u : Nat) (p : Bytes) : (d.reply m u p).aud = d.aud := by simp [Dev.reply]
@[simp] theorem Dev.reply_mor (m : Msg) (u : Nat) (p : Bytes) : (d.reply m u p).mor = d.mor := by simp [Dev.reply]
@[simp] theorem Dev.reply_upd (m : Msg) (u : Nat) (p : Bytes) : (d.reply m u p).upd = d.upd := by simp [Dev.reply]
@[simp] theorem Dev.reply_flt (m : Msg) (u : Nat) (p : Bytes) : (d.reply m u p).flt = d.flt := by simp [Dev.reply]
@[simp] theorem Dev.reply_dirty (m : Msg) (u : Nat) (p : Bytes) : (d.reply m u p).dirty = d.dirty := by simp [Dev.reply]

/-! ## `reject` -/

@[simp] theorem Dev.reject_variant (m : Msg) (u : Nat) : (d.reject m u).variant = d.variant := by simp [Dev.reject]
@[simp] theorem Dev.reject_par (m : Msg) (u : Nat) : (d.reject m u).par = d.par := by simp [Dev.reject]
@[simp] theorem Dev.reject_work (m : Msg) (u : Nat) : (d.reject m u).work = d.work := by simp [Dev.reject]
@[simp] theorem Dev.reject_txn (m : Msg) (u : Nat) : (d.reject m u).txn = d.txn := by simp [Dev.reject]
@[simp] theorem Dev.reject_rx (m : Msg) (u : Nat) : (d.reject m u).rx = d.rx := by simp [Dev.reject]
@[simp] theorem Dev.reject_tx (m : Msg) (u : Nat) : (d.reject m u).tx = d.tx := by simp [Dev.reject]
@[simp] theorem Dev.reject_tg (m : Msg) (u : Nat) : (d.reject m u).tg = d.tg := by simp [Dev.reject]
@[simp] theorem Dev.reject_run (m : Msg) (u : Nat) : (d.reject m u).run = d.run := by simp [Dev.reject]
@[simp] theorem Dev.reject_cru (m : Msg) (u : Nat) : (d.reject m u).cru = d.cru := by simp [Dev.reject]
@[simp] theorem Dev.reject_otp (m : Msg) (u : Nat) : (d.reject m u).otp = d.otp := by simp [Dev.reject]
@[simp] theorem Dev.reject_key (m : Msg) (u : Nat) : (d.reject m u).key = d.key := by simp [Dev.reject]
@[simp] theorem Dev.reject_flash (m : Msg) (u : Nat) : (d.reject m u).flash = d.flash := by simp [Dev.reject]
@[simp] theorem Dev.reject_pwr (m : Msg) (u : Nat) : (d.reject m u).pwr = d.pwr := by simp [Dev.reject]
@[simp] theorem Dev.reject_spr (m : Msg) (u : Nat) : (d.reject m u).spr = d.spr := by simp [Dev.reject]
@[simp] theorem Dev.reject_moulds (m : Msg) (u : Nat) : (d.reject m u).moulds = d.moulds := by simp [Dev.reject]
@[simp] theorem Dev.reject_integ (m : Msg) (u : Nat) : (d.reject m u).integ = d.integ := by simp [Dev.reject]
@[simp] theorem Dev.reject_clk (m : Msg) (u : Nat) : (d.reject m u).clk = d.clk := by simp [Dev.reject]
@[simp] theorem Dev.reject_aud (m : Msg) (u : Nat) : (d.reject m u).aud = d.aud := by simp [Dev.reject]
@[simp] theorem Dev.reject_mor (m : Msg) (u : Nat) : (d.reject m u).mor = d.mor := by simp [Dev.reject]
@[simp] theorem Dev.reject_upd (m : Msg) (u : Nat) : (d.reject m u).upd = d.upd := by simp [Dev.reject]
@[simp] theorem Dev.reject_flt (m : Msg) (u : Nat) : (d.reject m u).flt = d.flt := by simp [Dev.reject]
@[simp] theorem Dev.reject_dirty (m : Msg) (u : Nat) : (d.reject m u).dirty = d.dirty := by simp [Dev.reject]

/-! ## Parameter values that updates of read-only values leave alone -/

@[simp] theorem Dev.setS_par_committed (id i : Nat) (v : PVal) : (d.setS id i v).par.committed = d.par.committed := rfl
@[simp] theorem Dev.setS_par_live (id i : Nat) (v : PVal) : (d.setS id i v).par.live = d.par.live := rfl
@[simp] theorem Dev.setS_par_overlay (id i : Nat) (v : PVal) : (d.setS id i v).par.overlay = d.par.overlay := rfl
@[simp] theorem Dev.setS_par_pattern (id i : Nat) (v : PVal) : (d.setS id i v).par.pattern = d.par.pattern := rfl
@[simp] theorem Dev.setS_par_bootPending (id i : Nat) (v : PVal) : (d.setS id i v).par.bootPending = d.par.bootPending := rfl
@[simp] theorem Dev.setS_cn (id i : Nat) (v : PVal) (x y : Nat) : (d.setS id i v).cn x y = d.cn x y := by simp [Dev.cn]
@[simp] theorem Dev.setS_cb (id i : Nat) (v : PVal) (x y : Nat) : (d.setS id i v).cb x y = d.cb x y := by simp [Dev.cb]
@[simp] theorem Dev.setS_ln (id i : Nat) (v : PVal) (x y : Nat) : (d.setS id i v).ln x y = d.ln x y := by simp [Dev.ln]
@[simp] theorem Dev.setS_lb (id i : Nat) (v : PVal) (x y : Nat) : (d.setS id i v).lb x y = d.lb x y := by simp [Dev.lb]

@[simp] theorem Dev.setSN_par_committed (id i v : Nat) : (d.setSN id i v).par.committed = d.par.committed := rfl
@[simp] theorem Dev.setSN_par_live (id i v : Nat) : (d.setSN id i v).par.live = d.par.live := rfl
@[simp] theorem Dev.setSN_par_overlay (id i v : Nat) : (d.setSN id i v).par.overlay = d.par.overlay := rfl
@[simp] theorem Dev.setSN_par_pattern (id i v : Nat) : (d.setSN id i v).par.pattern = d.par.pattern := rfl
@[simp] theorem Dev.setSN_par_bootPending (id i v : Nat) : (d.setSN id i v).par.bootPending = d.par.bootPending := rfl
@[simp] theorem Dev.setSN_cn (id i v : Nat) (x y : Nat) : (d.setSN id i v).cn x y = d.cn x y := by simp [Dev.cn]
@[simp] theorem Dev.setSN_cb (id i v : Nat) (x y : Nat) : (d.setSN id i v).cb x y = d.cb x y := by simp [Dev.cb]
@[simp] theorem Dev.setSN_ln (id i v : Nat) (x y : Nat) : (d.setSN id i v).ln x y = d.ln x y := by simp [Dev.ln]
@[simp] theorem Dev.setSN_lb (id i v : Nat) (x y : Nat) : (d.setSN id i v).lb x y = d.lb x y := by simp [Dev.lb]

@[simp] theorem Dev.bumpField_par_committed (id i lo w k : Nat) : (d.bumpField id i lo w k).par.committed = d.par.committed := rfl
@[simp] theorem Dev.bumpField_par_live (id i lo w k : Nat) : (d.bumpField id i lo w k).par.live = d.par.live := rfl
@[simp] theorem Dev.bumpField_par_overlay (id i lo w k : Nat) : (d.bumpField id i lo w k).par.overlay = d.par.overlay := rfl
@[simp] theorem Dev.bumpField_par_pattern (id i lo w k : Nat) : (d.bumpField id i lo w k).par.pattern = d.par.pattern := rfl
@[simp] theorem Dev.bumpField_par_bootPending (id i lo w k : Nat) : (d.bumpField id i lo w k).par.bootPending = d.par.bootPending := rfl
@[simp] theorem Dev.bumpField_cn (id i lo w k : Nat) (x y : Nat) : (d.bumpField id i lo w k).cn x y = d.cn x y := by simp [Dev.cn]
@[simp] theorem Dev.bumpField_cb (id i lo w k : Nat) (x y : Nat) : (d.bumpField id i lo w k).cb x y = d.cb x y := by simp [Dev.cb]
@[simp] theorem Dev.bumpField_ln (id i lo w k : Nat) (x y : Nat) : (d.bumpField id i lo w k).ln x y = d.ln x y := by simp [Dev.ln]
@[simp] theorem Dev.bumpField_lb (id i lo w k : Nat) (x y : Nat) : (d.bumpField id i lo w k).lb x y = d.lb x y := by simp [Dev.lb]

@[simp] theorem Dev.putField_par_committed (id i lo w k : Nat) : (d.putField id i lo w k).par.committed = d.par.committed := rfl
@[simp] theorem Dev.putField_par_live (id i lo w k : Nat) : (d.putField id i lo w k).par.live = d.par.live := rfl
@[simp] theorem Dev.putField_par_overlay (id i lo w k : Nat) : (d.putField id i lo w k).par.overlay = d.par.overlay := rfl
@[simp] theorem Dev.putField_par_pattern (id i lo w k : Nat) : (d.putField id i lo w k).par.pattern = d.par.pattern := rfl
@[simp] theorem Dev.putField_par_bootPending (id i lo w k : Nat) : (d.putField id i lo w k).par.bootPending = d.par.bootPending := rfl
@[simp] theorem Dev.putField_cn (id i lo w k : Nat) (x y : Nat) : (d.putField id i lo w k).cn x y = d.cn x y := by simp [Dev.cn]
@[simp] theorem Dev.putField_cb (id i lo w k : Nat) (x y : Nat) : (d.putField id i lo w k).cb x y = d.cb x y := by simp [Dev.cb]
@[simp] theorem Dev.putField_ln (id i lo w k : Nat) (x y : Nat) : (d.putField id i lo w k).ln x y = d.ln x y := by simp [Dev.ln]
@[simp] theorem Dev.putField_lb (id i lo w k : Nat) (x y : Nat) : (d.putField id i lo w k).lb x y = d.lb x y := by simp [Dev.lb]

@[simp] theorem Dev.degrade_par_committed (b : Nat) : (d.degrade b).par.committed = d.par.committed := rfl
@[simp] theorem Dev.degrade_par_live (b : Nat) : (d.degrade b).par.live = d.par.live := rfl
@[simp] theorem Dev.degrade_par_overlay (b : Nat) : (d.degrade b).par.overlay = d.par.overlay := rfl
@[simp] theorem Dev.degrade_par_pattern (b : Nat) : (d.degrade b).par.pattern = d.par.pattern := rfl
@[simp] theorem Dev.degrade_par_bootPending (b : Nat) : (d.degrade b).par.bootPending = d.par.bootPending := rfl
@[simp] theorem Dev.degrade_cn (b : Nat) (x y : Nat) : (d.degrade b).cn x y = d.cn x y := by simp [Dev.cn]
@[simp] theorem Dev.degrade_cb (b : Nat) (x y : Nat) : (d.degrade b).cb x y = d.cb x y := by simp [Dev.cb]
@[simp] theorem Dev.degrade_ln (b : Nat) (x y : Nat) : (d.degrade b).ln x y = d.ln x y := by simp [Dev.ln]
@[simp] theorem Dev.degrade_lb (b : Nat) (x y : Nat) : (d.degrade b).lb x y = d.lb x y := by simp [Dev.lb]

@[simp] theorem Dev.undegrade_par_committed (b : Nat) : (d.undegrade b).par.committed = d.par.committed := rfl
@[simp] theorem Dev.undegrade_par_live (b : Nat) : (d.undegrade b).par.live = d.par.live := rfl
@[simp] theorem Dev.undegrade_par_overlay (b : Nat) : (d.undegrade b).par.overlay = d.par.overlay := rfl
@[simp] theorem Dev.undegrade_par_pattern (b : Nat) : (d.undegrade b).par.pattern = d.par.pattern := rfl
@[simp] theorem Dev.undegrade_par_bootPending (b : Nat) : (d.undegrade b).par.bootPending = d.par.bootPending := rfl
@[simp] theorem Dev.undegrade_cn (b : Nat) (x y : Nat) : (d.undegrade b).cn x y = d.cn x y := by simp [Dev.cn]
@[simp] theorem Dev.undegrade_cb (b : Nat) (x y : Nat) : (d.undegrade b).cb x y = d.cb x y := by simp [Dev.cb]
@[simp] theorem Dev.undegrade_ln (b : Nat) (x y : Nat) : (d.undegrade b).ln x y = d.ln x y := by simp [Dev.ln]
@[simp] theorem Dev.undegrade_lb (b : Nat) (x y : Nat) : (d.undegrade b).lb x y = d.lb x y := by simp [Dev.lb]

@[simp] theorem Dev.bumpBy_par_committed (id i k : Nat) : (d.bumpBy id i k).par.committed = d.par.committed := by unfold Dev.bumpBy; split <;> rfl
@[simp] theorem Dev.bumpBy_par_live (id i k : Nat) : (d.bumpBy id i k).par.live = d.par.live := by unfold Dev.bumpBy; split <;> rfl
@[simp] theorem Dev.bumpBy_par_overlay (id i k : Nat) : (d.bumpBy id i k).par.overlay = d.par.overlay := by unfold Dev.bumpBy; split <;> rfl
@[simp] theorem Dev.bumpBy_par_pattern (id i k : Nat) : (d.bumpBy id i k).par.pattern = d.par.pattern := by unfold Dev.bumpBy; split <;> rfl
@[simp] theorem Dev.bumpBy_par_bootPending (id i k : Nat) : (d.bumpBy id i k).par.bootPending = d.par.bootPending := by unfold Dev.bumpBy; split <;> rfl
@[simp] theorem Dev.bumpBy_cn (id i k : Nat) (x y : Nat) : (d.bumpBy id i k).cn x y = d.cn x y := by simp [Dev.cn]
@[simp] theorem Dev.bumpBy_cb (id i k : Nat) (x y : Nat) : (d.bumpBy id i k).cb x y = d.cb x y := by simp [Dev.cb]
@[simp] theorem Dev.bumpBy_ln (id i k : Nat) (x y : Nat) : (d.bumpBy id i k).ln x y = d.ln x y := by simp [Dev.ln]
@[simp] theorem Dev.bumpBy_lb (id i k : Nat) (x y : Nat) : (d.bumpBy id i k).lb x y = d.lb x y := by simp [Dev.lb]

@[simp] theorem Dev.bump_par_committed (id i : Nat) : (d.bump id i).par.committed = d.par.committed := by simp [Dev.bump]
@[simp] theorem Dev.bump_par_live (id i : Nat) : (d.bump id i).par.live = d.par.live := by simp [Dev.bump]
@[simp] theorem Dev.bump_par_overlay (id i : Nat) : (d.bump id i).par.overlay = d.par.overlay := by simp [Dev.bump]
@[simp] theorem Dev.bump_par_pattern (id i : Nat) : (d.bump id i).par.pattern = d.par.pattern := by simp [Dev.bump]
@[simp] theorem Dev.bump_par_bootPending (id i : Nat) : (d.bump id i).par.bootPending = d.par.bootPending := by simp [Dev.bump]
@[simp] theorem Dev.bump_cn (id i : Nat) (x y : Nat) : (d.bump id i).cn x y = d.cn x y := by simp [Dev.cn]
@[simp] theorem Dev.bump_cb (id i : Nat) (x y : Nat) : (d.bump id i).cb x y = d.cb x y := by simp [Dev.cb]
@[simp] theorem Dev.bump_ln (id i : Nat) (x y : Nat) : (d.bump id i).ln x y = d.ln x y := by simp [Dev.ln]
@[simp] theorem Dev.bump_lb (id i : Nat) (x y : Nat) : (d.bump id i).lb x y = d.lb x y := by simp [Dev.lb]

@[simp] theorem Dev.raise_par_committed (n : Now) (c i : Nat) (b : Bytes) : (d.raise n c i b).par.committed = d.par.committed := by simp [Dev.raise]
@[simp] theorem Dev.raise_par_live (n : Now) (c i : Nat) (b : Bytes) : (d.raise n c i b).par.live = d.par.live := by simp [Dev.raise]
@[simp] theorem Dev.raise_par_overlay (n : Now) (c i : Nat) (b : Bytes) : (d.raise n c i b).par.overlay = d.par.overlay := by simp [Dev.raise]
@[simp] theorem Dev.raise_par_pattern (n : Now) (c i : Nat) (b : Bytes) : (d.raise n c i b).par.pattern = d.par.pattern := by simp [Dev.raise]
@[simp] theorem Dev.raise_par_bootPending (n : Now) (c i : Nat) (b : Bytes) : (d.raise n c i b).par.bootPending = d.par.bootPending := by simp [Dev.raise]
@[simp] theorem Dev.raise_cn (n : Now) (c i : Nat) (b : Bytes) (x y : Nat) : (d.raise n c i b).cn x y = d.cn x y := by simp [Dev.cn]
@[simp] theorem Dev.raise_cb (n : Now) (c i : Nat) (b : Bytes) (x y : Nat) : (d.raise n c i b).cb x y = d.cb x y := by simp [Dev.cb]
@[simp] theorem Dev.raise_ln (n : Now) (c i : Nat) (b : Bytes) (x y : Nat) : (d.raise n c i b).ln x y = d.ln x y := by simp [Dev.ln]
@[simp] theorem Dev.raise_lb (n : Now) (c i : Nat) (b : Bytes) (x y : Nat) : (d.raise n c i b).lb x y = d.lb x y := by simp [Dev.lb]

@[simp] theorem Dev.raiseTo_par_committed (n : Now) (s c i : Nat) (b : Bytes) : (d.raiseTo n s c i b).par.committed = d.par.committed := by simp [Dev.raiseTo, Dev.onSlot]
@[simp] theorem Dev.raiseTo_par_live (n : Now) (s c i : Nat) (b : Bytes) : (d.raiseTo n s c i b).par.live = d.par.live := by simp [Dev.raiseTo, Dev.onSlot]
@[simp] theorem Dev.raiseTo_par_overlay (n : Now) (s c i : Nat) (b : Bytes) : (d.raiseTo n s c i b).par.overlay = d.par.overlay := by simp [Dev.raiseTo, Dev.onSlot]
@[simp] theorem Dev.raiseTo_par_pattern (n : Now) (s c i : Nat) (b : Bytes) : (d.raiseTo n s c i b).par.pattern = d.par.pattern := by simp [Dev.raiseTo, Dev.onSlot]
@[simp] theorem Dev.raiseTo_par_bootPending (n : Now) (s c i : Nat) (b : Bytes) : (d.raiseTo n s c i b).par.bootPending = d.par.bootPending := by simp [Dev.raiseTo, Dev.onSlot]
@[simp] theorem Dev.raiseTo_cn (n : Now) (s c i : Nat) (b : Bytes) (x y : Nat) : (d.raiseTo n s c i b).cn x y = d.cn x y := by simp [Dev.cn]
@[simp] theorem Dev.raiseTo_cb (n : Now) (s c i : Nat) (b : Bytes) (x y : Nat) : (d.raiseTo n s c i b).cb x y = d.cb x y := by simp [Dev.cb]
@[simp] theorem Dev.raiseTo_ln (n : Now) (s c i : Nat) (b : Bytes) (x y : Nat) : (d.raiseTo n s c i b).ln x y = d.ln x y := by simp [Dev.ln]
@[simp] theorem Dev.raiseTo_lb (n : Now) (s c i : Nat) (b : Bytes) (x y : Nat) : (d.raiseTo n s c i b).lb x y = d.lb x y := by simp [Dev.lb]

/-! ## Parameter reads that do not see an update of another part -/

@[simp] theorem Dev.say_cn (o : Out) (x y : Nat) : (d.say o).cn x y = d.cn x y := rfl
@[simp] theorem Dev.say_cb (o : Out) (x y : Nat) : (d.say o).cb x y = d.cb x y := rfl
@[simp] theorem Dev.say_ln (o : Out) (x y : Nat) : (d.say o).ln x y = d.ln x y := rfl
@[simp] theorem Dev.say_lb (o : Out) (x y : Nat) : (d.say o).lb x y = d.lb x y := rfl
@[simp] theorem Dev.say_sn (o : Out) (x y : Nat) : (d.say o).sn x y = d.sn x y := rfl
@[simp] theorem Dev.onSlot_cn (i : Nat) (f : Session → Session) (x y : Nat) : (d.onSlot i f).cn x y = d.cn x y := rfl
@[simp] theorem Dev.onSlot_cb (i : Nat) (f : Session → Session) (x y : Nat) : (d.onSlot i f).cb x y = d.cb x y := rfl
@[simp] theorem Dev.onSlot_ln (i : Nat) (f : Session → Session) (x y : Nat) : (d.onSlot i f).ln x y = d.ln x y := rfl
@[simp] theorem Dev.onSlot_lb (i : Nat) (f : Session → Session) (x y : Nat) : (d.onSlot i f).lb x y = d.lb x y := rfl
@[simp] theorem Dev.onSlot_sn (i : Nat) (f : Session → Session) (x y : Nat) : (d.onSlot i f).sn x y = d.sn x y := rfl
@[simp] theorem Dev.hold_cn (h : HeldReply) (x y : Nat) : (d.hold h).cn x y = d.cn x y := rfl
@[simp] theorem Dev.hold_cb (h : HeldReply) (x y : Nat) : (d.hold h).cb x y = d.cb x y := rfl
@[simp] theorem Dev.hold_ln (h : HeldReply) (x y : Nat) : (d.hold h).ln x y = d.ln x y := rfl
@[simp] theorem Dev.hold_lb (h : HeldReply) (x y : Nat) : (d.hold h).lb x y = d.lb x y := rfl
@[simp] theorem Dev.hold_sn (h : HeldReply) (x y : Nat) : (d.hold h).sn x y = d.sn x y := rfl
@[simp] theorem Dev.onCup_cn (i : Nat) (f : Cupola → Cupola) (x y : Nat) : (d.onCup i f).cn x y = d.cn x y := rfl
@[simp] theorem Dev.onCup_cb (i : Nat) (f : Cupola → Cupola) (x y : Nat) : (d.onCup i f).cb x y = d.cb x y := rfl
@[simp] theorem Dev.onCup_ln (i : Nat) (f : Cupola → Cupola) (x y : Nat) : (d.onCup i f).ln x y = d.ln x y := rfl
@[simp] theorem Dev.onCup_lb (i : Nat) (f : Cupola → Cupola) (x y : Nat) : (d.onCup i f).lb x y = d.lb x y := rfl
@[simp] theorem Dev.onCup_sn (i : Nat) (f : Cupola → Cupola) (x y : Nat) : (d.onCup i f).sn x y = d.sn x y := rfl
@[simp] theorem Dev.onRef_cn (f : RefMon → RefMon) (x y : Nat) : (d.onRef f).cn x y = d.cn x y := rfl
@[simp] theorem Dev.onRef_cb (f : RefMon → RefMon) (x y : Nat) : (d.onRef f).cb x y = d.cb x y := rfl
@[simp] theorem Dev.onRef_ln (f : RefMon → RefMon) (x y : Nat) : (d.onRef f).ln x y = d.ln x y := rfl
@[simp] theorem Dev.onRef_lb (f : RefMon → RefMon) (x y : Nat) : (d.onRef f).lb x y = d.lb x y := rfl
@[simp] theorem Dev.onRef_sn (f : RefMon → RefMon) (x y : Nat) : (d.onRef f).sn x y = d.sn x y := rfl
@[simp] theorem Dev.onLadle_cn (i : Nat) (f : Ladle → Ladle) (x y : Nat) : (d.onLadle i f).cn x y = d.cn x y := rfl
@[simp] theorem Dev.onLadle_cb (i : Nat) (f : Ladle → Ladle) (x y : Nat) : (d.onLadle i f).cb x y = d.cb x y := rfl
@[simp] theorem Dev.onLadle_ln (i : Nat) (f : Ladle → Ladle) (x y : Nat) : (d.onLadle i f).ln x y = d.ln x y := rfl
@[simp] theorem Dev.onLadle_lb (i : Nat) (f : Ladle → Ladle) (x y : Nat) : (d.onLadle i f).lb x y = d.lb x y := rfl
@[simp] theorem Dev.onLadle_sn (i : Nat) (f : Ladle → Ladle) (x y : Nat) : (d.onLadle i f).sn x y = d.sn x y := rfl
@[simp] theorem Dev.onSap_cn (i : Nat) (f : Sap → Sap) (x y : Nat) : (d.onSap i f).cn x y = d.cn x y := rfl
@[simp] theorem Dev.onSap_cb (i : Nat) (f : Sap → Sap) (x y : Nat) : (d.onSap i f).cb x y = d.cb x y := rfl
@[simp] theorem Dev.onSap_ln (i : Nat) (f : Sap → Sap) (x y : Nat) : (d.onSap i f).ln x y = d.ln x y := rfl
@[simp] theorem Dev.onSap_lb (i : Nat) (f : Sap → Sap) (x y : Nat) : (d.onSap i f).lb x y = d.lb x y := rfl
@[simp] theorem Dev.onSap_sn (i : Nat) (f : Sap → Sap) (x y : Nat) : (d.onSap i f).sn x y = d.sn x y := rfl
@[simp] theorem Dev.onPdm_cn (i : Nat) (f : Pdm → Pdm) (x y : Nat) : (d.onPdm i f).cn x y = d.cn x y := rfl
@[simp] theorem Dev.onPdm_cb (i : Nat) (f : Pdm → Pdm) (x y : Nat) : (d.onPdm i f).cb x y = d.cb x y := rfl
@[simp] theorem Dev.onPdm_ln (i : Nat) (f : Pdm → Pdm) (x y : Nat) : (d.onPdm i f).ln x y = d.ln x y := rfl
@[simp] theorem Dev.onPdm_lb (i : Nat) (f : Pdm → Pdm) (x y : Nat) : (d.onPdm i f).lb x y = d.lb x y := rfl
@[simp] theorem Dev.onPdm_sn (i : Nat) (f : Pdm → Pdm) (x y : Nat) : (d.onPdm i f).sn x y = d.sn x y := rfl
@[simp] theorem Dev.onTun_cn (i : Nat) (f : Tundish → Tundish) (x y : Nat) : (d.onTun i f).cn x y = d.cn x y := rfl
@[simp] theorem Dev.onTun_cb (i : Nat) (f : Tundish → Tundish) (x y : Nat) : (d.onTun i f).cb x y = d.cb x y := rfl
@[simp] theorem Dev.onTun_ln (i : Nat) (f : Tundish → Tundish) (x y : Nat) : (d.onTun i f).ln x y = d.ln x y := rfl
@[simp] theorem Dev.onTun_lb (i : Nat) (f : Tundish → Tundish) (x y : Nat) : (d.onTun i f).lb x y = d.lb x y := rfl
@[simp] theorem Dev.onTun_sn (i : Nat) (f : Tundish → Tundish) (x y : Nat) : (d.onTun i f).sn x y = d.sn x y := rfl
@[simp] theorem Dev.onEaud_cn (i : Nat) (f : Eaud → Eaud) (x y : Nat) : (d.onEaud i f).cn x y = d.cn x y := rfl
@[simp] theorem Dev.onEaud_cb (i : Nat) (f : Eaud → Eaud) (x y : Nat) : (d.onEaud i f).cb x y = d.cb x y := rfl
@[simp] theorem Dev.onEaud_ln (i : Nat) (f : Eaud → Eaud) (x y : Nat) : (d.onEaud i f).ln x y = d.ln x y := rfl
@[simp] theorem Dev.onEaud_lb (i : Nat) (f : Eaud → Eaud) (x y : Nat) : (d.onEaud i f).lb x y = d.lb x y := rfl
@[simp] theorem Dev.onEaud_sn (i : Nat) (f : Eaud → Eaud) (x y : Nat) : (d.onEaud i f).sn x y = d.sn x y := rfl
@[simp] theorem Dev.onBuf_cn (h : Nat) (f : Buf → Buf) (x y : Nat) : (d.onBuf h f).cn x y = d.cn x y := rfl
@[simp] theorem Dev.onBuf_cb (h : Nat) (f : Buf → Buf) (x y : Nat) : (d.onBuf h f).cb x y = d.cb x y := rfl
@[simp] theorem Dev.onBuf_ln (h : Nat) (f : Buf → Buf) (x y : Nat) : (d.onBuf h f).ln x y = d.ln x y := rfl
@[simp] theorem Dev.onBuf_lb (h : Nat) (f : Buf → Buf) (x y : Nat) : (d.onBuf h f).lb x y = d.lb x y := rfl
@[simp] theorem Dev.onBuf_sn (h : Nat) (f : Buf → Buf) (x y : Nat) : (d.onBuf h f).sn x y = d.sn x y := rfl
@[simp] theorem Dev.onBufSlot_cn (h i : Nat) (f : SlotRec → SlotRec) (x y : Nat) : (d.onBufSlot h i f).cn x y = d.cn x y := rfl
@[simp] theorem Dev.onBufSlot_cb (h i : Nat) (f : SlotRec → SlotRec) (x y : Nat) : (d.onBufSlot h i f).cb x y = d.cb x y := rfl
@[simp] theorem Dev.onBufSlot_ln (h i : Nat) (f : SlotRec → SlotRec) (x y : Nat) : (d.onBufSlot h i f).ln x y = d.ln x y := rfl
@[simp] theorem Dev.onBufSlot_lb (h i : Nat) (f : SlotRec → SlotRec) (x y : Nat) : (d.onBufSlot h i f).lb x y = d.lb x y := rfl
@[simp] theorem Dev.onBufSlot_sn (h i : Nat) (f : SlotRec → SlotRec) (x y : Nat) : (d.onBufSlot h i f).sn x y = d.sn x y := rfl
@[simp] theorem Dev.onMould_cn (m : Nat) (f : Mould → Mould) (x y : Nat) : (d.onMould m f).cn x y = d.cn x y := rfl
@[simp] theorem Dev.onMould_cb (m : Nat) (f : Mould → Mould) (x y : Nat) : (d.onMould m f).cb x y = d.cb x y := rfl
@[simp] theorem Dev.onMould_ln (m : Nat) (f : Mould → Mould) (x y : Nat) : (d.onMould m f).ln x y = d.ln x y := rfl
@[simp] theorem Dev.onMould_lb (m : Nat) (f : Mould → Mould) (x y : Nat) : (d.onMould m f).lb x y = d.lb x y := rfl
@[simp] theorem Dev.onMould_sn (m : Nat) (f : Mould → Mould) (x y : Nat) : (d.onMould m f).sn x y = d.sn x y := rfl
@[simp] theorem Dev.onLayer_cn (m k : Nat) (f : Layer → Layer) (x y : Nat) : (d.onLayer m k f).cn x y = d.cn x y := rfl
@[simp] theorem Dev.onLayer_cb (m k : Nat) (f : Layer → Layer) (x y : Nat) : (d.onLayer m k f).cb x y = d.cb x y := rfl
@[simp] theorem Dev.onLayer_ln (m k : Nat) (f : Layer → Layer) (x y : Nat) : (d.onLayer m k f).ln x y = d.ln x y := rfl
@[simp] theorem Dev.onLayer_lb (m k : Nat) (f : Layer → Layer) (x y : Nat) : (d.onLayer m k f).lb x y = d.lb x y := rfl
@[simp] theorem Dev.onLayer_sn (m k : Nat) (f : Layer → Layer) (x y : Nat) : (d.onLayer m k f).sn x y = d.sn x y := rfl
@[simp] theorem Dev.onWin_cn (m w : Nat) (f : Win → Win) (x y : Nat) : (d.onWin m w f).cn x y = d.cn x y := rfl
@[simp] theorem Dev.onWin_cb (m w : Nat) (f : Win → Win) (x y : Nat) : (d.onWin m w f).cb x y = d.cb x y := rfl
@[simp] theorem Dev.onWin_ln (m w : Nat) (f : Win → Win) (x y : Nat) : (d.onWin m w f).ln x y = d.ln x y := rfl
@[simp] theorem Dev.onWin_lb (m w : Nat) (f : Win → Win) (x y : Nat) : (d.onWin m w f).lb x y = d.lb x y := rfl
@[simp] theorem Dev.onWin_sn (m w : Nat) (f : Win → Win) (x y : Nat) : (d.onWin m w f).sn x y = d.sn x y := rfl
@[simp] theorem Dev.onIngot_cn (m : Nat) (f : Ingot → Ingot) (x y : Nat) : (d.onIngot m f).cn x y = d.cn x y := rfl
@[simp] theorem Dev.onIngot_cb (m : Nat) (f : Ingot → Ingot) (x y : Nat) : (d.onIngot m f).cb x y = d.cb x y := rfl
@[simp] theorem Dev.onIngot_ln (m : Nat) (f : Ingot → Ingot) (x y : Nat) : (d.onIngot m f).ln x y = d.ln x y := rfl
@[simp] theorem Dev.onIngot_lb (m : Nat) (f : Ingot → Ingot) (x y : Nat) : (d.onIngot m f).lb x y = d.lb x y := rfl
@[simp] theorem Dev.onIngot_sn (m : Nat) (f : Ingot → Ingot) (x y : Nat) : (d.onIngot m f).sn x y = d.sn x y := rfl
@[simp] theorem Dev.onMor_cn (f : Morcel → Morcel) (x y : Nat) : (d.onMor f).cn x y = d.cn x y := rfl
@[simp] theorem Dev.onMor_cb (f : Morcel → Morcel) (x y : Nat) : (d.onMor f).cb x y = d.cb x y := rfl
@[simp] theorem Dev.onMor_ln (f : Morcel → Morcel) (x y : Nat) : (d.onMor f).ln x y = d.ln x y := rfl
@[simp] theorem Dev.onMor_lb (f : Morcel → Morcel) (x y : Nat) : (d.onMor f).lb x y = d.lb x y := rfl
@[simp] theorem Dev.onMor_sn (f : Morcel → Morcel) (x y : Nat) : (d.onMor f).sn x y = d.sn x y := rfl
@[simp] theorem Dev.onMorLane_cn (i : Nat) (f : MorLane → MorLane) (x y : Nat) : (d.onMorLane i f).cn x y = d.cn x y := rfl
@[simp] theorem Dev.onMorLane_cb (i : Nat) (f : MorLane → MorLane) (x y : Nat) : (d.onMorLane i f).cb x y = d.cb x y := rfl
@[simp] theorem Dev.onMorLane_ln (i : Nat) (f : MorLane → MorLane) (x y : Nat) : (d.onMorLane i f).ln x y = d.ln x y := rfl
@[simp] theorem Dev.onMorLane_lb (i : Nat) (f : MorLane → MorLane) (x y : Nat) : (d.onMorLane i f).lb x y = d.lb x y := rfl
@[simp] theorem Dev.onMorLane_sn (i : Nat) (f : MorLane → MorLane) (x y : Nat) : (d.onMorLane i f).sn x y = d.sn x y := rfl
@[simp] theorem Dev.onEth_cn (i : Nat) (f : EthPort → EthPort) (x y : Nat) : (d.onEth i f).cn x y = d.cn x y := rfl
@[simp] theorem Dev.onEth_cb (i : Nat) (f : EthPort → EthPort) (x y : Nat) : (d.onEth i f).cb x y = d.cb x y := rfl
@[simp] theorem Dev.onEth_ln (i : Nat) (f : EthPort → EthPort) (x y : Nat) : (d.onEth i f).ln x y = d.ln x y := rfl
@[simp] theorem Dev.onEth_lb (i : Nat) (f : EthPort → EthPort) (x y : Nat) : (d.onEth i f).lb x y = d.lb x y := rfl
@[simp] theorem Dev.onEth_sn (i : Nat) (f : EthPort → EthPort) (x y : Nat) : (d.onEth i f).sn x y = d.sn x y := rfl
@[simp] theorem Dev.onCan_cn (i : Nat) (f : CanCtl → CanCtl) (x y : Nat) : (d.onCan i f).cn x y = d.cn x y := rfl
@[simp] theorem Dev.onCan_cb (i : Nat) (f : CanCtl → CanCtl) (x y : Nat) : (d.onCan i f).cb x y = d.cb x y := rfl
@[simp] theorem Dev.onCan_ln (i : Nat) (f : CanCtl → CanCtl) (x y : Nat) : (d.onCan i f).ln x y = d.ln x y := rfl
@[simp] theorem Dev.onCan_lb (i : Nat) (f : CanCtl → CanCtl) (x y : Nat) : (d.onCan i f).lb x y = d.lb x y := rfl
@[simp] theorem Dev.onCan_sn (i : Nat) (f : CanCtl → CanCtl) (x y : Nat) : (d.onCan i f).sn x y = d.sn x y := rfl
@[simp] theorem Dev.onI2c_cn (i : Nat) (f : I2cCtl → I2cCtl) (x y : Nat) : (d.onI2c i f).cn x y = d.cn x y := rfl
@[simp] theorem Dev.onI2c_cb (i : Nat) (f : I2cCtl → I2cCtl) (x y : Nat) : (d.onI2c i f).cb x y = d.cb x y := rfl
@[simp] theorem Dev.onI2c_ln (i : Nat) (f : I2cCtl → I2cCtl) (x y : Nat) : (d.onI2c i f).ln x y = d.ln x y := rfl
@[simp] theorem Dev.onI2c_lb (i : Nat) (f : I2cCtl → I2cCtl) (x y : Nat) : (d.onI2c i f).lb x y = d.lb x y := rfl
@[simp] theorem Dev.onI2c_sn (i : Nat) (f : I2cCtl → I2cCtl) (x y : Nat) : (d.onI2c i f).sn x y = d.sn x y := rfl
@[simp] theorem Dev.onPair_cn (f : Pair → Pair) (x y : Nat) : (d.onPair f).cn x y = d.cn x y := rfl
@[simp] theorem Dev.onPair_cb (f : Pair → Pair) (x y : Nat) : (d.onPair f).cb x y = d.cb x y := rfl
@[simp] theorem Dev.onPair_ln (f : Pair → Pair) (x y : Nat) : (d.onPair f).ln x y = d.ln x y := rfl
@[simp] theorem Dev.onPair_lb (f : Pair → Pair) (x y : Nat) : (d.onPair f).lb x y = d.lb x y := rfl
@[simp] theorem Dev.onPair_sn (f : Pair → Pair) (x y : Nat) : (d.onPair f).sn x y = d.sn x y := rfl
@[simp] theorem Dev.onSprue_cn (i : Nat) (f : Sprue → Sprue) (x y : Nat) : (d.onSprue i f).cn x y = d.cn x y := rfl
@[simp] theorem Dev.onSprue_cb (i : Nat) (f : Sprue → Sprue) (x y : Nat) : (d.onSprue i f).cb x y = d.cb x y := rfl
@[simp] theorem Dev.onSprue_ln (i : Nat) (f : Sprue → Sprue) (x y : Nat) : (d.onSprue i f).ln x y = d.ln x y := rfl
@[simp] theorem Dev.onSprue_lb (i : Nat) (f : Sprue → Sprue) (x y : Nat) : (d.onSprue i f).lb x y = d.lb x y := rfl
@[simp] theorem Dev.onSprue_sn (i : Nat) (f : Sprue → Sprue) (x y : Nat) : (d.onSprue i f).sn x y = d.sn x y := rfl
@[simp] theorem Dev.onStream_cn (e : Nat) (f : StreamRun → StreamRun) (x y : Nat) : (d.onStream e f).cn x y = d.cn x y := rfl
@[simp] theorem Dev.onStream_cb (e : Nat) (f : StreamRun → StreamRun) (x y : Nat) : (d.onStream e f).cb x y = d.cb x y := rfl
@[simp] theorem Dev.onStream_ln (e : Nat) (f : StreamRun → StreamRun) (x y : Nat) : (d.onStream e f).ln x y = d.ln x y := rfl
@[simp] theorem Dev.onStream_lb (e : Nat) (f : StreamRun → StreamRun) (x y : Nat) : (d.onStream e f).lb x y = d.lb x y := rfl
@[simp] theorem Dev.onStream_sn (e : Nat) (f : StreamRun → StreamRun) (x y : Nat) : (d.onStream e f).sn x y = d.sn x y := rfl
@[simp] theorem Dev.onOut_cn (o : Nat) (f : RouteOut → RouteOut) (x y : Nat) : (d.onOut o f).cn x y = d.cn x y := rfl
@[simp] theorem Dev.onOut_cb (o : Nat) (f : RouteOut → RouteOut) (x y : Nat) : (d.onOut o f).cb x y = d.cb x y := rfl
@[simp] theorem Dev.onOut_ln (o : Nat) (f : RouteOut → RouteOut) (x y : Nat) : (d.onOut o f).ln x y = d.ln x y := rfl
@[simp] theorem Dev.onOut_lb (o : Nat) (f : RouteOut → RouteOut) (x y : Nat) : (d.onOut o f).lb x y = d.lb x y := rfl
@[simp] theorem Dev.onOut_sn (o : Nat) (f : RouteOut → RouteOut) (x y : Nat) : (d.onOut o f).sn x y = d.sn x y := rfl
@[simp] theorem Dev.onUpd_cn (f : Update → Update) (x y : Nat) : (d.onUpd f).cn x y = d.cn x y := rfl
@[simp] theorem Dev.onUpd_cb (f : Update → Update) (x y : Nat) : (d.onUpd f).cb x y = d.cb x y := rfl
@[simp] theorem Dev.onUpd_ln (f : Update → Update) (x y : Nat) : (d.onUpd f).ln x y = d.ln x y := rfl
@[simp] theorem Dev.onUpd_lb (f : Update → Update) (x y : Nat) : (d.onUpd f).lb x y = d.lb x y := rfl
@[simp] theorem Dev.onUpd_sn (f : Update → Update) (x y : Nat) : (d.onUpd f).sn x y = d.sn x y := rfl
@[simp] theorem Dev.onRx_cn (i : Nat) (f : RxPort → RxPort) (x y : Nat) : (d.onRx i f).cn x y = d.cn x y := rfl
@[simp] theorem Dev.onRx_cb (i : Nat) (f : RxPort → RxPort) (x y : Nat) : (d.onRx i f).cb x y = d.cb x y := rfl
@[simp] theorem Dev.onRx_ln (i : Nat) (f : RxPort → RxPort) (x y : Nat) : (d.onRx i f).ln x y = d.ln x y := rfl
@[simp] theorem Dev.onRx_lb (i : Nat) (f : RxPort → RxPort) (x y : Nat) : (d.onRx i f).lb x y = d.lb x y := rfl
@[simp] theorem Dev.onRx_sn (i : Nat) (f : RxPort → RxPort) (x y : Nat) : (d.onRx i f).sn x y = d.sn x y := rfl
@[simp] theorem Dev.onTx_cn (i : Nat) (f : TxPort → TxPort) (x y : Nat) : (d.onTx i f).cn x y = d.cn x y := rfl
@[simp] theorem Dev.onTx_cb (i : Nat) (f : TxPort → TxPort) (x y : Nat) : (d.onTx i f).cb x y = d.cb x y := rfl
@[simp] theorem Dev.onTx_ln (i : Nat) (f : TxPort → TxPort) (x y : Nat) : (d.onTx i f).ln x y = d.ln x y := rfl
@[simp] theorem Dev.onTx_lb (i : Nat) (f : TxPort → TxPort) (x y : Nat) : (d.onTx i f).lb x y = d.lb x y := rfl
@[simp] theorem Dev.onTx_sn (i : Nat) (f : TxPort → TxPort) (x y : Nat) : (d.onTx i f).sn x y = d.sn x y := rfl
@[simp] theorem Dev.onTg_cn (i : Nat) (f : Tg → Tg) (x y : Nat) : (d.onTg i f).cn x y = d.cn x y := rfl
@[simp] theorem Dev.onTg_cb (i : Nat) (f : Tg → Tg) (x y : Nat) : (d.onTg i f).cb x y = d.cb x y := rfl
@[simp] theorem Dev.onTg_ln (i : Nat) (f : Tg → Tg) (x y : Nat) : (d.onTg i f).ln x y = d.ln x y := rfl
@[simp] theorem Dev.onTg_lb (i : Nat) (f : Tg → Tg) (x y : Nat) : (d.onTg i f).lb x y = d.lb x y := rfl
@[simp] theorem Dev.onTg_sn (i : Nat) (f : Tg → Tg) (x y : Nat) : (d.onTg i f).sn x y = d.sn x y := rfl
@[simp] theorem Dev.onPairCtl_cn (i : Nat) (f : CtlPair → CtlPair) (x y : Nat) : (d.onPairCtl i f).cn x y = d.cn x y := rfl
@[simp] theorem Dev.onPairCtl_cb (i : Nat) (f : CtlPair → CtlPair) (x y : Nat) : (d.onPairCtl i f).cb x y = d.cb x y := rfl
@[simp] theorem Dev.onPairCtl_ln (i : Nat) (f : CtlPair → CtlPair) (x y : Nat) : (d.onPairCtl i f).ln x y = d.ln x y := rfl
@[simp] theorem Dev.onPairCtl_lb (i : Nat) (f : CtlPair → CtlPair) (x y : Nat) : (d.onPairCtl i f).lb x y = d.lb x y := rfl
@[simp] theorem Dev.onPairCtl_sn (i : Nat) (f : CtlPair → CtlPair) (x y : Nat) : (d.onPairCtl i f).sn x y = d.sn x y := rfl
@[simp] theorem Dev.askMode_cn (c : Nat) (x y : Nat) : (d.askMode c).cn x y = d.cn x y := by simp [Dev.cn]
@[simp] theorem Dev.askMode_cb (c : Nat) (x y : Nat) : (d.askMode c).cb x y = d.cb x y := by simp [Dev.cb]
@[simp] theorem Dev.askMode_ln (c : Nat) (x y : Nat) : (d.askMode c).ln x y = d.ln x y := by simp [Dev.ln]
@[simp] theorem Dev.askMode_lb (c : Nat) (x y : Nat) : (d.askMode c).lb x y = d.lb x y := by simp [Dev.lb]
@[simp] theorem Dev.askMode_sn (c : Nat) (x y : Nat) : (d.askMode c).sn x y = d.sn x y := by simp [Dev.sn]
@[simp] theorem Dev.send_cn (r : Route) (j : Jorek) (x y : Nat) : (d.send r j).cn x y = d.cn x y := by simp [Dev.cn]
@[simp] theorem Dev.send_cb (r : Route) (j : Jorek) (x y : Nat) : (d.send r j).cb x y = d.cb x y := by simp [Dev.cb]
@[simp] theorem Dev.send_ln (r : Route) (j : Jorek) (x y : Nat) : (d.send r j).ln x y = d.ln x y := by simp [Dev.ln]
@[simp] theorem Dev.send_lb (r : Route) (j : Jorek) (x y : Nat) : (d.send r j).lb x y = d.lb x y := by simp [Dev.lb]
@[simp] theorem Dev.send_sn (r : Route) (j : Jorek) (x y : Nat) : (d.send r j).sn x y = d.sn x y := by simp [Dev.sn]
@[simp] theorem Dev.sendIn_cn (s : Nat) (r : Route) (t f : Nat) (p : Bytes) (x y : Nat) : (d.sendIn s r t f p).cn x y = d.cn x y := by simp [Dev.cn]
@[simp] theorem Dev.sendIn_cb (s : Nat) (r : Route) (t f : Nat) (p : Bytes) (x y : Nat) : (d.sendIn s r t f p).cb x y = d.cb x y := by simp [Dev.cb]
@[simp] theorem Dev.sendIn_ln (s : Nat) (r : Route) (t f : Nat) (p : Bytes) (x y : Nat) : (d.sendIn s r t f p).ln x y = d.ln x y := by simp [Dev.ln]
@[simp] theorem Dev.sendIn_lb (s : Nat) (r : Route) (t f : Nat) (p : Bytes) (x y : Nat) : (d.sendIn s r t f p).lb x y = d.lb x y := by simp [Dev.lb]
@[simp] theorem Dev.sendIn_sn (s : Nat) (r : Route) (t f : Nat) (p : Bytes) (x y : Nat) : (d.sendIn s r t f p).sn x y = d.sn x y := by simp [Dev.sn]
@[simp] theorem Dev.replyUntagged_cn (r : Route) (t s q u : Nat) (p : Bytes) (x y : Nat) : (d.replyUntagged r t s q u p).cn x y = d.cn x y := by simp [Dev.cn]
@[simp] theorem Dev.replyUntagged_cb (r : Route) (t s q u : Nat) (p : Bytes) (x y : Nat) : (d.replyUntagged r t s q u p).cb x y = d.cb x y := by simp [Dev.cb]
@[simp] theorem Dev.replyUntagged_ln (r : Route) (t s q u : Nat) (p : Bytes) (x y : Nat) : (d.replyUntagged r t s q u p).ln x y = d.ln x y := by simp [Dev.ln]
@[simp] theorem Dev.replyUntagged_lb (r : Route) (t s q u : Nat) (p : Bytes) (x y : Nat) : (d.replyUntagged r t s q u p).lb x y = d.lb x y := by simp [Dev.lb]
@[simp] theorem Dev.replyUntagged_sn (r : Route) (t s q u : Nat) (p : Bytes) (x y : Nat) : (d.replyUntagged r t s q u p).sn x y = d.sn x y := by simp [Dev.sn]
@[simp] theorem Dev.replyTo_cn (i s : Nat) (r : Route) (t q u : Nat) (p : Bytes) (x y : Nat) : (d.replyTo i s r t q u p).cn x y = d.cn x y := by simp [Dev.cn]
@[simp] theorem Dev.replyTo_cb (i s : Nat) (r : Route) (t q u : Nat) (p : Bytes) (x y : Nat) : (d.replyTo i s r t q u p).cb x y = d.cb x y := by simp [Dev.cb]
@[simp] theorem Dev.replyTo_ln (i s : Nat) (r : Route) (t q u : Nat) (p : Bytes) (x y : Nat) : (d.replyTo i s r t q u p).ln x y = d.ln x y := by simp [Dev.ln]
@[simp] theorem Dev.replyTo_lb (i s : Nat) (r : Route) (t q u : Nat) (p : Bytes) (x y : Nat) : (d.replyTo i s r t q u p).lb x y = d.lb x y := by simp [Dev.lb]
@[simp] theorem Dev.replyTo_sn (i s : Nat) (r : Route) (t q u : Nat) (p : Bytes) (x y : Nat) : (d.replyTo i s r t q u p).sn x y = d.sn x y := by simp [Dev.sn]
@[simp] theorem Dev.reply_cn (m : Msg) (u : Nat) (p : Bytes) (x y : Nat) : (d.reply m u p).cn x y = d.cn x y := by simp [Dev.cn]
@[simp] theorem Dev.reply_cb (m : Msg) (u : Nat) (p : Bytes) (x y : Nat) : (d.reply m u p).cb x y = d.cb x y := by simp [Dev.cb]
@[simp] theorem Dev.reply_ln (m : Msg) (u : Nat) (p : Bytes) (x y : Nat) : (d.reply m u p).ln x y = d.ln x y := by simp [Dev.ln]
@[simp] theorem Dev.reply_lb (m : Msg) (u : Nat) (p : Bytes) (x y : Nat) : (d.reply m u p).lb x y = d.lb x y := by simp [Dev.lb]
@[simp] theorem Dev.reply_sn (m : Msg) (u : Nat) (p : Bytes) (x y : Nat) : (d.reply m u p).sn x y = d.sn x y := by simp [Dev.sn]
@[simp] theorem Dev.reject_cn (m : Msg) (u : Nat) (x y : Nat) : (d.reject m u).cn x y = d.cn x y := by simp [Dev.cn]
@[simp] theorem Dev.reject_cb (m : Msg) (u : Nat) (x y : Nat) : (d.reject m u).cb x y = d.cb x y := by simp [Dev.cb]
@[simp] theorem Dev.reject_ln (m : Msg) (u : Nat) (x y : Nat) : (d.reject m u).ln x y = d.ln x y := by simp [Dev.ln]
@[simp] theorem Dev.reject_lb (m : Msg) (u : Nat) (x y : Nat) : (d.reject m u).lb x y = d.lb x y := by simp [Dev.lb]
@[simp] theorem Dev.reject_sn (m : Msg) (u : Nat) (x y : Nat) : (d.reject m u).sn x y = d.sn x y := by simp [Dev.sn]

end Sys2Proof.Machine
end

