-- ==== Sys2Proof/Laws/Settle.lean ====
section
/-!
SUPPORT. What follows a command on a calm device: nothing.
-/

namespace Sys2Proof.Machine

@[simp] theorem State.after_pending (s : State) (n : Now) (x : DM) : (s.after n x).pending = s.pending := rfl
@[simp] theorem State.after_dev (s : State) (n : Now) (x : DM) : (s.after n x).dev = x.dev := rfl
@[simp] theorem State.after_mem (s : State) (n : Now) (x : DM) : (s.after n x).mem = x.mem := rfl
@[simp] theorem State.actMem_pending (s : State) (t : Nat) (f : DM → Now → DM) : (s.actMem t f).pending = s.pending := rfl
@[simp] theorem State.act_pending (s : State) (t : Nat) (f : Dev → Now → Dev) : (s.act t f).pending = s.pending := rfl
@[simp] theorem State.actStart_pending (s : State) (t : Nat) (f : DM → Now → DM × Now) : (s.actStart t f).pending = s.pending := rfl
@[simp] theorem DM.map_dev (x : DM) (f : Dev → Dev) : (x.map f).dev = f x.dev := rfl
@[simp] theorem DM.map_mem (x : DM) (f : Dev → Dev) : (x.map f).mem = x.mem := rfl

/-- A calm device stays calm while its echo stays. -/
theorem Dev.Calm.of_echo {d0 d : Dev} (h : d0.Calm) (he : d.echo = d0.echo) : d.Calm := by
  simp only [Dev.echo, Prod.mk.injEq] at he
  simp only [Dev.Calm, Dev.journals] at *
  obtain ⟨h1, h2, h3, h4, h5, h6, h7, h8, h9, h10, h11, h12, h13, h14, h15⟩ := he
  rw [h1, h3, h4, h5, h6, h7, h8, h9, h10, h12, h13, h15]
  exact h

/-- What does not follow a command that leaves the device calm, but for a frame on the Morcel link, and neither moves the pair's link nor
OWN_OUT nor plans a relock. -/
theorem Dev.follow_of_busy {d0 d : Dev} {t : Nat} (hc : (d.morBusy t).Calm) (hu : d.mor.up = d0.mor.up)
    (ho : d.pair.ownOut = d0.pair.ownOut) (hr : d.clk.ref.relockAt = d0.clk.ref.relockAt) (n : Now) : d0.follow d n = d := by
  have hq : (d.pair.forcedLow && d.pair.role == .active && d.pair.yieldTo.isNone && d.flt.halted.isNone) = false ∧
      (d.key.update.isSome = true ∨ d.upd.seals = []) ∧ d.journals = false := by
    by_cases hf : d.mor.fresh = true
    · simp only [Dev.morBusy, hf, if_true] at hc
      exact ⟨hc.2.2.2.1, hc.2.2.2.2.1, hc.2.2.2.2.2⟩
    · simp only [Dev.morBusy, hf] at hc
      exact ⟨hc.2.2.2.1, hc.2.2.2.2.1, hc.2.2.2.2.2⟩
  obtain ⟨hy, hs, hj⟩ := hq
  have e1 : d.yieldAfterFault n = d := by simp only [Dev.yieldAfterFault, hy]; rfl
  have e2 : d.pairLink d0.mor.up n = d := by simp only [Dev.pairLink, hu]; cases d0.mor.up <;> rfl
  have e3 : d.sendRelock d0.clk.ref.relockAt = d := by
    simp only [Dev.sendRelock, hr]
    cases d0.clk.ref.relockAt <;> rfl
  have e4 : d.busFollow n d0.pair.ownOut = d := by simp [Dev.busFollow, ho]
  have e5 : d.startSeals = d := by
    unfold Dev.startSeals
    split
    · rfl
    · rename_i h
      rw [(hs.resolve_left h)]
  have e6 : d0.journal d n = d := by simp [Dev.journal, hj]
  simp only [Dev.follow, e1, e2, e3, e4, e5, e6]

/-- The whole of what follows such a command: when it queued something on the link is noted (R338). -/
theorem settle_of_busy {d0 d : Dev} {n : Now} (hc : (d.morBusy n.abs).Calm) (hu : d.mor.up = d0.mor.up) (ho : d.pair.ownOut = d0.pair.ownOut)
    (hr : d.clk.ref.relockAt = d0.clk.ref.relockAt) (m : Mem) : settle d0 ⟨d, m⟩ n = ⟨d.morBusy n.abs, m⟩ := by
  have hj : d.flt.inject = none := by
    have h := hc.2.1
    unfold Dev.morBusy at h
    split at h <;> exact h
  have hi : injectNow ⟨d, m⟩ n = ⟨d, m⟩ := by simp [injectNow, hj]
  simp only [settle, DM.map, hi, Dev.follow_of_busy hc hu ho hr]
  simp [restartNow, hc.2.2.1]

/-- Nothing follows where no frame was queued either. -/
theorem settle_of_calm {d0 d : Dev} (hc : d.Calm) (hu : d.mor.up = d0.mor.up) (ho : d.pair.ownOut = d0.pair.ownOut)
    (hr : d.clk.ref.relockAt = d0.clk.ref.relockAt) (m : Mem) (n : Now) : settle d0 ⟨d, m⟩ n = ⟨d, m⟩ := by
  have hb : d.morBusy n.abs = d := by simp [Dev.morBusy, hc.1]
  rw [settle_of_busy (by rw [hb]; exact hc) hu ho hr m, hb]

/-- Nothing follows a command on a calm device whose echo the command leaves as it was. -/
theorem settle_calm {d0 d : Dev} (h : d0.Calm) (he : d.echo = d0.echo) (m : Mem) (n : Now) : settle d0 ⟨d, m⟩ n = ⟨d, m⟩ := by
  have hc := h.of_echo he
  simp only [Dev.echo, Prod.mk.injEq] at he
  exact settle_of_calm hc he.2.1 he.2.2.2.2.2.2.2.2.2.2.1 he.2.2.2.2.2.2.2.2.2.2.2.2.2.1 m n

/-- A command on the device alone, when nothing follows it. -/
theorem State.act_calm {s : State} {t : Nat} {f : Dev → Now → Dev} (h : s.dm.dev.Calm) (he : (f s.dm.dev (s.now t)).echo = s.dm.dev.echo) :
    s.act t f = s.after (s.now t) ⟨f s.dm.dev (s.now t), s.mem⟩ := by
  simp only [State.act, State.actMem, DM.map]
  rw [settle_calm h he]; rfl

/-- A command that may touch the crucible RAM, when nothing follows it. -/
theorem State.actMem_calm {s : State} {t : Nat} {f : DM → Now → DM} (h : s.dm.dev.Calm)
    (he : (f s.dm (s.now t)).dev.echo = s.dm.dev.echo) : s.actMem t f = s.after (s.now t) (f s.dm (s.now t)) := by
  simp only [State.actMem]
  rw [show f s.dm (s.now t) = ⟨(f s.dm (s.now t)).dev, (f s.dm (s.now t)).mem⟩ from rfl, settle_calm h he]

/-- The outputs do not decide calm. -/
theorem State.dm_calm {s : State} (h : s.dev.Calm) : s.dm.dev.Calm := h

/-! ## What leaves the echo as it was -/

@[simp] theorem Dev.setS_echo (d : Dev) (id i : Nat) (v : PVal) : (d.setS id i v).echo = d.echo := by simp [Dev.echo, Dev.pairOn]
@[simp] theorem Dev.setSN_echo (d : Dev) (id i v : Nat) : (d.setSN id i v).echo = d.echo := by simp [Dev.echo, Dev.pairOn]
@[simp] theorem Dev.bumpField_echo (d : Dev) (id i lo w k : Nat) : (d.bumpField id i lo w k).echo = d.echo := by simp [Dev.echo, Dev.pairOn]
@[simp] theorem Dev.putField_echo (d : Dev) (id i lo w k : Nat) : (d.putField id i lo w k).echo = d.echo := by simp [Dev.echo, Dev.pairOn]
@[simp] theorem Dev.bumpBy_echo (d : Dev) (id i k : Nat) : (d.bumpBy id i k).echo = d.echo := by simp [Dev.echo, Dev.pairOn]
@[simp] theorem Dev.bump_echo (d : Dev) (id i : Nat) : (d.bump id i).echo = d.echo := by simp [Dev.echo, Dev.pairOn]
@[simp] theorem Dev.say_echo (d : Dev) (o : Out) : (d.say o).echo = d.echo := by simp [Dev.echo, Dev.pairOn]
@[simp] theorem Dev.onSlot_echo (d : Dev) (i : Nat) (f : Session → Session) : (d.onSlot i f).echo = d.echo := by simp [Dev.echo, Dev.pairOn]
@[simp] theorem Dev.hold_echo (d : Dev) (h : HeldReply) : (d.hold h).echo = d.echo := by simp [Dev.echo, Dev.pairOn]
@[simp] theorem Dev.degrade_echo (d : Dev) (b : Nat) : (d.degrade b).echo = d.echo := by simp [Dev.echo, Dev.pairOn]
@[simp] theorem Dev.undegrade_echo (d : Dev) (b : Nat) : (d.undegrade b).echo = d.echo := by simp [Dev.echo, Dev.pairOn]
@[simp] theorem Dev.onCup_echo (d : Dev) (i : Nat) (f : Cupola → Cupola) : (d.onCup i f).echo = d.echo := rfl
@[simp] theorem Dev.onLadle_echo (d : Dev) (i : Nat) (f : Ladle → Ladle) : (d.onLadle i f).echo = d.echo := rfl
@[simp] theorem Dev.onSap_echo (d : Dev) (i : Nat) (f : Sap → Sap) : (d.onSap i f).echo = d.echo := by simp [Dev.echo, Dev.pairOn]
@[simp] theorem Dev.onPdm_echo (d : Dev) (i : Nat) (f : Pdm → Pdm) : (d.onPdm i f).echo = d.echo := by simp [Dev.echo, Dev.pairOn]
@[simp] theorem Dev.onTun_echo (d : Dev) (i : Nat) (f : Tundish → Tundish) : (d.onTun i f).echo = d.echo := by simp [Dev.echo, Dev.pairOn]
@[simp] theorem Dev.onEaud_echo (d : Dev) (i : Nat) (f : Eaud → Eaud) : (d.onEaud i f).echo = d.echo := by simp [Dev.echo, Dev.pairOn]
@[simp] theorem Dev.onBuf_echo (d : Dev) (h : Nat) (f : Buf → Buf) : (d.onBuf h f).echo = d.echo := by simp [Dev.echo, Dev.pairOn]
@[simp] theorem Dev.onBufSlot_echo (d : Dev) (h i : Nat) (f : SlotRec → SlotRec) : (d.onBufSlot h i f).echo = d.echo := by simp [Dev.echo, Dev.pairOn]
@[simp] theorem Dev.onMould_echo (d : Dev) (m : Nat) (f : Mould → Mould) : (d.onMould m f).echo = d.echo := by simp [Dev.echo, Dev.pairOn]
@[simp] theorem Dev.onLayer_echo (d : Dev) (m k : Nat) (f : Layer → Layer) : (d.onLayer m k f).echo = d.echo := by simp [Dev.echo, Dev.pairOn]
@[simp] theorem Dev.onWin_echo (d : Dev) (m w : Nat) (f : Win → Win) : (d.onWin m w f).echo = d.echo := by simp [Dev.echo, Dev.pairOn]
@[simp] theorem Dev.onIngot_echo (d : Dev) (m : Nat) (f : Ingot → Ingot) : (d.onIngot m f).echo = d.echo := by simp [Dev.echo, Dev.pairOn]
@[simp] theorem Dev.onMorLane_echo (d : Dev) (i : Nat) (f : MorLane → MorLane) : (d.onMorLane i f).echo = d.echo := rfl
@[simp] theorem Dev.onEth_echo (d : Dev) (i : Nat) (f : EthPort → EthPort) : (d.onEth i f).echo = d.echo := by simp [Dev.echo, Dev.pairOn]
@[simp] theorem Dev.onCan_echo (d : Dev) (i : Nat) (f : CanCtl → CanCtl) : (d.onCan i f).echo = d.echo := by simp [Dev.echo, Dev.pairOn]
@[simp] theorem Dev.onI2c_echo (d : Dev) (i : Nat) (f : I2cCtl → I2cCtl) : (d.onI2c i f).echo = d.echo := by simp [Dev.echo, Dev.pairOn]
@[simp] theorem Dev.onSprue_echo (d : Dev) (i : Nat) (f : Sprue → Sprue) : (d.onSprue i f).echo = d.echo := by simp [Dev.echo, Dev.pairOn]
@[simp] theorem Dev.onStream_echo (d : Dev) (e : Nat) (f : StreamRun → StreamRun) : (d.onStream e f).echo = d.echo := by simp [Dev.echo, Dev.pairOn]
@[simp] theorem Dev.onOut_echo (d : Dev) (o : Nat) (f : RouteOut → RouteOut) : (d.onOut o f).echo = d.echo := by simp [Dev.echo, Dev.pairOn]
@[simp] theorem Dev.onRx_echo (d : Dev) (i : Nat) (f : RxPort → RxPort) : (d.onRx i f).echo = d.echo := by simp [Dev.echo, Dev.pairOn]
@[simp] theorem Dev.onTx_echo (d : Dev) (i : Nat) (f : TxPort → TxPort) : (d.onTx i f).echo = d.echo := by simp [Dev.echo, Dev.pairOn]
@[simp] theorem Dev.onTg_echo (d : Dev) (i : Nat) (f : Tg → Tg) : (d.onTg i f).echo = d.echo := by simp [Dev.echo, Dev.pairOn]
@[simp] theorem Dev.onPairCtl_echo (d : Dev) (i : Nat) (f : CtlPair → CtlPair) : (d.onPairCtl i f).echo = d.echo := rfl
@[simp] theorem Dev.raise_echo (d : Dev) (n : Now) (c i : Nat) (b : Bytes) : (d.raise n c i b).echo = d.echo := by simp [Dev.echo, Dev.pairOn]
@[simp] theorem Dev.raiseTo_echo (d : Dev) (n : Now) (s c i : Nat) (b : Bytes) : (d.raiseTo n s c i b).echo = d.echo := by simp [Dev.echo, Dev.pairOn]
@[simp] theorem Dev.askMode_echo (d : Dev) (c : Nat) : (d.askMode c).echo = d.echo := by unfold Dev.askMode; split <;> rfl
@[simp] theorem Dev.send_echo (d : Dev) (r : Route) (j : Jorek) : (d.send r j).echo = d.echo :=
  Dev.send_keeps d Dev.echo (fun _ _ => rfl) (fun _ _ => rfl) (fun _ _ => rfl) r j
@[simp] theorem Dev.sendIn_echo (d : Dev) (s : Nat) (r : Route) (a b : Nat) (p : Bytes) : (d.sendIn s r a b p).echo = d.echo := by simp [Dev.sendIn]
@[simp] theorem Dev.replyTo_echo (d : Dev) (i s : Nat) (r : Route) (a q u : Nat) (p : Bytes) : (d.replyTo i s r a q u p).echo = d.echo := by
  simp only [Dev.replyTo]; split <;> simp
@[simp] theorem Dev.reply_echo (d : Dev) (m : Msg) (u : Nat) (p : Bytes) : (d.reply m u p).echo = d.echo := by simp [Dev.reply]

/-- What a command on the device alone answers, when nothing follows it. -/
theorem answers_act {s : State} {c : Instr} {t : Nat} {f : Dev → Now → Dev} {d : Dev} (hx : exec c s = .next (s.act t f))
    (h : s.dev.Calm) (hd : f s.dm.dev (s.now t) = d) (he : d.echo = s.dev.echo) : Answers s c t d := by
  subst hd
  simp only [Answers, hx, State.act_calm (s := s) (f := f) h he]
  simp [State.after, State.now]

/-- What a command that may touch the crucible RAM answers, when nothing follows it. -/
theorem answers_actMem {s : State} {c : Instr} {t : Nat} {f : DM → Now → DM} {d : Dev} {m : Mem} (hx : exec c s = .next (s.actMem t f))
    (h : s.dev.Calm) (hd : f s.dm (s.now t) = ⟨d, m⟩) (he : d.echo = s.dev.echo) : AnswersRam s c t d m := by
  have hd' : (f s.dm (s.now t)).dev = d := by rw [hd]
  simp only [AnswersRam, hx]
  rw [State.actMem_calm (s := s) (f := f) h (by rw [hd']; exact he), hd]
  simp [State.after, State.now]

/-- The same for a command that leaves the crucible RAM alone. -/
theorem answers_actMem_dev {s : State} {c : Instr} {t : Nat} {f : DM → Now → DM} {d : Dev} (hx : exec c s = .next (s.actMem t f))
    (h : s.dev.Calm) (hd : f s.dm (s.now t) = ⟨d, s.mem⟩) (he : d.echo = s.dev.echo) : Answers s c t d :=
  answers_actMem hx h hd he

/-- What a command on the device alone reaches, when nothing follows it. -/
theorem reaches_act {s : State} {c : Instr} {t : Nat} {f : Dev → Now → Dev} {p : State → Prop} (hx : exec c s = .next (s.act t f))
    (h : s.dev.Calm) (he : (f s.dm.dev (s.now t)).echo = s.dev.echo) (hp : p (s.after (s.now t) ⟨f s.dm.dev (s.now t), s.mem⟩)) :
    Reaches s c p := ⟨_, hx, by rw [State.act_calm (s := s) (f := f) h he]; exact hp⟩

end Sys2Proof.Machine
end

