-- ==== Sys2Proof/Laws/Instances.lean ====
section
/-!
SUPPORT. Laws of the instances of a block: what a change of one instance shows in that instance and in the others.
-/

namespace Sys2Proof.Machine

/-! ## Lists of instances -/

theorem modAt_congr {α : Type} {l : List α} {i : Nat} {f g : α → α} {d : α} (h : f (l.getD i d) = g (l.getD i d)) :
    modAt l i f = modAt l i g := by
  apply List.ext_getElem?
  intro j
  simp only [modAt, List.getElem?_modify]
  split
  · rename_i he
    subst he
    cases hl : l[i]? with
    | none => rfl
    | some a =>
      simp only [List.getD, hl, Option.getD_some] at h
      simp [h]
  · rfl

theorem getD_modAt_other {α : Type} {l : List α} {i j : Nat} {f : α → α} {d : α} (h : j ≠ i) : (modAt l i f).getD j d = l.getD j d := by
  simp [modAt, List.getD, h.symm]

theorem getD_modAt_same {α : Type} {l : List α} {i : Nat} {f : α → α} {d : α} (h : i < l.length) :
    (modAt l i f).getD i d = f (l.getD i d) := by
  simp [modAt, List.getD, h]

theorem length_of_getD_ne {α : Type} {l : List α} {i : Nat} {d : α} (h : l.getD i d ≠ d) : i < l.length := by
  refine Nat.lt_of_not_le (fun hn => h ?_)
  simp [List.getD, List.getElem?_eq_none hn]

/-! ## The machine a command finds -/

@[simp] theorem State.dm_cn (s : State) (x y : Nat) : s.dm.dev.cn x y = s.dev.cn x y := rfl
@[simp] theorem State.dm_cb (s : State) (x y : Nat) : s.dm.dev.cb x y = s.dev.cb x y := rfl
@[simp] theorem State.dm_ln (s : State) (x y : Nat) : s.dm.dev.ln x y = s.dev.ln x y := rfl
@[simp] theorem State.dm_lb (s : State) (x y : Nat) : s.dm.dev.lb x y = s.dev.lb x y := rfl
@[simp] theorem State.dm_sn (s : State) (x y : Nat) : s.dm.dev.sn x y = s.dev.sn x y := rfl
@[simp] theorem State.dm_echo (s : State) : s.dm.dev.echo = s.dev.echo := rfl
@[simp] theorem State.dm_mem (s : State) : s.dm.mem = s.mem := rfl
@[simp] theorem State.dm_variant (s : State) : s.dm.dev.variant = s.dev.variant := rfl
@[simp] theorem State.dm_par (s : State) : s.dm.dev.par = s.dev.par := rfl
@[simp] theorem State.dm_work (s : State) : s.dm.dev.work = s.dev.work := rfl
@[simp] theorem State.dm_ctl (s : State) : s.dm.dev.ctl = s.dev.ctl := rfl
@[simp] theorem State.dm_txn (s : State) : s.dm.dev.txn = s.dev.txn := rfl
@[simp] theorem State.dm_rx (s : State) : s.dm.dev.rx = s.dev.rx := rfl
@[simp] theorem State.dm_tx (s : State) : s.dm.dev.tx = s.dev.tx := rfl
@[simp] theorem State.dm_tg (s : State) : s.dm.dev.tg = s.dev.tg := rfl
@[simp] theorem State.dm_run (s : State) : s.dm.dev.run = s.dev.run := rfl
@[simp] theorem State.dm_cru (s : State) : s.dm.dev.cru = s.dev.cru := rfl
@[simp] theorem State.dm_otp (s : State) : s.dm.dev.otp = s.dev.otp := rfl
@[simp] theorem State.dm_key (s : State) : s.dm.dev.key = s.dev.key := rfl
@[simp] theorem State.dm_flash (s : State) : s.dm.dev.flash = s.dev.flash := rfl
@[simp] theorem State.dm_pwr (s : State) : s.dm.dev.pwr = s.dev.pwr := rfl
@[simp] theorem State.dm_spr (s : State) : s.dm.dev.spr = s.dev.spr := rfl
@[simp] theorem State.dm_moulds (s : State) : s.dm.dev.moulds = s.dev.moulds := rfl
@[simp] theorem State.dm_integ (s : State) : s.dm.dev.integ = s.dev.integ := rfl
@[simp] theorem State.dm_clk (s : State) : s.dm.dev.clk = s.dev.clk := rfl
@[simp] theorem State.dm_aud (s : State) : s.dm.dev.aud = s.dev.aud := rfl
@[simp] theorem State.dm_mor (s : State) : s.dm.dev.mor = s.dev.mor := rfl
@[simp] theorem State.dm_pair (s : State) : s.dm.dev.pair = s.dev.pair := rfl
@[simp] theorem State.dm_upd (s : State) : s.dm.dev.upd = s.dev.upd := rfl
@[simp] theorem State.dm_flt (s : State) : s.dm.dev.flt = s.dev.flt := rfl
@[simp] theorem State.dm_dirty (s : State) : s.dm.dev.dirty = s.dev.dirty := rfl
@[simp] theorem State.dm_fresh (s : State) : s.dm.dev.fresh = s.dev.fresh := rfl
@[simp] theorem State.now_heat (s : State) (t : Nat) : (s.now t).heat = s.tb.heat.toNat := rfl
@[simp] theorem State.now_cycle (s : State) (t : Nat) : (s.now t).cycle = t := rfl

/-! ## One instance -/

theorem Dev.onRx_congr {d : Dev} {i : Nat} {f g : RxPort → RxPort} (h : f (d.rxp i) = g (d.rxp i)) : d.onRx i f = d.onRx i g := by
  simp only [Dev.onRx]; rw [modAt_congr h]

theorem Dev.rxp_onRx_other {d : Dev} {i j : Nat} {f : RxPort → RxPort} (h : j ≠ i) : (d.onRx i f).rxp j = d.rxp j := getD_modAt_other h

theorem Dev.rxp_onRx_same {d : Dev} {i : Nat} {f : RxPort → RxPort} (h : i < d.rx.length) : (d.onRx i f).rxp i = f (d.rxp i) := getD_modAt_same h

theorem Dev.onTx_congr {d : Dev} {i : Nat} {f g : TxPort → TxPort} (h : f (d.txp i) = g (d.txp i)) : d.onTx i f = d.onTx i g := by
  simp only [Dev.onTx]; rw [modAt_congr h]

theorem Dev.txp_onTx_other {d : Dev} {i j : Nat} {f : TxPort → TxPort} (h : j ≠ i) : (d.onTx i f).txp j = d.txp j := getD_modAt_other h

theorem Dev.txp_onTx_same {d : Dev} {i : Nat} {f : TxPort → TxPort} (h : i < d.tx.length) : (d.onTx i f).txp i = f (d.txp i) := getD_modAt_same h

theorem Dev.onTg_congr {d : Dev} {i : Nat} {f g : Tg → Tg} (h : f (d.tgen i) = g (d.tgen i)) : d.onTg i f = d.onTg i g := by
  simp only [Dev.onTg]; rw [modAt_congr h]

theorem Dev.tgen_onTg_other {d : Dev} {i j : Nat} {f : Tg → Tg} (h : j ≠ i) : (d.onTg i f).tgen j = d.tgen j := getD_modAt_other h

theorem Dev.tgen_onTg_same {d : Dev} {i : Nat} {f : Tg → Tg} (h : i < d.tg.length) : (d.onTg i f).tgen i = f (d.tgen i) := getD_modAt_same h

theorem Dev.onStream_congr {d : Dev} {i : Nat} {f g : StreamRun → StreamRun} (h : f (d.stream i) = g (d.stream i)) : d.onStream i f = d.onStream i g := by
  simp only [Dev.onStream]; rw [modAt_congr h]

theorem Dev.stream_onStream_other {d : Dev} {i j : Nat} {f : StreamRun → StreamRun} (h : j ≠ i) : (d.onStream i f).stream j = d.stream j := getD_modAt_other h

theorem Dev.stream_onStream_same {d : Dev} {i : Nat} {f : StreamRun → StreamRun} (h : i < d.run.streams.length) : (d.onStream i f).stream i = f (d.stream i) := getD_modAt_same h

theorem Dev.onSlot_congr {d : Dev} {i : Nat} {f g : Session → Session} (h : f (d.slot i) = g (d.slot i)) : d.onSlot i f = d.onSlot i g := by
  simp only [Dev.onSlot]; rw [modAt_congr h]

theorem Dev.slot_onSlot_other {d : Dev} {i j : Nat} {f : Session → Session} (h : j ≠ i) : (d.onSlot i f).slot j = d.slot j := getD_modAt_other h

theorem Dev.slot_onSlot_same {d : Dev} {i : Nat} {f : Session → Session} (h : i < d.ctl.slots.length) : (d.onSlot i f).slot i = f (d.slot i) := getD_modAt_same h

/-! ## An instance that an update of another part leaves alone -/

@[simp] theorem Dev.setC_rxp (d : Dev) (id i : Nat) (v : PVal) (z : Nat) : (d.setC id i v).rxp z = d.rxp z := by simp [Dev.rxp]
@[simp] theorem Dev.setL_rxp (d : Dev) (id i : Nat) (v : PVal) (z : Nat) : (d.setL id i v).rxp z = d.rxp z := by simp [Dev.rxp]
@[simp] theorem Dev.setS_rxp (d : Dev) (id i : Nat) (v : PVal) (z : Nat) : (d.setS id i v).rxp z = d.rxp z := by simp [Dev.rxp]
@[simp] theorem Dev.setSN_rxp (d : Dev) (id i v : Nat) (z : Nat) : (d.setSN id i v).rxp z = d.rxp z := by simp [Dev.rxp]
@[simp] theorem Dev.bumpField_rxp (d : Dev) (id i lo w k : Nat) (z : Nat) : (d.bumpField id i lo w k).rxp z = d.rxp z := by simp [Dev.rxp]
@[simp] theorem Dev.putField_rxp (d : Dev) (id i lo w k : Nat) (z : Nat) : (d.putField id i lo w k).rxp z = d.rxp z := by simp [Dev.rxp]
@[simp] theorem Dev.say_rxp (d : Dev) (o : Out) (z : Nat) : (d.say o).rxp z = d.rxp z := by simp [Dev.rxp]
@[simp] theorem Dev.onSlot_rxp (d : Dev) (i : Nat) (f : Session → Session) (z : Nat) : (d.onSlot i f).rxp z = d.rxp z := by simp [Dev.rxp]
@[simp] theorem Dev.hold_rxp (d : Dev) (h : HeldReply) (z : Nat) : (d.hold h).rxp z = d.rxp z := by simp [Dev.rxp]
@[simp] theorem Dev.degrade_rxp (d : Dev) (b : Nat) (z : Nat) : (d.degrade b).rxp z = d.rxp z := by simp [Dev.rxp]
@[simp] theorem Dev.undegrade_rxp (d : Dev) (b : Nat) (z : Nat) : (d.undegrade b).rxp z = d.rxp z := by simp [Dev.rxp]
@[simp] theorem Dev.onCup_rxp (d : Dev) (i : Nat) (f : Cupola → Cupola) (z : Nat) : (d.onCup i f).rxp z = d.rxp z := by simp [Dev.rxp]
@[simp] theorem Dev.onRef_rxp (d : Dev) (f : RefMon → RefMon) (z : Nat) : (d.onRef f).rxp z = d.rxp z := by simp [Dev.rxp]
@[simp] theorem Dev.onLadle_rxp (d : Dev) (i : Nat) (f : Ladle → Ladle) (z : Nat) : (d.onLadle i f).rxp z = d.rxp z := by simp [Dev.rxp]
@[simp] theorem Dev.onSap_rxp (d : Dev) (i : Nat) (f : Sap → Sap) (z : Nat) : (d.onSap i f).rxp z = d.rxp z := by simp [Dev.rxp]
@[simp] theorem Dev.onPdm_rxp (d : Dev) (i : Nat) (f : Pdm → Pdm) (z : Nat) : (d.onPdm i f).rxp z = d.rxp z := by simp [Dev.rxp]
@[simp] theorem Dev.onTun_rxp (d : Dev) (i : Nat) (f : Tundish → Tundish) (z : Nat) : (d.onTun i f).rxp z = d.rxp z := by simp [Dev.rxp]
@[simp] theorem Dev.onEaud_rxp (d : Dev) (i : Nat) (f : Eaud → Eaud) (z : Nat) : (d.onEaud i f).rxp z = d.rxp z := by simp [Dev.rxp]
@[simp] theorem Dev.onBuf_rxp (d : Dev) (h : Nat) (f : Buf → Buf) (z : Nat) : (d.onBuf h f).rxp z = d.rxp z := by simp [Dev.rxp]
@[simp] theorem Dev.onBufSlot_rxp (d : Dev) (h i : Nat) (f : SlotRec → SlotRec) (z : Nat) : (d.onBufSlot h i f).rxp z = d.rxp z := by simp [Dev.rxp]
@[simp] theorem Dev.onMould_rxp (d : Dev) (m : Nat) (f : Mould → Mould) (z : Nat) : (d.onMould m f).rxp z = d.rxp z := by simp [Dev.rxp]
@[simp] theorem Dev.onLayer_rxp (d : Dev) (m k : Nat) (f : Layer → Layer) (z : Nat) : (d.onLayer m k f).rxp z = d.rxp z := by simp [Dev.rxp]
@[simp] theorem Dev.onWin_rxp (d : Dev) (m w : Nat) (f : Win → Win) (z : Nat) : (d.onWin m w f).rxp z = d.rxp z := by simp [Dev.rxp]
@[simp] theorem Dev.onIngot_rxp (d : Dev) (m : Nat) (f : Ingot → Ingot) (z : Nat) : (d.onIngot m f).rxp z = d.rxp z := by simp [Dev.rxp]
@[simp] theorem Dev.onMor_rxp (d : Dev) (f : Morcel → Morcel) (z : Nat) : (d.onMor f).rxp z = d.rxp z := by simp [Dev.rxp]
@[simp] theorem Dev.onMorLane_rxp (d : Dev) (i : Nat) (f : MorLane → MorLane) (z : Nat) : (d.onMorLane i f).rxp z = d.rxp z := by simp [Dev.rxp]
@[simp] theorem Dev.onEth_rxp (d : Dev) (i : Nat) (f : EthPort → EthPort) (z : Nat) : (d.onEth i f).rxp z = d.rxp z := by simp [Dev.rxp]
@[simp] theorem Dev.onCan_rxp (d : Dev) (i : Nat) (f : CanCtl → CanCtl) (z : Nat) : (d.onCan i f).rxp z = d.rxp z := by simp [Dev.rxp]
@[simp] theorem Dev.onI2c_rxp (d : Dev) (i : Nat) (f : I2cCtl → I2cCtl) (z : Nat) : (d.onI2c i f).rxp z = d.rxp z := by simp [Dev.rxp]
@[simp] theorem Dev.onPair_rxp (d : Dev) (f : Pair → Pair) (z : Nat) : (d.onPair f).rxp z = d.rxp z := by simp [Dev.rxp]
@[simp] theorem Dev.onSprue_rxp (d : Dev) (i : Nat) (f : Sprue → Sprue) (z : Nat) : (d.onSprue i f).rxp z = d.rxp z := by simp [Dev.rxp]
@[simp] theorem Dev.onStream_rxp (d : Dev) (e : Nat) (f : StreamRun → StreamRun) (z : Nat) : (d.onStream e f).rxp z = d.rxp z := by simp [Dev.rxp]
@[simp] theorem Dev.onOut_rxp (d : Dev) (o : Nat) (f : RouteOut → RouteOut) (z : Nat) : (d.onOut o f).rxp z = d.rxp z := by simp [Dev.rxp]
@[simp] theorem Dev.onUpd_rxp (d : Dev) (f : Update → Update) (z : Nat) : (d.onUpd f).rxp z = d.rxp z := by simp [Dev.rxp]
@[simp] theorem Dev.onTx_rxp (d : Dev) (i : Nat) (f : TxPort → TxPort) (z : Nat) : (d.onTx i f).rxp z = d.rxp z := by simp [Dev.rxp]
@[simp] theorem Dev.onTg_rxp (d : Dev) (i : Nat) (f : Tg → Tg) (z : Nat) : (d.onTg i f).rxp z = d.rxp z := by simp [Dev.rxp]
@[simp] theorem Dev.onPairCtl_rxp (d : Dev) (i : Nat) (f : CtlPair → CtlPair) (z : Nat) : (d.onPairCtl i f).rxp z = d.rxp z := by simp [Dev.rxp]
@[simp] theorem Dev.bumpBy_rxp (d : Dev) (id i k : Nat) (z : Nat) : (d.bumpBy id i k).rxp z = d.rxp z := by simp [Dev.rxp]
@[simp] theorem Dev.bump_rxp (d : Dev) (id i : Nat) (z : Nat) : (d.bump id i).rxp z = d.rxp z := by simp [Dev.rxp]
@[simp] theorem Dev.raise_rxp (d : Dev) (n : Now) (c i : Nat) (b : Bytes) (z : Nat) : (d.raise n c i b).rxp z = d.rxp z := by simp [Dev.rxp]
@[simp] theorem Dev.raiseTo_rxp (d : Dev) (n : Now) (s c i : Nat) (b : Bytes) (z : Nat) : (d.raiseTo n s c i b).rxp z = d.rxp z := by simp [Dev.rxp]
@[simp] theorem Dev.askMode_rxp (d : Dev) (c : Nat) (z : Nat) : (d.askMode c).rxp z = d.rxp z := by simp [Dev.rxp]
@[simp] theorem State.dm_rxp (s : State) (j : Nat) : s.dm.dev.rxp j = s.dev.rxp j := rfl

@[simp] theorem Dev.setC_txp (d : Dev) (id i : Nat) (v : PVal) (z : Nat) : (d.setC id i v).txp z = d.txp z := by simp [Dev.txp]
@[simp] theorem Dev.setL_txp (d : Dev) (id i : Nat) (v : PVal) (z : Nat) : (d.setL id i v).txp z = d.txp z := by simp [Dev.txp]
@[simp] theorem Dev.setS_txp (d : Dev) (id i : Nat) (v : PVal) (z : Nat) : (d.setS id i v).txp z = d.txp z := by simp [Dev.txp]
@[simp] theorem Dev.setSN_txp (d : Dev) (id i v : Nat) (z : Nat) : (d.setSN id i v).txp z = d.txp z := by simp [Dev.txp]
@[simp] theorem Dev.bumpField_txp (d : Dev) (id i lo w k : Nat) (z : Nat) : (d.bumpField id i lo w k).txp z = d.txp z := by simp [Dev.txp]
@[simp] theorem Dev.putField_txp (d : Dev) (id i lo w k : Nat) (z : Nat) : (d.putField id i lo w k).txp z = d.txp z := by simp [Dev.txp]
@[simp] theorem Dev.say_txp (d : Dev) (o : Out) (z : Nat) : (d.say o).txp z = d.txp z := by simp [Dev.txp]
@[simp] theorem Dev.onSlot_txp (d : Dev) (i : Nat) (f : Session → Session) (z : Nat) : (d.onSlot i f).txp z = d.txp z := by simp [Dev.txp]
@[simp] theorem Dev.hold_txp (d : Dev) (h : HeldReply) (z : Nat) : (d.hold h).txp z = d.txp z := by simp [Dev.txp]
@[simp] theorem Dev.degrade_txp (d : Dev) (b : Nat) (z : Nat) : (d.degrade b).txp z = d.txp z := by simp [Dev.txp]
@[simp] theorem Dev.undegrade_txp (d : Dev) (b : Nat) (z : Nat) : (d.undegrade b).txp z = d.txp z := by simp [Dev.txp]
@[simp] theorem Dev.onCup_txp (d : Dev) (i : Nat) (f : Cupola → Cupola) (z : Nat) : (d.onCup i f).txp z = d.txp z := by simp [Dev.txp]
@[simp] theorem Dev.onRef_txp (d : Dev) (f : RefMon → RefMon) (z : Nat) : (d.onRef f).txp z = d.txp z := by simp [Dev.txp]
@[simp] theorem Dev.onLadle_txp (d : Dev) (i : Nat) (f : Ladle → Ladle) (z : Nat) : (d.onLadle i f).txp z = d.txp z := by simp [Dev.txp]
@[simp] theorem Dev.onSap_txp (d : Dev) (i : Nat) (f : Sap → Sap) (z : Nat) : (d.onSap i f).txp z = d.txp z := by simp [Dev.txp]
@[simp] theorem Dev.onPdm_txp (d : Dev) (i : Nat) (f : Pdm → Pdm) (z : Nat) : (d.onPdm i f).txp z = d.txp z := by simp [Dev.txp]
@[simp] theorem Dev.onTun_txp (d : Dev) (i : Nat) (f : Tundish → Tundish) (z : Nat) : (d.onTun i f).txp z = d.txp z := by simp [Dev.txp]
@[simp] theorem Dev.onEaud_txp (d : Dev) (i : Nat) (f : Eaud → Eaud) (z : Nat) : (d.onEaud i f).txp z = d.txp z := by simp [Dev.txp]
@[simp] theorem Dev.onBuf_txp (d : Dev) (h : Nat) (f : Buf → Buf) (z : Nat) : (d.onBuf h f).txp z = d.txp z := by simp [Dev.txp]
@[simp] theorem Dev.onBufSlot_txp (d : Dev) (h i : Nat) (f : SlotRec → SlotRec) (z : Nat) : (d.onBufSlot h i f).txp z = d.txp z := by simp [Dev.txp]
@[simp] theorem Dev.onMould_txp (d : Dev) (m : Nat) (f : Mould → Mould) (z : Nat) : (d.onMould m f).txp z = d.txp z := by simp [Dev.txp]
@[simp] theorem Dev.onLayer_txp (d : Dev) (m k : Nat) (f : Layer → Layer) (z : Nat) : (d.onLayer m k f).txp z = d.txp z := by simp [Dev.txp]
@[simp] theorem Dev.onWin_txp (d : Dev) (m w : Nat) (f : Win → Win) (z : Nat) : (d.onWin m w f).txp z = d.txp z := by simp [Dev.txp]
@[simp] theorem Dev.onIngot_txp (d : Dev) (m : Nat) (f : Ingot → Ingot) (z : Nat) : (d.onIngot m f).txp z = d.txp z := by simp [Dev.txp]
@[simp] theorem Dev.onMor_txp (d : Dev) (f : Morcel → Morcel) (z : Nat) : (d.onMor f).txp z = d.txp z := by simp [Dev.txp]
@[simp] theorem Dev.onMorLane_txp (d : Dev) (i : Nat) (f : MorLane → MorLane) (z : Nat) : (d.onMorLane i f).txp z = d.txp z := by simp [Dev.txp]
@[simp] theorem Dev.onEth_txp (d : Dev) (i : Nat) (f : EthPort → EthPort) (z : Nat) : (d.onEth i f).txp z = d.txp z := by simp [Dev.txp]
@[simp] theorem Dev.onCan_txp (d : Dev) (i : Nat) (f : CanCtl → CanCtl) (z : Nat) : (d.onCan i f).txp z = d.txp z := by simp [Dev.txp]
@[simp] theorem Dev.onI2c_txp (d : Dev) (i : Nat) (f : I2cCtl → I2cCtl) (z : Nat) : (d.onI2c i f).txp z = d.txp z := by simp [Dev.txp]
@[simp] theorem Dev.onPair_txp (d : Dev) (f : Pair → Pair) (z : Nat) : (d.onPair f).txp z = d.txp z := by simp [Dev.txp]
@[simp] theorem Dev.onSprue_txp (d : Dev) (i : Nat) (f : Sprue → Sprue) (z : Nat) : (d.onSprue i f).txp z = d.txp z := by simp [Dev.txp]
@[simp] theorem Dev.onStream_txp (d : Dev) (e : Nat) (f : StreamRun → StreamRun) (z : Nat) : (d.onStream e f).txp z = d.txp z := by simp [Dev.txp]
@[simp] theorem Dev.onOut_txp (d : Dev) (o : Nat) (f : RouteOut → RouteOut) (z : Nat) : (d.onOut o f).txp z = d.txp z := by simp [Dev.txp]
@[simp] theorem Dev.onUpd_txp (d : Dev) (f : Update → Update) (z : Nat) : (d.onUpd f).txp z = d.txp z := by simp [Dev.txp]
@[simp] theorem Dev.onRx_txp (d : Dev) (i : Nat) (f : RxPort → RxPort) (z : Nat) : (d.onRx i f).txp z = d.txp z := by simp [Dev.txp]
@[simp] theorem Dev.onTg_txp (d : Dev) (i : Nat) (f : Tg → Tg) (z : Nat) : (d.onTg i f).txp z = d.txp z := by simp [Dev.txp]
@[simp] theorem Dev.onPairCtl_txp (d : Dev) (i : Nat) (f : CtlPair → CtlPair) (z : Nat) : (d.onPairCtl i f).txp z = d.txp z := by simp [Dev.txp]
@[simp] theorem Dev.bumpBy_txp (d : Dev) (id i k : Nat) (z : Nat) : (d.bumpBy id i k).txp z = d.txp z := by simp [Dev.txp]
@[simp] theorem Dev.bump_txp (d : Dev) (id i : Nat) (z : Nat) : (d.bump id i).txp z = d.txp z := by simp [Dev.txp]
@[simp] theorem Dev.raise_txp (d : Dev) (n : Now) (c i : Nat) (b : Bytes) (z : Nat) : (d.raise n c i b).txp z = d.txp z := by simp [Dev.txp]
@[simp] theorem Dev.raiseTo_txp (d : Dev) (n : Now) (s c i : Nat) (b : Bytes) (z : Nat) : (d.raiseTo n s c i b).txp z = d.txp z := by simp [Dev.txp]
@[simp] theorem Dev.askMode_txp (d : Dev) (c : Nat) (z : Nat) : (d.askMode c).txp z = d.txp z := by simp [Dev.txp]
@[simp] theorem State.dm_txp (s : State) (j : Nat) : s.dm.dev.txp j = s.dev.txp j := rfl

@[simp] theorem Dev.setC_tgen (d : Dev) (id i : Nat) (v : PVal) (z : Nat) : (d.setC id i v).tgen z = d.tgen z := by simp [Dev.tgen]
@[simp] theorem Dev.setL_tgen (d : Dev) (id i : Nat) (v : PVal) (z : Nat) : (d.setL id i v).tgen z = d.tgen z := by simp [Dev.tgen]
@[simp] theorem Dev.setS_tgen (d : Dev) (id i : Nat) (v : PVal) (z : Nat) : (d.setS id i v).tgen z = d.tgen z := by simp [Dev.tgen]
@[simp] theorem Dev.setSN_tgen (d : Dev) (id i v : Nat) (z : Nat) : (d.setSN id i v).tgen z = d.tgen z := by simp [Dev.tgen]
@[simp] theorem Dev.bumpField_tgen (d : Dev) (id i lo w k : Nat) (z : Nat) : (d.bumpField id i lo w k).tgen z = d.tgen z := by simp [Dev.tgen]
@[simp] theorem Dev.putField_tgen (d : Dev) (id i lo w k : Nat) (z : Nat) : (d.putField id i lo w k).tgen z = d.tgen z := by simp [Dev.tgen]
@[simp] theorem Dev.say_tgen (d : Dev) (o : Out) (z : Nat) : (d.say o).tgen z = d.tgen z := by simp [Dev.tgen]
@[simp] theorem Dev.onSlot_tgen (d : Dev) (i : Nat) (f : Session → Session) (z : Nat) : (d.onSlot i f).tgen z = d.tgen z := by simp [Dev.tgen]
@[simp] theorem Dev.hold_tgen (d : Dev) (h : HeldReply) (z : Nat) : (d.hold h).tgen z = d.tgen z := by simp [Dev.tgen]
@[simp] theorem Dev.degrade_tgen (d : Dev) (b : Nat) (z : Nat) : (d.degrade b).tgen z = d.tgen z := by simp [Dev.tgen]
@[simp] theorem Dev.undegrade_tgen (d : Dev) (b : Nat) (z : Nat) : (d.undegrade b).tgen z = d.tgen z := by simp [Dev.tgen]
@[simp] theorem Dev.onCup_tgen (d : Dev) (i : Nat) (f : Cupola → Cupola) (z : Nat) : (d.onCup i f).tgen z = d.tgen z := by simp [Dev.tgen]
@[simp] theorem Dev.onRef_tgen (d : Dev) (f : RefMon → RefMon) (z : Nat) : (d.onRef f).tgen z = d.tgen z := by simp [Dev.tgen]
@[simp] theorem Dev.onLadle_tgen (d : Dev) (i : Nat) (f : Ladle → Ladle) (z : Nat) : (d.onLadle i f).tgen z = d.tgen z := by simp [Dev.tgen]
@[simp] theorem Dev.onSap_tgen (d : Dev) (i : Nat) (f : Sap → Sap) (z : Nat) : (d.onSap i f).tgen z = d.tgen z := by simp [Dev.tgen]
@[simp] theorem Dev.onPdm_tgen (d : Dev) (i : Nat) (f : Pdm → Pdm) (z : Nat) : (d.onPdm i f).tgen z = d.tgen z := by simp [Dev.tgen]
@[simp] theorem Dev.onTun_tgen (d : Dev) (i : Nat) (f : Tundish → Tundish) (z : Nat) : (d.onTun i f).tgen z = d.tgen z := by simp [Dev.tgen]
@[simp] theorem Dev.onEaud_tgen (d : Dev) (i : Nat) (f : Eaud → Eaud) (z : Nat) : (d.onEaud i f).tgen z = d.tgen z := by simp [Dev.tgen]
@[simp] theorem Dev.onBuf_tgen (d : Dev) (h : Nat) (f : Buf → Buf) (z : Nat) : (d.onBuf h f).tgen z = d.tgen z := by simp [Dev.tgen]
@[simp] theorem Dev.onBufSlot_tgen (d : Dev) (h i : Nat) (f : SlotRec → SlotRec) (z : Nat) : (d.onBufSlot h i f).tgen z = d.tgen z := by simp [Dev.tgen]
@[simp] theorem Dev.onMould_tgen (d : Dev) (m : Nat) (f : Mould → Mould) (z : Nat) : (d.onMould m f).tgen z = d.tgen z := by simp [Dev.tgen]
@[simp] theorem Dev.onLayer_tgen (d : Dev) (m k : Nat) (f : Layer → Layer) (z : Nat) : (d.onLayer m k f).tgen z = d.tgen z := by simp [Dev.tgen]
@[simp] theorem Dev.onWin_tgen (d : Dev) (m w : Nat) (f : Win → Win) (z : Nat) : (d.onWin m w f).tgen z = d.tgen z := by simp [Dev.tgen]
@[simp] theorem Dev.onIngot_tgen (d : Dev) (m : Nat) (f : Ingot → Ingot) (z : Nat) : (d.onIngot m f).tgen z = d.tgen z := by simp [Dev.tgen]
@[simp] theorem Dev.onMor_tgen (d : Dev) (f : Morcel → Morcel) (z : Nat) : (d.onMor f).tgen z = d.tgen z := by simp [Dev.tgen]
@[simp] theorem Dev.onMorLane_tgen (d : Dev) (i : Nat) (f : MorLane → MorLane) (z : Nat) : (d.onMorLane i f).tgen z = d.tgen z := by simp [Dev.tgen]
@[simp] theorem Dev.onEth_tgen (d : Dev) (i : Nat) (f : EthPort → EthPort) (z : Nat) : (d.onEth i f).tgen z = d.tgen z := by simp [Dev.tgen]
@[simp] theorem Dev.onCan_tgen (d : Dev) (i : Nat) (f : CanCtl → CanCtl) (z : Nat) : (d.onCan i f).tgen z = d.tgen z := by simp [Dev.tgen]
@[simp] theorem Dev.onI2c_tgen (d : Dev) (i : Nat) (f : I2cCtl → I2cCtl) (z : Nat) : (d.onI2c i f).tgen z = d.tgen z := by simp [Dev.tgen]
@[simp] theorem Dev.onPair_tgen (d : Dev) (f : Pair → Pair) (z : Nat) : (d.onPair f).tgen z = d.tgen z := by simp [Dev.tgen]
@[simp] theorem Dev.onSprue_tgen (d : Dev) (i : Nat) (f : Sprue → Sprue) (z : Nat) : (d.onSprue i f).tgen z = d.tgen z := by simp [Dev.tgen]
@[simp] theorem Dev.onStream_tgen (d : Dev) (e : Nat) (f : StreamRun → StreamRun) (z : Nat) : (d.onStream e f).tgen z = d.tgen z := by simp [Dev.tgen]
@[simp] theorem Dev.onOut_tgen (d : Dev) (o : Nat) (f : RouteOut → RouteOut) (z : Nat) : (d.onOut o f).tgen z = d.tgen z := by simp [Dev.tgen]
@[simp] theorem Dev.onUpd_tgen (d : Dev) (f : Update → Update) (z : Nat) : (d.onUpd f).tgen z = d.tgen z := by simp [Dev.tgen]
@[simp] theorem Dev.onRx_tgen (d : Dev) (i : Nat) (f : RxPort → RxPort) (z : Nat) : (d.onRx i f).tgen z = d.tgen z := by simp [Dev.tgen]
@[simp] theorem Dev.onTx_tgen (d : Dev) (i : Nat) (f : TxPort → TxPort) (z : Nat) : (d.onTx i f).tgen z = d.tgen z := by simp [Dev.tgen]
@[simp] theorem Dev.onPairCtl_tgen (d : Dev) (i : Nat) (f : CtlPair → CtlPair) (z : Nat) : (d.onPairCtl i f).tgen z = d.tgen z := by simp [Dev.tgen]
@[simp] theorem Dev.bumpBy_tgen (d : Dev) (id i k : Nat) (z : Nat) : (d.bumpBy id i k).tgen z = d.tgen z := by simp [Dev.tgen]
@[simp] theorem Dev.bump_tgen (d : Dev) (id i : Nat) (z : Nat) : (d.bump id i).tgen z = d.tgen z := by simp [Dev.tgen]
@[simp] theorem Dev.raise_tgen (d : Dev) (n : Now) (c i : Nat) (b : Bytes) (z : Nat) : (d.raise n c i b).tgen z = d.tgen z := by simp [Dev.tgen]
@[simp] theorem Dev.raiseTo_tgen (d : Dev) (n : Now) (s c i : Nat) (b : Bytes) (z : Nat) : (d.raiseTo n s c i b).tgen z = d.tgen z := by simp [Dev.tgen]
@[simp] theorem Dev.askMode_tgen (d : Dev) (c : Nat) (z : Nat) : (d.askMode c).tgen z = d.tgen z := by simp [Dev.tgen]
@[simp] theorem State.dm_tgen (s : State) (j : Nat) : s.dm.dev.tgen j = s.dev.tgen j := rfl

@[simp] theorem Dev.setC_stream (d : Dev) (id i : Nat) (v : PVal) (z : Nat) : (d.setC id i v).stream z = d.stream z := by simp [Dev.stream]
@[simp] theorem Dev.setL_stream (d : Dev) (id i : Nat) (v : PVal) (z : Nat) : (d.setL id i v).stream z = d.stream z := by simp [Dev.stream]
@[simp] theorem Dev.setS_stream (d : Dev) (id i : Nat) (v : PVal) (z : Nat) : (d.setS id i v).stream z = d.stream z := by simp [Dev.stream]
@[simp] theorem Dev.setSN_stream (d : Dev) (id i v : Nat) (z : Nat) : (d.setSN id i v).stream z = d.stream z := by simp [Dev.stream]
@[simp] theorem Dev.bumpField_stream (d : Dev) (id i lo w k : Nat) (z : Nat) : (d.bumpField id i lo w k).stream z = d.stream z := by simp [Dev.stream]
@[simp] theorem Dev.putField_stream (d : Dev) (id i lo w k : Nat) (z : Nat) : (d.putField id i lo w k).stream z = d.stream z := by simp [Dev.stream]
@[simp] theorem Dev.say_stream (d : Dev) (o : Out) (z : Nat) : (d.say o).stream z = d.stream z := by simp [Dev.stream]
@[simp] theorem Dev.onSlot_stream (d : Dev) (i : Nat) (f : Session → Session) (z : Nat) : (d.onSlot i f).stream z = d.stream z := by simp [Dev.stream]
@[simp] theorem Dev.hold_stream (d : Dev) (h : HeldReply) (z : Nat) : (d.hold h).stream z = d.stream z := by simp [Dev.stream]
@[simp] theorem Dev.degrade_stream (d : Dev) (b : Nat) (z : Nat) : (d.degrade b).stream z = d.stream z := by simp [Dev.stream]
@[simp] theorem Dev.undegrade_stream (d : Dev) (b : Nat) (z : Nat) : (d.undegrade b).stream z = d.stream z := by simp [Dev.stream]
@[simp] theorem Dev.onCup_stream (d : Dev) (i : Nat) (f : Cupola → Cupola) (z : Nat) : (d.onCup i f).stream z = d.stream z := by simp [Dev.stream]
@[simp] theorem Dev.onRef_stream (d : Dev) (f : RefMon → RefMon) (z : Nat) : (d.onRef f).stream z = d.stream z := by simp [Dev.stream]
@[simp] theorem Dev.onLadle_stream (d : Dev) (i : Nat) (f : Ladle → Ladle) (z : Nat) : (d.onLadle i f).stream z = d.stream z := by simp [Dev.stream]
@[simp] theorem Dev.onSap_stream (d : Dev) (i : Nat) (f : Sap → Sap) (z : Nat) : (d.onSap i f).stream z = d.stream z := by simp [Dev.stream]
@[simp] theorem Dev.onPdm_stream (d : Dev) (i : Nat) (f : Pdm → Pdm) (z : Nat) : (d.onPdm i f).stream z = d.stream z := by simp [Dev.stream]
@[simp] theorem Dev.onTun_stream (d : Dev) (i : Nat) (f : Tundish → Tundish) (z : Nat) : (d.onTun i f).stream z = d.stream z := by simp [Dev.stream]
@[simp] theorem Dev.onEaud_stream (d : Dev) (i : Nat) (f : Eaud → Eaud) (z : Nat) : (d.onEaud i f).stream z = d.stream z := by simp [Dev.stream]
@[simp] theorem Dev.onBuf_stream (d : Dev) (h : Nat) (f : Buf → Buf) (z : Nat) : (d.onBuf h f).stream z = d.stream z := by simp [Dev.stream]
@[simp] theorem Dev.onBufSlot_stream (d : Dev) (h i : Nat) (f : SlotRec → SlotRec) (z : Nat) : (d.onBufSlot h i f).stream z = d.stream z := by simp [Dev.stream]
@[simp] theorem Dev.onMould_stream (d : Dev) (m : Nat) (f : Mould → Mould) (z : Nat) : (d.onMould m f).stream z = d.stream z := by simp [Dev.stream]
@[simp] theorem Dev.onLayer_stream (d : Dev) (m k : Nat) (f : Layer → Layer) (z : Nat) : (d.onLayer m k f).stream z = d.stream z := by simp [Dev.stream]
@[simp] theorem Dev.onWin_stream (d : Dev) (m w : Nat) (f : Win → Win) (z : Nat) : (d.onWin m w f).stream z = d.stream z := by simp [Dev.stream]
@[simp] theorem Dev.onIngot_stream (d : Dev) (m : Nat) (f : Ingot → Ingot) (z : Nat) : (d.onIngot m f).stream z = d.stream z := by simp [Dev.stream]
@[simp] theorem Dev.onMor_stream (d : Dev) (f : Morcel → Morcel) (z : Nat) : (d.onMor f).stream z = d.stream z := by simp [Dev.stream]
@[simp] theorem Dev.onMorLane_stream (d : Dev) (i : Nat) (f : MorLane → MorLane) (z : Nat) : (d.onMorLane i f).stream z = d.stream z := by simp [Dev.stream]
@[simp] theorem Dev.onEth_stream (d : Dev) (i : Nat) (f : EthPort → EthPort) (z : Nat) : (d.onEth i f).stream z = d.stream z := by simp [Dev.stream]
@[simp] theorem Dev.onCan_stream (d : Dev) (i : Nat) (f : CanCtl → CanCtl) (z : Nat) : (d.onCan i f).stream z = d.stream z := by simp [Dev.stream]
@[simp] theorem Dev.onI2c_stream (d : Dev) (i : Nat) (f : I2cCtl → I2cCtl) (z : Nat) : (d.onI2c i f).stream z = d.stream z := by simp [Dev.stream]
@[simp] theorem Dev.onPair_stream (d : Dev) (f : Pair → Pair) (z : Nat) : (d.onPair f).stream z = d.stream z := by simp [Dev.stream]
@[simp] theorem Dev.onSprue_stream (d : Dev) (i : Nat) (f : Sprue → Sprue) (z : Nat) : (d.onSprue i f).stream z = d.stream z := by simp [Dev.stream]
@[simp] theorem Dev.onUpd_stream (d : Dev) (f : Update → Update) (z : Nat) : (d.onUpd f).stream z = d.stream z := by simp [Dev.stream]
@[simp] theorem Dev.onRx_stream (d : Dev) (i : Nat) (f : RxPort → RxPort) (z : Nat) : (d.onRx i f).stream z = d.stream z := by simp [Dev.stream]
@[simp] theorem Dev.onTx_stream (d : Dev) (i : Nat) (f : TxPort → TxPort) (z : Nat) : (d.onTx i f).stream z = d.stream z := by simp [Dev.stream]
@[simp] theorem Dev.onTg_stream (d : Dev) (i : Nat) (f : Tg → Tg) (z : Nat) : (d.onTg i f).stream z = d.stream z := by simp [Dev.stream]
@[simp] theorem Dev.onPairCtl_stream (d : Dev) (i : Nat) (f : CtlPair → CtlPair) (z : Nat) : (d.onPairCtl i f).stream z = d.stream z := by simp [Dev.stream]
@[simp] theorem Dev.bumpBy_stream (d : Dev) (id i k : Nat) (z : Nat) : (d.bumpBy id i k).stream z = d.stream z := by simp [Dev.stream]
@[simp] theorem Dev.bump_stream (d : Dev) (id i : Nat) (z : Nat) : (d.bump id i).stream z = d.stream z := by simp [Dev.stream]
@[simp] theorem Dev.raise_stream (d : Dev) (n : Now) (c i : Nat) (b : Bytes) (z : Nat) : (d.raise n c i b).stream z = d.stream z := by simp [Dev.stream]
@[simp] theorem Dev.raiseTo_stream (d : Dev) (n : Now) (s c i : Nat) (b : Bytes) (z : Nat) : (d.raiseTo n s c i b).stream z = d.stream z := by simp [Dev.stream]
@[simp] theorem Dev.askMode_stream (d : Dev) (c : Nat) (z : Nat) : (d.askMode c).stream z = d.stream z := by simp [Dev.stream]
@[simp] theorem State.dm_stream (s : State) (j : Nat) : s.dm.dev.stream j = s.dev.stream j := rfl

@[simp] theorem Dev.setC_slot (d : Dev) (id i : Nat) (v : PVal) (z : Nat) : (d.setC id i v).slot z = d.slot z := by simp [Dev.slot]
@[simp] theorem Dev.setL_slot (d : Dev) (id i : Nat) (v : PVal) (z : Nat) : (d.setL id i v).slot z = d.slot z := by simp [Dev.slot]
@[simp] theorem Dev.setS_slot (d : Dev) (id i : Nat) (v : PVal) (z : Nat) : (d.setS id i v).slot z = d.slot z := by simp [Dev.slot]
@[simp] theorem Dev.setSN_slot (d : Dev) (id i v : Nat) (z : Nat) : (d.setSN id i v).slot z = d.slot z := by simp [Dev.slot]
@[simp] theorem Dev.bumpField_slot (d : Dev) (id i lo w k : Nat) (z : Nat) : (d.bumpField id i lo w k).slot z = d.slot z := by simp [Dev.slot]
@[simp] theorem Dev.putField_slot (d : Dev) (id i lo w k : Nat) (z : Nat) : (d.putField id i lo w k).slot z = d.slot z := by simp [Dev.slot]
@[simp] theorem Dev.say_slot (d : Dev) (o : Out) (z : Nat) : (d.say o).slot z = d.slot z := by simp [Dev.slot]
@[simp] theorem Dev.degrade_slot (d : Dev) (b : Nat) (z : Nat) : (d.degrade b).slot z = d.slot z := by simp [Dev.slot]
@[simp] theorem Dev.undegrade_slot (d : Dev) (b : Nat) (z : Nat) : (d.undegrade b).slot z = d.slot z := by simp [Dev.slot]
@[simp] theorem Dev.onCup_slot (d : Dev) (i : Nat) (f : Cupola → Cupola) (z : Nat) : (d.onCup i f).slot z = d.slot z := by simp [Dev.slot]
@[simp] theorem Dev.onRef_slot (d : Dev) (f : RefMon → RefMon) (z : Nat) : (d.onRef f).slot z = d.slot z := by simp [Dev.slot]
@[simp] theorem Dev.onLadle_slot (d : Dev) (i : Nat) (f : Ladle → Ladle) (z : Nat) : (d.onLadle i f).slot z = d.slot z := by simp [Dev.slot]
@[simp] theorem Dev.onSap_slot (d : Dev) (i : Nat) (f : Sap → Sap) (z : Nat) : (d.onSap i f).slot z = d.slot z := by simp [Dev.slot]
@[simp] theorem Dev.onPdm_slot (d : Dev) (i : Nat) (f : Pdm → Pdm) (z : Nat) : (d.onPdm i f).slot z = d.slot z := by simp [Dev.slot]
@[simp] theorem Dev.onTun_slot (d : Dev) (i : Nat) (f : Tundish → Tundish) (z : Nat) : (d.onTun i f).slot z = d.slot z := by simp [Dev.slot]
@[simp] theorem Dev.onEaud_slot (d : Dev) (i : Nat) (f : Eaud → Eaud) (z : Nat) : (d.onEaud i f).slot z = d.slot z := by simp [Dev.slot]
@[simp] theorem Dev.onBuf_slot (d : Dev) (h : Nat) (f : Buf → Buf) (z : Nat) : (d.onBuf h f).slot z = d.slot z := by simp [Dev.slot]
@[simp] theorem Dev.onBufSlot_slot (d : Dev) (h i : Nat) (f : SlotRec → SlotRec) (z : Nat) : (d.onBufSlot h i f).slot z = d.slot z := by simp [Dev.slot]
@[simp] theorem Dev.onMould_slot (d : Dev) (m : Nat) (f : Mould → Mould) (z : Nat) : (d.onMould m f).slot z = d.slot z := by simp [Dev.slot]
@[simp] theorem Dev.onLayer_slot (d : Dev) (m k : Nat) (f : Layer → Layer) (z : Nat) : (d.onLayer m k f).slot z = d.slot z := by simp [Dev.slot]
@[simp] theorem Dev.onWin_slot (d : Dev) (m w : Nat) (f : Win → Win) (z : Nat) : (d.onWin m w f).slot z = d.slot z := by simp [Dev.slot]
@[simp] theorem Dev.onIngot_slot (d : Dev) (m : Nat) (f : Ingot → Ingot) (z : Nat) : (d.onIngot m f).slot z = d.slot z := by simp [Dev.slot]
@[simp] theorem Dev.onMor_slot (d : Dev) (f : Morcel → Morcel) (z : Nat) : (d.onMor f).slot z = d.slot z := by simp [Dev.slot]
@[simp] theorem Dev.onMorLane_slot (d : Dev) (i : Nat) (f : MorLane → MorLane) (z : Nat) : (d.onMorLane i f).slot z = d.slot z := by simp [Dev.slot]
@[simp] theorem Dev.onPair_slot (d : Dev) (f : Pair → Pair) (z : Nat) : (d.onPair f).slot z = d.slot z := by simp [Dev.slot]
@[simp] theorem Dev.onSprue_slot (d : Dev) (i : Nat) (f : Sprue → Sprue) (z : Nat) : (d.onSprue i f).slot z = d.slot z := by simp [Dev.slot]
@[simp] theorem Dev.onStream_slot (d : Dev) (e : Nat) (f : StreamRun → StreamRun) (z : Nat) : (d.onStream e f).slot z = d.slot z := by simp [Dev.slot]
@[simp] theorem Dev.onOut_slot (d : Dev) (o : Nat) (f : RouteOut → RouteOut) (z : Nat) : (d.onOut o f).slot z = d.slot z := by simp [Dev.slot]
@[simp] theorem Dev.onUpd_slot (d : Dev) (f : Update → Update) (z : Nat) : (d.onUpd f).slot z = d.slot z := by simp [Dev.slot]
@[simp] theorem Dev.onRx_slot (d : Dev) (i : Nat) (f : RxPort → RxPort) (z : Nat) : (d.onRx i f).slot z = d.slot z := by simp [Dev.slot]
@[simp] theorem Dev.onTx_slot (d : Dev) (i : Nat) (f : TxPort → TxPort) (z : Nat) : (d.onTx i f).slot z = d.slot z := by simp [Dev.slot]
@[simp] theorem Dev.onTg_slot (d : Dev) (i : Nat) (f : Tg → Tg) (z : Nat) : (d.onTg i f).slot z = d.slot z := by simp [Dev.slot]
@[simp] theorem Dev.onPairCtl_slot (d : Dev) (i : Nat) (f : CtlPair → CtlPair) (z : Nat) : (d.onPairCtl i f).slot z = d.slot z := by simp [Dev.slot]
@[simp] theorem Dev.bumpBy_slot (d : Dev) (id i k : Nat) (z : Nat) : (d.bumpBy id i k).slot z = d.slot z := by simp [Dev.slot]
@[simp] theorem Dev.bump_slot (d : Dev) (id i : Nat) (z : Nat) : (d.bump id i).slot z = d.slot z := by simp [Dev.slot]
@[simp] theorem Dev.askMode_slot (d : Dev) (c : Nat) (z : Nat) : (d.askMode c).slot z = d.slot z := by simp [Dev.slot]
@[simp] theorem State.dm_slot (s : State) (j : Nat) : s.dm.dev.slot j = s.dev.slot j := rfl

end Sys2Proof.Machine
end

