-- ==== Sys2Proof/Laws/Mem.lean ====
section
/-!
SUPPORT. Laws of the crucible RAM: every operation keeps the canonical form; what a read finds after a write.
-/

namespace Sys2Proof.Machine

/-- Keys above `a` read as the default below. -/
theorem memRead_above {m : Mem} {a b : Nat} (h : memAbove b m = true) (hab : a ≤ b) : memRead m a = memDefault := by
  induction m with
  | nil => rfl
  | cons c m ih =>
    obtain ⟨k, v⟩ := c
    simp only [memAbove, List.all_cons, Bool.and_eq_true, decide_eq_true_eq] at h
    have hk : (k == a) = false := by simp; omega
    simp only [memRead, hk]
    exact ih h.2

/-- Keys above a bound stay above a lower one. -/
theorem memAbove_mono {m : Mem} {a b : Nat} (h : memAbove b m = true) (hab : a ≤ b) : memAbove a m = true := by
  simp only [memAbove, List.all_eq_true, decide_eq_true_eq] at *
  intro c hc; have := h c hc; omega

/-- A write above a bound keeps the keys above it. -/
theorem memAbove_memWrite {m : Mem} {a b : Nat} {v : Byte} (h : memAbove b m = true) (hb : b < a) :
    memAbove b (memWrite m a v) = true := by
  induction m with
  | nil => simp only [memWrite]; split <;> simp [memAbove, hb]
  | cons c m ih =>
    obtain ⟨k, w⟩ := c
    simp only [memAbove, List.all_cons, Bool.and_eq_true, decide_eq_true_eq] at h
    have ih' := ih (by simpa [memAbove] using h.2)
    simp only [memAbove] at ih'
    simp only [memWrite]
    split
    · split <;> simp_all [memAbove] <;> exact h.2
    · split
      · split <;> simp_all [memAbove] <;> exact h.2
      · simp only [memAbove, List.all_cons, Bool.and_eq_true, decide_eq_true_eq]
        exact ⟨h.1, ih'⟩

/-- A write keeps the canonical form. -/
theorem memWrite_wf {m : Mem} {a : Nat} {v : Byte} (h : Mem.wf m = true) (ha : a < crucibleBytes) :
    Mem.wf (memWrite m a v) = true := by
  induction m with
  | nil =>
    simp only [memWrite]
    split
    · rfl
    · rename_i hv
      simp only [Mem.wf, memAbove, List.all_nil, Bool.and_true, Bool.and_eq_true, decide_eq_true_eq, bne_iff_ne]
      exact ⟨ha, by simpa using hv⟩
  | cons c m ih =>
    obtain ⟨k, w⟩ := c
    simp only [Mem.wf, Bool.and_eq_true, decide_eq_true_eq] at h
    obtain ⟨⟨⟨hk, hw⟩, hab⟩, hm⟩ := h
    simp only [memWrite]
    split
    · rename_i hlt
      split
      · simp [Mem.wf, hk, hw, hab, hm]
      · rename_i hv
        have : memAbove a m = true := memAbove_mono hab (by omega)
        simp only [Mem.wf, memAbove, List.all_cons, Bool.and_eq_true, decide_eq_true_eq]
        refine ⟨⟨⟨ha, by simpa using hv⟩, hlt, by simpa [memAbove] using this⟩, ⟨⟨hk, hw⟩, by simpa [memAbove] using hab⟩, hm⟩
    · rename_i hge
      split
      · rename_i heq
        have heq : a = k := by simpa using heq
        subst heq
        split
        · exact hm
        · rename_i hv
          simp only [Mem.wf, Bool.and_eq_true, decide_eq_true_eq]
          exact ⟨⟨⟨ha, by simpa using hv⟩, hab⟩, hm⟩
      · rename_i hne
        have hne : a ≠ k := by simpa using hne
        simp only [Mem.wf, Bool.and_eq_true, decide_eq_true_eq]
        exact ⟨⟨⟨hk, hw⟩, memAbove_memWrite hab (by omega)⟩, ih hm⟩

/-- A read at the written address finds the byte written. -/
theorem memRead_memWrite_same {m : Mem} {a : Nat} {v : Byte} (h : Mem.wf m = true) : memRead (memWrite m a v) a = v := by
  induction m with
  | nil => simp only [memWrite]; split <;> simp_all [memRead]
  | cons c m ih =>
    obtain ⟨k, w⟩ := c
    simp only [Mem.wf, Bool.and_eq_true, decide_eq_true_eq] at h
    obtain ⟨⟨⟨hk, hw⟩, hab⟩, hm⟩ := h
    simp only [memWrite]
    split
    · rename_i hlt
      split
      · rename_i hv
        have hka : (k == a) = false := by simp; omega
        simp only [memRead, hka]
        rw [memRead_above hab (by omega)]
        simpa using (beq_iff_eq.mp hv).symm
      · simp [memRead]
    · split
      · rename_i heq
        have heq : a = k := by simpa using heq
        subst heq
        split
        · rename_i hv
          rw [memRead_above hab (by omega)]
          simpa using (beq_iff_eq.mp hv).symm
        · simp [memRead]
      · rename_i hne
        have hka : (k == a) = false := by simp; intro h; exact hne (by simp [h])
        simp only [memRead, hka]
        exact ih hm

/-- A write leaves every other address alone. -/
theorem memRead_memWrite_other {m : Mem} {a b : Nat} {v : Byte} (hab : a ≠ b) : memRead (memWrite m a v) b = memRead m b := by
  have hne : (a == b) = false := by simpa using hab
  induction m with
  | nil => simp only [memWrite]; split <;> simp [memRead, hne]
  | cons c m ih =>
    obtain ⟨k, w⟩ := c
    simp only [memWrite]
    split
    · split
      · rfl
      · simp [memRead, hne]
    · split
      · rename_i heq
        have heq : a = k := by simpa using heq
        subst heq
        split <;> simp [memRead, hne]
      · simp only [memRead]
        split
        · rfl
        · exact ih

/-- A write of the crucible keeps the canonical form. -/
theorem ramWrite_wf {m : Mem} {a : Nat} {v : Byte} (h : Mem.wf m = true) : Mem.wf (ramWrite m a v) = true := by
  unfold ramWrite; split
  · exact memWrite_wf h ‹_›
  · exact h

/-- A write of the crucible leaves every other address alone. -/
theorem ramWrite_other {m : Mem} {a b : Nat} {v : Byte} (hab : a ≠ b) : memRead (ramWrite m a v) b = memRead m b := by
  unfold ramWrite; split
  · exact memRead_memWrite_other hab
  · rfl

/-- A write inside the crucible is read back. -/
theorem ramWrite_same {m : Mem} {a : Nat} {v : Byte} (h : Mem.wf m = true) (ha : a < crucibleBytes) :
    memRead (ramWrite m a v) a = v := by
  simp only [ramWrite, ha, if_true]; exact memRead_memWrite_same h

/-- A byte written to a slot image keeps the canonical form. -/
theorem slotWrite_wf {m : Mem} {s : SlotRec} {a : Nat} {v : Byte} (h : Mem.wf m = true) : Mem.wf (slotWrite m s a v) = true := by
  unfold slotWrite; split
  · exact ramWrite_wf h
  · exact h

/-- Bytes written to a slot image keep the canonical form. -/
theorem slotWrites_wf {m : Mem} {s : SlotRec} {a : Nat} {b : Bytes} (h : Mem.wf m = true) :
    Mem.wf (slotWrites m s a b) = true := by
  induction b generalizing m a with
  | nil => exact h
  | cons x b ih => exact ih (slotWrite_wf h)

/-- Zeroing keeps the canonical form. -/
theorem memZero_wf {m : Mem} {a k : Nat} (h : Mem.wf m = true) : Mem.wf (memZero m a k) = true := by
  induction k generalizing m with
  | zero => exact h
  | succ k ih => exact ih (ramWrite_wf h)

/-- Zeroing leaves every address outside its range alone. -/
theorem memZero_other {m : Mem} {a k b : Nat} (h : b < a ∨ a + k ≤ b) : memRead (memZero m a k) b = memRead m b := by
  induction k generalizing m with
  | zero => rfl
  | succ k ih =>
    have := ih (m := ramWrite m (a + k) 0) (by omega)
    simp only [memZero]
    rw [this, ramWrite_other (by omega)]

end Sys2Proof.Machine
end

