-- ==== Sys2Proof/Tests/Slice0.lean ====
section
/-!
SUPPORT. Tests: the checks of WellFormed with a term each refuses, single steps on small states with results taken from the spec, and for
each statement of Obligations with hypotheses the states that meet them.
-/

namespace Sys2Proof.Tests

open Sys2Proof Sys2Proof.Machine

/-- A small state in heat 100: the device after reset, with the change `f`. -/
def w (f : Dev → Dev) : State := { State.reset with tb := ⟨100, 0⟩, dev := f Dev.reset }

/-- Commit numbers for parameter instances. -/
def cfg (l : List (Nat × Nat × Nat)) (d : Dev) : Dev := l.foldl (fun d x => d.setC x.1 x.2.1 (numVal x.2.2)) d

/-- Put numbers into live values. -/
def live (l : List (Nat × Nat × Nat)) (d : Dev) : Dev := l.foldl (fun d x => d.setL x.1 x.2.1 (numVal x.2.2)) d

/-- A session that is open and wants every event. -/
def openSession (d : Dev) : Dev :=
  d.onSlot 1 (fun x => { x with state := .open, ev := { x.ev with mask := 0xFFFF } })

/-! ## Well-formedness -/

theorem test_ill_formed_is_refused_1 : ∀ c ∈ ([.heatBoundary { wake := 32 }, .heatBoundary { tj := [0, 0, 0, 0, 0, 0, 0, 0, 0] }, .hardWindow 100001 {},
    .messageWindow 100001 1 false [], .backgroundWindow 100001, .messageArrival 100001 ⟨0, 0, 0⟩ [],
    .ethFrameReceive 100001 1 ⟨none, .other⟩, .ethFrameReceive 1 2 ⟨none, .other⟩, .fragTimeout 100001 1,
    .fragTimeout 1 2, .ethLinkChange 100001 1 false false, .ethLinkChange 1 2 false false,
    .canFrameReceive 100001 1 1 [], .canFrameReceive 1 2 1 [], .canFrameReceive 1 1 (2 ^ 29) [],
    .canFrameReceive 1 1 1 (List.replicate 65 0), .canSegTimeout 100001 1 1, .canSegTimeout 1 2 1,
    .canStateChange 100001 1 1 1, .canStateChange 1 2 1 1, .canStateChange 1 1 4 1,
    .canStateChange 1 1 1 512, .announce 100001, .handshakeTimeout 100001 1,
    .handshakeTimeout 1 32, .sessionIdleTimeout 100001 1, .sessionIdleTimeout 1 32,
    .eventResendTimeout 100001 1, .eventResendTimeout 1 32, .leaseLapse 100001 1 1,
    .leaseLapse 1 0 1, .leaseLapse 1 17 1, .leaseLapse 1 1 128,
    .xferComplete 100001 1 [], .xferComplete 1 8 [], .i3cIbi 100001 1 1 [],
    .i3cIbi 1 8 1 [], .i3cIbi 1 1 128 [], .consistencyCheckDone 100001 false,
    .commitEffective 100001] : List Instr), c.wf = false := by decide

theorem test_ill_formed_is_refused_2 : ∀ c ∈ ([.rxClockHsEntry 100001 1 false, .rxClockHsEntry 1 24 false, .rxRateMeasured 100001 1 1,
    .rxRateMeasured 1 24 1, .rxTrainingDone 100001 1 1 1 ⟨[], none⟩, .rxTrainingDone 1 24 1 1 ⟨[], none⟩,
    .rxTrainingDone 1 1 16 1 ⟨[], none⟩, .rxTrainingDone 1 1 1 16 ⟨[], none⟩, .rxDeskewTimeout 100001 1,
    .rxDeskewTimeout 1 24, .rxLaneOrderFound 100001 1 1, .rxLaneOrderFound 1 24 1,
    .rxLaneOrderFound 1 1 256, .rxMapFailure 100001 1, .rxMapFailure 1 24,
    .rxClockLaneLoss 100001 1 1, .rxClockLaneLoss 1 24 1, .rxDataLaneDropout 100001 1 1,
    .rxDataLaneDropout 1 24 1, .rxDataLaneDropout 1 1 4, .rxDataLanePersistentLoss 100001 1 1,
    .rxDataLanePersistentLoss 1 24 1, .rxDataLanePersistentLoss 1 1 4, .rxLaneUlpsEntry 100001 1 1,
    .rxLaneUlpsEntry 1 24 1, .rxLaneUlpsEntry 1 1 5, .rxLaneWake 100001 1 1,
    .rxLaneWake 1 24 1, .rxLaneWake 1 1 5, .ctleAdapt 100001 1 1 false,
    .ctleAdapt 1 24 1 false, .ctleAdapt 1 1 5 false, .packetReceive 100001 1 (.lowPower 0),
    .packetReceive 1 24 (.lowPower 0), .feTimeout 100001 1 1, .feTimeout 1 48 1,
    .feTimeout 1 1 32, .txStopDone 100001 1, .txStopDone 1 16,
    .txDeskewDone 100001 1] : List Instr), c.wf = false := by decide

theorem test_ill_formed_is_refused_3 : ∀ c ∈ ([.txDeskewDone 1 16, .txUlpsTimeout 100001 1, .txUlpsTimeout 1 16,
    .txWakeDone 100001 1, .txWakeDone 1 16, .pour 100001 1 [],
    .pour 1 16 [], .latchLine 100001 1, .latchLine 1 16,
    .testLine 100001 1, .testLine 1 16, .reseatHoldStart 100001 1,
    .reseatHoldStart 1 16, .reseatRestart 100001 1, .reseatRestart 1 16,
    .tgStop 100001 1, .tgStop 1 16, .glideEnd 100001 1,
    .glideEnd 1 20, .riserUnderrun 100001 1 1 1 1, .riserUnderrun 1 12 1 1 1,
    .riserUnderrun 1 1 8 1 1, .sprueDrainComplete 100001 1, .sprueDrainComplete 1 16,
    .replayFrameStart 100001 1 ⟨[], []⟩, .replayFrameStart 1 16 ⟨[], []⟩, .uploadWritten 100001,
    .uploadTimeout 100001 1029 1, .uploadTimeout 1 (2 ^ 16) 1, .uploadTimeout 1 1029 3,
    .granuleCleared 100001 1 1, .granuleCleared 1 64 1, .granuleCleared 1 1 256,
    .eccError 100001 1 1 1 false, .eccError 1 64 1 1 false, .eccError 1 1 256 1 false,
    .eccError 1 1 1 512 false, .scrubPass 100001, .ingotBuildDone 100001 1,
    .ingotBuildDone 1 12] : List Instr), c.wf = false := by decide

theorem test_ill_formed_is_refused_4 : ∀ c ∈ ([.checkWindowResult 100001 1, .checkWindowResult 1 96, .learnComplete 100001 1,
    .learnComplete 1 12, .reverseInDebounce 100001 false, .bandSearchDone 100001 1 1,
    .bandSearchDone 1 4 1, .cupolaLock 100001 1 1, .cupolaLock 1 4 1,
    .cupolaLockTimeout 100001 1, .cupolaLockTimeout 1 4, .cupolaLossOfLock 100001 1 0,
    .cupolaLossOfLock 1 4 0, .referenceGlitch 100001, .flywheelRecover 100001,
    .referenceLoss 100001 1, .referenceLoss 1 0, .referenceLoss 1 4,
    .holdoverLimit 100001, .referenceRequalified 100001 0, .ladleRecentre 100001 1,
    .ladleRecentre 1 20, .ladleRotatorFault 100001 1, .ladleRotatorFault 1 20,
    .pairSyncPulse 100001 0 [], .pairSyncMissing 100001, .fsyncPulse 100001 1,
    .fsyncPulse 1 8, .sapFsyncEdge 100001 1 1 [], .sapFsyncEdge 1 12 1 [],
    .sapClockStop 100001 1, .sapClockStop 1 12, .sapClockResume 100001 1,
    .sapClockResume 1 12, .slotMaskApply 100001 1, .slotMaskApply 1 12,
    .queuePointerMismatch 100001 1 ⟨1, false⟩, .queuePointerMismatch 1 0 ⟨1, false⟩, .queuePointerMismatch 1 8 ⟨1, false⟩,
    .queuePointerMismatch 1 1 ⟨32, false⟩] : List Instr), c.wf = false := by decide

theorem test_ill_formed_is_refused_5 : ∀ c ∈ ([.pdmStuck 100001 1 1 false, .pdmStuck 1 4 1 false, .pdmStuck 1 1 2 false,
    .tundishHold 100001 1 false, .tundishHold 1 16 false, .audioPacketSend 100001 1,
    .audioPacketSend 1 8, .morStageComplete 100001 1 1 [] [] [], .morStageComplete 1 256 1 [] [] [],
    .morStageTimeout 100001 1 1, .morStageTimeout 1 1 8, .train 100001 1 1 1 1 1 1,
    .train 1 8 1 1 1 1 1, .train 1 1 8 1 1 1 1, .train 1 1 1 256 1 1 1,
    .train 1 1 1 1 256 1 1, .train 1 1 1 1 1 256 1, .train 1 1 1 1 1 1 256,
    .linkstat 100001 1, .linkstat 1 8, .morLinkLoss 100001 1 1,
    .morLinkLoss 1 1 8, .slumber 100001, .wake 100001,
    .morFrameReceive 100001 ⟨1, true, true, false, 1, []⟩ false 0 0, .morControlUnknown 100001 1, .morControlUnknown 1 256,
    .ack 100001 1 false, .ack 1 (2 ^ 32) false, .morResendTimeout 100001,
    .heartbeat 100001 [], .snapReq 100001 [], .snapshotApply 100001,
    .pairAliveInEdge 100001, .pairAliveInLost 100001, .heartbeatLost 100001,
    .aliveWatchdogExpiry 100001, .takeoverDetect 100001, .ownOutSwitch 100001,
    .yield 100001 []] : List Instr), c.wf = false := by decide

theorem test_ill_formed_is_refused_6 : ∀ c ∈ ([.pairBootWaitEnd 100001, .imageInfo 100001 [], .ladleSync 100001 [],
    .relock 100001 [], .pairKey 100001 [], .keyTableUpdate 100001 1,
    .keyTableUpdate 1 0, .keyTableUpdate 1 4, .keyRemask 100001,
    .keyRamCheckFail 100001 (.slot 0) false, .downloadTimeout 100001 1, .changeoverReady 100001,
    .changeoverAbandon 100001, .trialConfirm 100001, .confirmTimeout 100001,
    .trialPairFault 100001 4, .trialPairFault 1 3, .trialPairFault 1 7,
    .resetNAssert 100001 1, .resetNAssert 1 0, .resetNAssert 1 3,
    .resetNRelease 100001 {}, .firstPourAfterBoot 100001, .bootRetry 100001 {},
    .scriptComplete 100001 1 none, .scriptComplete 1 256 none, .bankIdleTimeout 100001,
    .bankedEntryComplete 100001, .wakeEvent 100001 1 1, .wakeEvent 1 5 1,
    .wakeComplete 100001, .voltageDroop 100001 ⟨1, 1⟩, .voltageDroop 1 ⟨851, 1⟩, .voltageDroop 1 ⟨1, 100001⟩,
    .shedStep 100001, .txDriverFault 100001 1 1, .txDriverFault 1 16 1,
    .txDriverFault 1 1 5, .railFault 100001 ⟨1, 1⟩, .railFault 1 ⟨8, 1⟩, .railFault 1 ⟨1, 101⟩,
    .controllerFault 100001 4] : List Instr), c.wf = false := by decide

theorem test_ill_formed_is_refused_7 : ∀ c ∈ ([.controllerFault 1 3, .controllerFault 1 7, .warmRestartReady 100001 false,
    .idlePairSelftest 100001 false, .rxMapRetryTimeout 100001 1, .rxMapRetryTimeout 1 24,
    .morTrainingDeadline 100001, .morSlumberReceive 100001, .morWakeReceive 100001,
    .flaskRiserEccError 100001 1 1 1 1, .flaskRiserEccError 1 12 1 1 1, .flaskRiserEccError 1 1 8 1 1,
    .flashEraseDone 100001 1, .flashEraseDone 1 (2 ^ 24), .imageVerifyDone 100001,
    .bootRecordWritten 100001 1, .bootRecordWritten 1 0, .bootRecordWritten 1 3,
    .haltedPairSelftestDone 100001 false, .txMonitorClear 100001 1, .txMonitorClear 1 16,
    .ladleProfileLoopEnd 100001 1, .ladleProfileLoopEnd 1 20, .vddAonPowerUp 100001,
    .pwrEnDelayEnd 100001] : List Instr), c.wf = false := by decide

theorem test_well_formed_is_taken_1 : ∀ c ∈ ([.heatBoundary {}, .hardWindow 1 {}, .messageWindow 1 1 false [],
    .backgroundWindow 1, .messageArrival 1 ⟨0, 0, 0⟩ [], .ethFrameReceive 1 1 ⟨none, .other⟩,
    .fragTimeout 1 1, .ethLinkChange 1 1 false false, .canFrameReceive 1 1 1 [],
    .canSegTimeout 1 1 1, .canStateChange 1 1 1 1, .announce 1,
    .handshakeTimeout 1 1, .sessionIdleTimeout 1 1, .eventResendTimeout 1 1,
    .leaseLapse 1 1 1, .xferComplete 1 1 [], .i3cIbi 1 1 1 [],
    .consistencyCheckDone 1 false, .commitEffective 1, .rxClockHsEntry 1 1 false,
    .rxRateMeasured 1 1 1, .rxTrainingDone 1 1 1 1 ⟨[], none⟩, .rxDeskewTimeout 1 1,
    .rxLaneOrderFound 1 1 1, .rxMapFailure 1 1, .rxClockLaneLoss 1 1 1,
    .rxDataLaneDropout 1 1 1, .rxDataLanePersistentLoss 1 1 1, .rxLaneUlpsEntry 1 1 1,
    .rxLaneWake 1 1 1, .ctleAdapt 1 1 1 false, .packetReceive 1 1 (.lowPower 0),
    .feTimeout 1 1 1, .txStopDone 1 1, .txDeskewDone 1 1,
    .txUlpsTimeout 1 1, .txWakeDone 1 1, .pour 1 1 [],
    .latchLine 1 1] : List Instr), c.wf = true := by decide

theorem test_well_formed_is_taken_2 : ∀ c ∈ ([.testLine 1 1, .reseatHoldStart 1 1, .reseatRestart 1 1,
    .tgStop 1 1, .glideEnd 1 1, .riserUnderrun 1 1 1 1 1,
    .sprueDrainComplete 1 1, .replayFrameStart 1 1 ⟨[], []⟩, .uploadWritten 1,
    .uploadTimeout 1 1029 1, .granuleCleared 1 1 1, .eccError 1 1 1 1 false,
    .scrubPass 1, .ingotBuildDone 1 1, .checkWindowResult 1 1,
    .learnComplete 1 1, .reverseInDebounce 1 false, .bandSearchDone 1 1 1,
    .cupolaLock 1 1 1, .cupolaLockTimeout 1 1, .cupolaLossOfLock 1 1 0,
    .referenceGlitch 1, .flywheelRecover 1, .referenceLoss 1 1,
    .holdoverLimit 1, .referenceRequalified 1 0, .ladleRecentre 1 1,
    .ladleRotatorFault 1 1, .pairSyncPulse 1 0 [], .pairSyncMissing 1,
    .fsyncPulse 1 1, .sapFsyncEdge 1 1 1 [], .sapClockStop 1 1,
    .sapClockResume 1 1, .slotMaskApply 1 1, .queuePointerMismatch 1 1 ⟨1, false⟩,
    .pdmStuck 1 1 1 false, .tundishHold 1 1 false, .audioPacketSend 1 1,
    .morStageComplete 1 1 1 [] [] []] : List Instr), c.wf = true := by decide

theorem test_well_formed_is_taken_3 : ∀ c ∈ ([.morStageTimeout 1 1 1, .train 1 1 1 1 1 1 1, .linkstat 1 1,
    .morLinkLoss 1 1 1, .slumber 1, .wake 1,
    .morFrameReceive 1 ⟨1, true, true, false, 1, []⟩ false 0 0, .morControlUnknown 1 1, .ack 1 1 false,
    .morResendTimeout 1, .heartbeat 1 [], .snapReq 1 [],
    .snapshotApply 1, .pairAliveInEdge 1, .pairAliveInLost 1,
    .heartbeatLost 1, .aliveWatchdogExpiry 1, .takeoverDetect 1,
    .ownOutSwitch 1, .yield 1 [], .pairBootWaitEnd 1,
    .imageInfo 1 [], .ladleSync 1 [], .relock 1 [],
    .pairKey 1 [], .keyTableUpdate 1 1, .keyRemask 1,
    .keyRamCheckFail 1 (.slot 0) false, .downloadTimeout 1 1, .changeoverReady 1,
    .changeoverAbandon 1, .trialConfirm 1, .confirmTimeout 1,
    .trialPairFault 1 4, .resetNAssert 1 1, .resetNRelease 1 {},
    .firstPourAfterBoot 1, .bootRetry 1 {}, .scriptComplete 1 1 none,
    .bankIdleTimeout 1] : List Instr), c.wf = true := by decide

theorem test_well_formed_is_taken_4 : ∀ c ∈ ([.bankedEntryComplete 1, .wakeEvent 1 1 1, .wakeComplete 1,
    .voltageDroop 1 ⟨1, 1⟩, .shedStep 1, .txDriverFault 1 1 1,
    .railFault 1 ⟨1, 1⟩, .controllerFault 1 4, .warmRestartReady 1 false,
    .idlePairSelftest 1 false, .rxMapRetryTimeout 1 1, .morTrainingDeadline 1,
    .morSlumberReceive 1, .morWakeReceive 1, .flaskRiserEccError 1 1 1 1 1,
    .flashEraseDone 1 1, .imageVerifyDone 1, .bootRecordWritten 1 1,
    .haltedPairSelftestDone 1 false, .txMonitorClear 1 1, .ladleProfileLoopEnd 1 1,
    .vddAonPowerUp 1, .pwrEnDelayEnd 1] : List Instr), c.wf = true := by decide

/-! ## Chapters 2 to 4 -/

/-- A session that is open and whose queue of 64 is full, the third entry of it unsent. -/
def wFull (sent : Bool) : State := w (fun d => d.onSlot 1 (fun x => { x with
  state := .open
  ev := { x.ev with mask := 0xFFFF, nextNum := 65, entries := (List.range 64).map (fun k =>
    ⟨k + 1, 0x0301, k, 1, false, ⟨5, 5⟩, [], if sent || k < 2 then some 7 else none⟩) } }))

theorem witness_JorekEncodingIsReadBack :
    (∃ j : Jorek, j.version < 256 ∧ j.typ < 65536 ∧ j.session < 65536 ∧ j.seq < 4294967296 ∧ j.flags < 65536 ∧
      j.payload.length ≤ 4096 ∧ bit j.flags 1 = true ∧ j.tag.length = (if bit j.flags 1 then 8 else 0)) ∧
    (∃ j : Jorek, j.version < 256 ∧ j.typ < 65536 ∧ j.session < 65536 ∧ j.seq < 4294967296 ∧ j.flags < 65536 ∧
      j.payload.length ≤ 4096 ∧ bit j.flags 1 = false ∧ j.tag.length = (if bit j.flags 1 then 8 else 0)) :=
  ⟨⟨⟨1, 0x0201, 0xFFFF, 0xFFFFFFFF, 2, [1, 2, 3], List.replicate 8 9⟩, by decide⟩, ⟨⟨255, 0xFFFF, 0, 0, 1, [], []⟩, by decide⟩⟩

theorem witness_FullEventQueueAbsorbsOrDrops :
    1 < (wFull false).dev.ctl.slots.length ∧ ((wFull false).dev.slot 1).state = .open ∧ ((wFull false).dev.slot 1).ev.wants 0x0301 = true ∧
    64 ≤ ((wFull false).dev.slot 1).ev.entries.length ∧
    (∃ pre e post, ((wFull false).dev.slot 1).ev.entries = pre ++ e :: post ∧ (∀ x ∈ pre, x.absorbs 0x0301 2 = false) ∧
      e.absorbs 0x0301 2 = true) ∧
    (∃ e ∈ ((wFull false).dev.slot 1).ev.entries, e.sentAt ≠ none) ∧
    64 ≤ ((wFull true).dev.slot 1).ev.entries.length ∧ (∀ e ∈ ((wFull true).dev.slot 1).ev.entries, e.absorbs 0x0301 2 = false) ∧
    (wFull true).dev.sn P.ctl_lost_event_count 0 < 2 ^ 32 - 1 :=
  ⟨by decide, by decide, by decide, by decide,
    ⟨((wFull false).dev.slot 1).ev.entries.take 2, ⟨3, 0x0301, 2, 1, false, ⟨5, 5⟩, [], none⟩, ((wFull false).dev.slot 1).ev.entries.drop 3,
      by decide⟩, by decide, by decide, by decide, by decide⟩

theorem witness_EventsReachTheirSubscribers :
    (1 < (w openSession).dev.ctl.slots.length ∧ ((w openSession).dev.slot 1).state = .open ∧
      ((w openSession).dev.slot 1).ev.wants 0x0301 = true ∧ ((w openSession).dev.slot 1).ev.entries.length < 64) ∧
    ((w openSession).dev.slot 0).state ≠ .open ∧ ((w openSession).dev.slot 1).ev.wants 0x0012 = false := by decide

theorem witness_StepRunsTheFirstWaitingCommand :
    { State.reset with pending := [.announce 5, .train 6 0 0 0 0 0 0] }.pending = .announce 5 :: [.train 6 0 0 0 0 0 0] := rfl

/-- An upload of one byte to the crucible is the command; the state after it is canonical again. -/
theorem witness_StepKeepsTheRamCanonical : State.reset.Safe ∧ step State.reset = .next State.reset ∧
    ({ w id with mem := [(5, 1), (7, 255), (67108863, 9)] } : State).Safe := ⟨by decide, rfl, by decide⟩

/-- A state in which heats run and the firmware does. -/
def wRuns (f : Dev → Dev) : State := w (fun d => f { d with
  work := { d.work with hardDone := false }, pwr := { d.pwr with mode := .run, booted := true, noFirmware := false } })

theorem witness_BoundaryBeginsTheNextHeat :
    ((wRuns id).dev.heatsRun = true ∧ (wRuns id).dev.work.step = none) ∧
    ((wRuns (fun d => { d with work := { d.work with step := some 281474976710655 } })).dev.heatsRun = true ∧
      (wRuns (fun d => { d with work := { d.work with step := some 281474976710655 } })).dev.work.step = some 281474976710655) ∧
    (w id).dev.heatsRun = false := by decide

theorem witness_HardWindowRunsOnceAHeat :
    (wRuns id).dev.Calm ∧ (wRuns id).dev.heatsRun = true ∧ (wRuns id).dev.fwRuns = true ∧ (wRuns id).dev.work.hardDone = false ∧
    (wRuns id).dev.pairOn = false ∧ (wRuns id).dev.upd.trialFlag = false ∧ (wRuns id).dev.pair.ownOut = false ∧
    (w id).dev.heatsRun = false ∧ (wRuns id).dev.flt.inject = none ∧ (wRuns id).dev.pwr.restart = none ∧
    (wRuns (fun d => { d with upd := { d.upd with trialFlag := true, resident := true } })).dev.fwRuns = true := by decide

/-- A device whose hard window is over, with a reply held for the message window. -/
def wMsg : State := wRuns (fun d => { d.onSlot 1 (fun x => { x with state := .open, gen := 16 }) with
  work := { d.work with hardDone := true }, ctl := { (d.onSlot 1 (fun x => { x with state := .open, gen := 16 })).ctl with held := [⟨1, 0x0201, 0x0201, 7, ⟨0, 0, 0⟩, 0, [1, 2]⟩] } })

/-- A device with an ingot ready to build since heat 98, its other windows over. -/
def wReady : State := wRuns (fun d => { d with work := { d.work with hardDone := true, messagesDone := true } }.onMould 11 (fun m => { m with ingot := { m.ingot with state := .ready, set := [1, 2], since := 98 } }))

theorem slots_all (l : List Session) (P : Session → Prop) (h : ∀ x ∈ l, P x) (hd : P {}) (i : Nat) : P (l.getD i {}) := by
  rw [List.getD_eq_getElem?_getD]
  cases e : l[i]? with
  | none => exact hd
  | some x => exact h x (List.mem_of_getElem? e)

theorem witness_MessageAndBackgroundWindowsRun :
    ((w id).dev.Calm ∧ (w id).dev.fwRuns = false) ∧
    (wMsg.dev.Calm ∧ wMsg.dev.fwRuns = true ∧ wMsg.dev.work.hardDone = true ∧ wMsg.dev.work.messagesDone = false ∧
      wMsg.dev.pwr.mode.takesMessages = true ∧ wMsg.dev.txn.paused = [] ∧ wMsg.dev.txn.commits = [] ∧ wMsg.dev.ctl.pre = [] ∧
      wMsg.dev.integ.reports = [] ∧ wMsg.dev.work.deferring = false) ∧
    (∀ i, (wMsg.dev.slot i).inbox = [] ∧ (wMsg.dev.slot i).ev.entries = [] ∧ (wMsg.dev.slot i).seqOut + wMsg.dev.ctl.held.length < seqLimit) ∧
    (wReady.dev.Calm ∧ wReady.dev.backgroundTime = true ∧ 11 < wReady.dev.nMould ∧ (wReady.dev.mould 11).ingot.state = .ready ∧
      (wReady.dev.mould 11).ingot.since < wReady.tb.heat.toNat) :=
  ⟨by decide, by decide, fun i => slots_all wMsg.dev.ctl.slots (fun x => x.inbox = [] ∧ x.ev.entries = [] ∧ x.seqOut + wMsg.dev.ctl.held.length < seqLimit)
    (by decide) (by decide) i, by decide⟩

/-- A check that waits for its time: of a value inside its range, or of one outside it. -/
def wCheck (isCheck : Bool) (v : Nat) : State := wRuns (fun d => { ((openSession d).onSlot 1 (fun x => { x with cls := 3, gen := 128 })) with
  work := { d.work with hardDone := true }
  txn := { d.txn with paused := [{
    slot := 1, session := 0x1001, msg := ⟨⟨1, 0x0201, 0x1001, 9, 0, [], []⟩, ⟨0, 0, 0⟩, 5⟩, txn := 1, isSet := false, isCheck := isCheck
    entries := [⟨P.dev_bank_idle_ms, 0, numVal v⟩], kind := 0, output := 0, target := 0, cost := 6036, left := 0, again := false }] } })

theorem witness_ConsistencyCheckAcceptsOrRejects :
    (∀ b, b < 2 → ∀ v, v < 2 → (wCheck (b == 1) v).dev.Calm ∧ (wCheck (b == 1) v).dev.txn.paused ≠ [] ∧ (wCheck (b == 1) v).dev.fwRuns = true ∧
      (wCheck (b == 1) v).dev.work.hardDone = true ∧ (wCheck (b == 1) v).dev.work.messagesDone = false ∧
      (wCheck (b == 1) v).dev.pwr.mode.takesMessages = true) ∧
    takesOf P.dev_bank_idle_ms ≠ .immediate := by decide

/-- The commit of a value of a class, ready for its boundary. -/
def wCommit (id inst v : Nat) : State := wRuns (fun d => { ((openSession d).onSlot 1 (fun x => { x with cls := 3, gen := 128 })) with
  txn := { d.txn with commits := [{
    acc := 3, slot := 1, session := 0x1001, txn := 1, isSet := false, entries := [⟨id, inst, numVal v⟩], kind := 0, output := 0, target := 0
    eff := 100, planned := 100, shadow := true, writing := false, state := .pending, recheck := false, route := ⟨0, 0, 0⟩, reqSeq := 9
    cycles := 0, outs := [], adjusts := [], jseq := none }] } })

theorem witness_CommitWritesItsEntry : ∀ id ∈ [P.dev_bank_idle_ms, P.dev_ref_pref],
    ((wCommit id 0 1).dev.Calm ∧ (wCommit id 0 1).dev.pairOn = false ∧ (wCommit id 0 1).dev.ctl.expiries = []) ∧
    (∀ c ∈ (wCommit id 0 1).dev.txn.commits, c.state = .pending ∧ c.eff ≤ (wCommit id 0 1).tb.heat.toNat ∧ c.shadow = true ∧
      c.recheck = false ∧ c.jseq = none ∧ c.entries = [⟨id, 0, numVal 1⟩] ∧ c.slot < 32) ∧
    (wCommit id 0 1).dev.txn.commits.length = 1 ∧
    (takesOf id ≠ .immediate ∧ id ≠ P.pair_enable ∧ id ≠ P.pair_mor_enable) ∧
    (takesOf id = .boot ↔ id = P.dev_ref_pref) := by decide
/-! ## Chapter 5 -/

/-- A device whose receive port 23 is as `f` makes it, with a session to tell. -/
def wRx (l : List (Nat × Nat × Nat)) (f : RxPort → RxPort) : State :=
  w (fun d => cfg l ({ openSession d with pwr := { d.pwr with booted := true, mode := .run } }.onRx 23 f))

theorem witness_RxBringUpLeavesWaitAndClock :
    (∀ r ∈ [RxState.wait], (wRx [] (fun p => { p with state := r })).dev.Calm ∧ ((wRx [] (fun p => { p with state := r })).dev.rxp 23).state = .wait) ∧
    (let s := wRx [(P.rxp_polarity, 23, 0x10)] (fun p => { p with state := .wait })
     s.dev.Calm ∧ bit (s.dev.cn P.rxp_polarity 23) 9 = false ∧ bit (s.dev.cn P.rxp_polarity 23) 4 = true) ∧
    bit ((cfg [(P.rxp_polarity, 23, 0x200)] (w id).dev).cn P.rxp_polarity 23) 9 = true ∧
    (let s := wRx [(P.rxp_rate_kbps, 23, 1000000)] (fun p => { p with state := .clock })
     s.dev.Calm ∧ (s.dev.rxp 23).state = .clock ∧ rateOff 1020000 (s.dev.cn P.rxp_rate_kbps 23) = false ∧
       rateOff 1020001 (s.dev.cn P.rxp_rate_kbps 23) = true ∧ rateOff 979999 (s.dev.cn P.rxp_rate_kbps 23) = true) ∧
    (let s := wRx [] (fun p => { p with state := .wait, mapFailed := true, clockHs := true, since := 9200005 })
     s.dev.Calm ∧ (s.dev.rxp 23).state = .wait ∧ (s.dev.rxp 23).mapFailed = true ∧ (s.dev.rxp 23).clockHs = true ∧
       (s.dev.rxp 23).since + msCycles ≤ (s.now 5).abs) ∧
    (let s := wRx [(P.rxp_deskew, 23, 1)] (fun p => { p with state := .train, rate := 80000 })
     s.dev.Calm ∧ (s.dev.rxp 23).state = .train ∧ (s.dev.rxp 23).noBurst = false ∧
       deskewRequired (s.dev.cn P.rxp_deskew 23) (s.dev.rxp 23).rate = true ∧ (s.dev.rxp 23).clockAt + msCycles ≤ (s.now 5).abs) := by decide

theorem witness_RxTrainingAndLaneOrder :
    (let s := wRx [(P.rxp_lane_map, 23, 0x1E4)] (fun p => { p with state := .train })
     s.dev.Calm ∧ bit (s.dev.cn P.rxp_lane_map 23) 8 = true ∧ (s.dev.rxp 23).state = .train ∧ some [(5 : Int), -3] ≠ none ∧
       deskewRequired 2 (s.dev.rxp 23).rate = false ∧ { s.dev.rxp 23 with noBurst := true }.noBurst = true) ∧
    (let s := wRx [(P.rxp_lane_map, 23, 0xE4), (P.rxp_polarity, 23, 0x300), (P.rxp_lanes, 23, 4), (P.rxp_deskew, 23, 2)] (fun p => { p with state := .train })
     s.dev.Calm ∧ bit (s.dev.cn P.rxp_lane_map 23) 8 = false ∧ (s.dev.rxp 23).state = .train ∧
       deskewRequired (s.dev.cn P.rxp_deskew 23) (s.dev.rxp 23).rate = false ∧
       activeSeen (s.dev.cn P.rxp_lane_map 23) (s.dev.cn P.rxp_lanes 23) (pinsDecoded (s.dev.cn P.rxp_polarity 23) 15 3) = true) ∧
    (let s := wRx [(P.rxp_lane_map, 23, 0x1E4), (P.rxp_lanes, 23, 2)] (fun p => { p with state := .map, pins := 9 })
     s.dev.Calm ∧ bit (s.dev.cn P.rxp_lane_map 23) 8 = true ∧ (s.dev.rxp 23).state = .map ∧
       popCount 4 (s.dev.rxp 23).pins = s.dev.cn P.rxp_lanes 23) := by decide

theorem witness_RxLaneLossSendsThePortToWait :
    (wRx [] (fun p => { p with state := .up })).dev.Calm ∧ ((wRx [] (fun p => { p with state := .up })).dev.rxp 23).state = .up ∧
    (∀ e, e < 128 → ((wRx [] (fun p => { p with state := .up })).dev.stream e).inFrame = false) := by decide

theorem witness_RxLanesSleepAndAdapt :
    (let s := wRx [(P.rxp_lanes, 23, 2), (P.rxp_eq, 23, 0xF00)] (fun p => { p with state := .up, pins := 3 })
     s.dev.Calm ∧ (s.dev.rxp 23).state = .up ∧
       ((s.dev.rxp 23).sleep 4 true).allAsleep (s.dev.cn P.rxp_lanes 23) = (s.dev.rxp 23).allAsleep (s.dev.cn P.rxp_lanes 23) ∧
       ((s.dev.rxp 23).sleep 1 false).allAsleep (s.dev.cn P.rxp_lanes 23) = (s.dev.rxp 23).allAsleep (s.dev.cn P.rxp_lanes 23) ∧
       bit (s.dev.cn P.rxp_eq 23) 0 = false ∧ s.dev.fwRuns = true ∧ (s.dev.rxp 23).hears (s.dev.cn P.rxp_lanes 23) 0 = true ∧ ((s.dev.rxp 23).lanes.getD 0 {}).movedHeat ≠ some s.tb.heat.toNat) ∧
    (let s := wRx [(P.rxp_lanes, 23, 2)] (fun p => { p with state := .up, pins := 3, ulps := 1, clockUlps := true })
     s.dev.Calm ∧ (s.dev.rxp 23).state = .up ∧ ((s.dev.rxp 23).sleep 1 true).allAsleep (s.dev.cn P.rxp_lanes 23) = true ∧
       (s.dev.rxp 23).allAsleep (s.dev.cn P.rxp_lanes 23) = false) ∧
    (let s := wRx [(P.rxp_lanes, 23, 2)] (fun p => { p with state := .up, pins := 3, ulps := 3, clockUlps := true })
     s.dev.Calm ∧ (s.dev.rxp 23).state = .up ∧ ((s.dev.rxp 23).sleep 0 false).allAsleep (s.dev.cn P.rxp_lanes 23) = false ∧
       (s.dev.rxp 23).allAsleep (s.dev.cn P.rxp_lanes 23) = true) := by decide

/-- Receive port 23 in Up in the middle of a frame of stream entry 127, which takes its RGB888 packets of VC 3 and freezes none. -/
def wPacket : State :=
  w (fun d => ((openSession d).onRx 23 (fun p => { p with state := .up, synced := 8 })).onStream 127 (fun s => { s with
    entry := BitVec.ofNat 64 (2 ^ 63 + 2 ^ 48 + 23 * 4096 + 3 * 256 + 0x24), inFrame := true, lines := 4 }))

theorem witness_RxPacketsAreTakenAndErrorsTold :
    ((w id).dev.Calm ∧ ((w id).dev.rxp 23).state ≠ .up ∧ RxUnit.lowPower 0 ≠ .clockStop) ∧
    (wPacket.dev.Calm ∧ (wPacket.dev.rxp 23).state = .up ∧ (wPacket.dev.rxp 23).dozes (wPacket.dev.cn P.rxp_lanes 23) = false ∧
      (wPacket.dev.rxp 23).skip = false ∧ (wPacket.dev.rxp 23).part = none) ∧
    (wPacket.dev.rxDsi 23 = false ∧ bit (wPacket.dev.cn P.rxp_protocol 23) 2 = false ∧ (wPacket.dev.rxp 23).cut = false ∧
      bit (wPacket.dev.rxp 23).synced 3 = true ∧ wPacket.dev.classify 0 23 ⟨3, 0x24, false, 0, [1, 2, 3], false⟩ = some 127 ∧
      (wPacket.dev.stream 127).inFrame = true ∧ (wPacket.dev.stream 127).taking = 0 ∧
      (∀ o, o < 16 → wPacket.dev.burstFollow o 23 = false)) := ⟨by decide, by decide, by decide⟩

/-- A device whose transmit port 15 is as `f` makes it. -/
def wTx (l : List (Nat × Nat × Nat)) (f : TxPort → TxPort) : State :=
  w (fun d => live l (((openSession d).onTx 15 f).onTg 15 (fun g => { g with state := .running })))

theorem witness_TxPortStartsSleepsAndWakes :
    (let s := wTx [(P.txp_source, 15, 1), (P.txp_deskew, 15, 0x100)] (fun p => { p with state := .stop })
     s.dev.Calm ∧ (s.dev.txp 15).state = .stop ∧ s.dev.txSource 15 = true ∧ s.dev.txDeskews 15 = true ∧
       (s.dev.txp 15).since + 80000 ≤ (s.now 5).abs) ∧
    (let s := wTx [(P.txp_source, 15, 2), (P.txp_lane_kbps, 15, 1500000), (P.txp_deskew, 15, 0)] (fun p => { p with state := .stop })
     s.dev.Calm ∧ (s.dev.txp 15).state = .stop ∧ s.dev.txSource 15 = true ∧ s.dev.txDeskews 15 = false) ∧
    (let s := wTx [(P.txp_source, 15, 2)] (fun p => { p with state := .deskew })
     s.dev.Calm ∧ (s.dev.txp 15).state = .deskew ∧ (s.dev.tgen 15).fresh = false) ∧
    (let s := wTx [(P.txp_source, 15, 1)] (fun p => { p with state := .deskew })
     { s.dev with tg := s.dev.tg.modify 15 (fun g => { g with fresh := true }) }.Calm ∧
       ({ s.dev with tg := s.dev.tg.modify 15 (fun g => { g with fresh := true }) }.tgen 15).fresh = true) ∧
    (let s := wTx [(P.txp_source, 15, 0), (P.txp_lp_ctrl, 15, 0x100)] (fun p => { p with state := .stop })
     s.dev.Calm ∧ (s.dev.txp 15).state = .stop ∧ s.dev.txSource 15 = false ∧ (s.dev.txp 15).quenched = false ∧
       bits (s.dev.ln P.txp_lp_ctrl 15) 8 8 ≠ 0 ∧
       (s.dev.txp 15).since + bits (s.dev.ln P.txp_lp_ctrl 15) 8 8 * msCycles ≤ (s.now 5).abs) ∧
    (let s := wTx [(P.txp_source, 15, 0), (P.txp_lp_ctrl, 15, 0xFF)] (fun p => { p with state := .stop })
     s.dev.Calm ∧ (s.dev.txp 15).state = .stop ∧ bits (s.dev.ln P.txp_lp_ctrl 15) 8 8 = 0) ∧
    (let s := wTx [] (fun p => { p with state := .wake }); s.dev.Calm ∧ (s.dev.txp 15).state = .wake ∧
      (s.dev.txp 15).since + msCycles ≤ (s.now 5).abs) :=
  ⟨by decide, by decide, by decide, by decide, by decide, by decide, by decide⟩

/-- Transmit port 15 with an open frame of stream entry 127, from which a commit has removed it. -/
def wFe (on : Nat) : State := w (fun d => (cfg [(P.stream_entry, 127, on * 2 ^ 63 + 2 ^ 31 + 5 * 2 ^ 26)] (openSession d)).onStream 127 (fun s => { s with
  entry := BitVec.ofNat 64 (2 ^ 63 + 2 ^ 31 + 5 * 2 ^ 26), dest := 0, inFrame := true, taking := BitVec.ofNat 64 (2 ^ 15), lines := 70000, fsAt := 9000000,
  period := some 100000 }))

theorem witness_FrameEndTimeoutClosesTheFrame : ∀ on ∈ [0, 1],
    (wFe on).dev.Calm ∧ ((wFe on).dev.stream 127).inFrame = true ∧ ((wFe on).dev.stream 127).takes 15 = true ∧ seOutVc ((wFe on).dev.stream 127).e = 5 ∧
    (wFe on).dev.removedAt 127 15 = true ∧ decide (seKey ((wFe on).dev.stream 127).e = seKey ((wFe on).dev.cn P.stream_entry 127)) = (on == 1) ∧
    ((wFe on).dev.stream 127).overdue ((wFe on).now 5).abs = true ∧
    (∀ j, j < 127 → ((wFe on).dev.stream j).takes 15 = false) := by decide
/-! ## Chapter 3 -/

/-- A message of session 2 of slot 31 under the key of `wMail`. -/
def mailMsg (tagged : Bool) : Jorek :=
  let j : Jorek := ⟨1, 0x0203, 95, 40, if tagged then 2 else 0, [1, 2], []⟩
  { j with tag := if tagged then j.tagOf [7] else [] }

/-- A device in Run with sessions open in slots 1 and 31; slot 31's mailbox holds `k` messages. -/
def wMail (k : Nat) : State := w (fun d => { (openSession d).onSlot 31 (fun x => { x with
  state := .open
  gen := 2
  cls := 1
  keys := { x.keys with usable := true, kP2d := [7] }
  highSeq := 103
  accepted := [103, 41]
  inbox := List.replicate k ⟨⟨1, 0x0203, 95, 41, 0, [], []⟩, ⟨0, 0, 0⟩, 5⟩ }) with pwr := { d.pwr with mode := .run, booted := true } })

theorem test_mail_parses : Jorek.parse (mailMsg true).encode = some (mailMsg true) ∧ Jorek.parse (mailMsg false).encode = some (mailMsg false) :=
  ⟨rfl, rfl⟩

theorem test_tag_length (k : Bytes) (j : Jorek) : (j.tagOf k).length = 8 := rfl

theorem witness_MessagesReachTheirMailbox :
    ((wMail 31).dev.Calm ∧ (wMail 31).dev.pwr.mode.takesMessages = true) ∧
    (31 < (wMail 31).dev.ctl.slots.length ∧ 31 = slotOf 95 ∧ ((wMail 31).dev.slot 31).state = .open ∧ ((wMail 31).dev.slot 31).id 31 = 95 ∧
      ((wMail 31).dev.slot 31).keys.usable = true ∧ (∀ h ∈ ((wMail 31).dev.slot 31).handled, ¬ h.seq = 40) ∧
      ((wMail 31).dev.slot 31).acceptsSeq 40 = true ∧ ((wMail 31).dev.slot 31).inbox.length < 32) ∧
    (mailMsg true).tag = (mailMsg true).tagOf ((wMail 31).dev.slot 31).keys.kP2d ∧
    (mailMsg false).tag ≠ (mailMsg false).tagOf ((wMail 31).dev.slot 31).keys.kP2d ∧
    (wMail 31).dev.sn P.ctl_tag_fail_count 0 < 2 ^ 32 - 1 ∧
    (∃ j, j.session = 0 ∧ j.typ = 0x0202 ∧ Jorek.parse j.encode = some j ∧ j.version = 1) ∧ (wMail 31).dev.ctl.pre.length < 8 ∧
    32 ≤ ((wMail 32).dev.slot 31).inbox.length ∧ (wMail 32).dev.sn P.ctl_rx_drop_count 0 < 2 ^ 32 - 1 ∧ 40 < seqLimit :=
  ⟨by decide, by decide, rfl, fun h => by have := congrArg List.length h; exact absurd this (by rw [test_tag_length]; decide), by decide,
    ⟨⟨1, 0x0202, 0, 0, 0, [1], []⟩, by decide⟩, by decide, by decide, by decide, by decide⟩

/-- A device whose second Ethernet port is on, with an address, and whose first is off. -/
def wEth : State := w (fun d => cfg [(P.ctl_eth_en, 0, 2), (P.ctl_ipv4_addr1, 0, 0xC0A80102), (P.ctl_icmp_en, 0, 1)] { openSession d with
  pwr := { d.pwr with mode := .autonomous, booted := true }, otp := { d.otp with mac1 := 5 } })

theorem witness_EthernetPortsAnswer :
    wEth.dev.Calm ∧ wEth.dev.pwr.mode.takesMessages = true ∧ wEth.dev.ethOn 1 = true ∧ wEth.dev.ipv4 1 ≠ 0 ∧ wEth.dev.cn P.ctl_icmp_en 0 = 1 ∧
    wEth.dev.ethOn 0 = false ∧ wEth.dev.vlanOk wEth.dev.vlanTag = true := by decide

/-- A device whose second CAN controller is on, with a partial message of node 3. -/
def wCan : State := w (fun d => ((cfg [(P.ctl_can_en, 0, 3), (P.ctl_can_id_base, 0, 0x1ABCD000)] { openSession d with
  pwr := { d.pwr with mode := .run, booted := true } }).setC P.ctl_partner_table 0 (.blob (List.replicate 10 0 ++ [2] ++ List.replicate 5 0))).onCan 1 (fun c => { c with partials := [⟨3, 2, [1, 2], 92⟩] }))

theorem witness_CanNodesSegmentAndReport :
    wCan.dev.Calm ∧ wCan.dev.pwr.mode.takesMessages = true ∧ wCan.dev.canAccepts 1 0x1ABCD040 = true ∧ bits 0x1ABCD040 5 6 = 2 ∧
    rd [128, 9] 0 1 = 128 ∧ (∀ p ∈ (wCan.dev.ctl.can.getD 1 {}).partials, p.node ≠ 2) ∧ wCan.dev.canAccepts 1 0x0ABCD040 = false ∧
    (∃ p ∈ (wCan.dev.ctl.can.getD 1 {}).partials, p.node = 3 ∧ p.last + 8 ≤ wCan.tb.heat.toNat) ∧
    (wCan.dev.ctl.can.getD 1 {}).state ≠ 2 := by decide

/-- A device that announces on its first Ethernet port. -/
def wSays (ms : Nat) : State := w (fun d => cfg [(P.ctl_announce_ms, 0, ms), (P.ctl_eth_en, 0, 1), (P.ctl_ipv4_addr0, 0, 0xC0A80101)] { openSession d with
  pwr := { d.pwr with mode := .autonomous, booted := true }, otp := { d.otp with mac0 := 5 } })

/-- A slot that has been silent too long, in a handshake or open, and that owns a buffer. -/
def wSilent (st : SessState) : State := { w (fun d => { (openSession d).onSlot 31 (fun x => { x with
  state := st, gen := 5, openedAt := 9, lastArrival := 9, inbox := [default] }) with
    pwr := { d.pwr with mode := .run, booted := true }, cru := { d.cru with bufs := [{ (default : Buf) with owner := 31 }] } }) with tb := ⟨1000000, 0⟩ }

theorem witness_AnnounceAndSessionTimeouts :
    ((wSays 1000).dev.Calm ∧ (wSays 1000).dev.cn P.ctl_announce_ms 0 ≠ 0 ∧ (wSays 1000).dev.pwr.mode.announces = true ∧
      (wSays 1000).dev.announceDue ((wSays 1000).now 5).abs = true ∧ (wSays 1000).dev.announceGroups 0 ≠ [] ∧ (wSays 1000).dev.announceGroups 1 = [] ∧
      { (wSays 1000).dev with ctl := { (wSays 1000).dev.ctl with announcedAt := some 10000000 } }.announceDue ((wSays 1000).now 5).abs = false) ∧
    ((wSays 0).dev.Calm ∧ (wSays 0).dev.cn P.ctl_announce_ms 0 = 0) ∧
    ((wSilent .handshake).dev.Calm ∧ (wSilent .handshake).dev.fwRuns = true ∧ 31 < (wSilent .handshake).dev.ctl.slots.length ∧ (∀ l ∈ (wSilent .handshake).dev.ctl.leases, l.slot ≠ 31) ∧
      ((wSilent .handshake).dev.slot 31).state = .handshake ∧
      ((wSilent .handshake).dev.slot 31).openedAt + (wSilent .handshake).dev.cn P.ctl_open_timeout_heats 0 * heatCycles ≤
        ((wSilent .handshake).now 5).abs) ∧
    ((wSilent .open).dev.Calm ∧ 31 < (wSilent .open).dev.ctl.slots.length ∧ (∀ l ∈ (wSilent .open).dev.ctl.leases, l.slot ≠ 31) ∧
      ((wSilent .open).dev.slot 31).state = .open ∧
      (wSilent .open).dev.fwRuns = true ∧ (wSilent .open).dev.holdsAny ((wSilent .open).now 5).abs 31 = false ∧
      (wSilent .open).dev.idleSince 31 + (wSilent .open).dev.cn P.ctl_session_idle_s 0 * 1000 * msCycles ≤ ((wSilent .open).now 5).abs) := ⟨by decide, by decide, by decide, by decide⟩

/-- A session with events sent long ago, sent lately and not sent. -/
def wResend : State := { w (fun d => { (openSession d).onSlot 31 (fun x => { x with state := .open, gen := 5, ev := { x.ev with nextNum := 4, entries :=
  [⟨1, 0x0301, 0, 1, false, ⟨5, 5⟩, [], some 7⟩, ⟨2, 0x0302, 0, 1, false, ⟨5, 5⟩, [], some 8999⟩, ⟨3, 0x0303, 0, 1, false, ⟨5, 5⟩, [], none⟩] } }) with
    pwr := { d.pwr with mode := .run, booted := true } }) with tb := ⟨9000, 0⟩ }

/-- A device with a lease whose deadline has passed and one that stands. -/
def wLease : State := w (fun d => { openSession d with pwr := { d.pwr with mode := .run, booted := true }, ctl := { (openSession d).ctl with
  leases := [⟨1, 23, 1, 1, 10, 9999999⟩, ⟨1, 22, 1, 1, 10, 99999999⟩] } })

theorem witness_EventsAreResentAndLeasesLapse :
    (wResend.dev.Calm ∧ wResend.dev.fwRuns = true ∧ 31 < wResend.dev.ctl.slots.length ∧ (wResend.dev.slot 31).state = .open ∧
      (wResend.dev.slot 31).ev.sentHeat ≠ some wResend.tb.heat.toNat ∧
      (∃ e ∈ (wResend.dev.slot 31).ev.entries, e.sentAt = some 7 ∧ 7 + wResend.dev.cn P.ctl_event_resend_heats 0 ≤ wResend.tb.heat.toNat)) ∧
    (wLease.dev.Calm ∧ wLease.dev.fwRuns = true ∧ wLease.dev.leaseOn 1 23 = some ⟨1, 23, 1, 1, 10, 9999999⟩ ∧ 9999999 < wLease.tb.heat.toNat * heatCycles ∧
      wLease.dev.pair.role ≠ .standby) := by decide

/-- A transfer of one write. -/
def oneXfer (seq : Nat) : Xfer := ⟨1, 1, seq, ⟨0, 0, 0⟩, [⟨0, 0x20, 0, true, 2, [1, 2]⟩]⟩

/-- A device whose last bus controller runs a transfer, with `q` waiting, in I3C mode, its lease held. -/
def wBus (q : List Xfer) : State := w (fun d => cfg [(P.i2c_mode, 7, 2)] { openSession d with
  pwr := { d.pwr with mode := .run }
  ctl := { (openSession d).ctl with
    i2c := d.ctl.i2c.set 7 { (default : I2cCtl) with running := some (oneXfer 5), queue := q, stuck := true }
    leases := [⟨0x0F, 7, 1, 1, 10, 99999999⟩] } })

theorem witness_BusTransfersEndAndInterrupt :
    ((wBus []).dev.Calm ∧ ((wBus []).dev.ctl.i2c.getD 7 {}).running = some (oneXfer 5) ∧ ((wBus []).dev.ctl.i2c.getD 7 {}).queue = []) ∧
    ((wBus [oneXfer 6, oneXfer 7]).dev.Calm ∧ ((wBus [oneXfer 6, oneXfer 7]).dev.ctl.i2c.getD 7 {}).queue = oneXfer 6 :: [oneXfer 7] ∧
      (wBus [oneXfer 6, oneXfer 7]).dev.scriptOn 7 = false ∧ (wBus [oneXfer 6, oneXfer 7]).dev.pinsHeld 2 = false ∧
      { (wBus []).dev with pwr := { (wBus []).dev.pwr with running := [(3, 5)], scripts := [⟨3, 7, 1, 0, []⟩] } }.scriptOn 7 = true) ∧
    ((∀ a ∈ [({ naks := 2, us := 30, data := [1] } : BusAnswer)], a.held = none ∧ a.us ≤ 30 ∧ a.naks ≤ 2 ∧ a.dataNack = false) ∧
      ((wBus []).dev.ctl.leases.drop 1).find? (fun l => l.kind == 0x0F && l.idx == 7 && l.live ((wBus []).now 5).abs) = none) ∧
    ((wBus []).dev.cn P.i2c_mode 7 = 2 ∧ (wBus []).dev.cn P.i2c_mode 6 ≠ 2 ∧
      (wBus []).dev.ctl.leases.find? (fun l => l.kind == 0x0F && l.idx == 7 && l.live ((wBus []).now 5).abs) = some ⟨0x0F, 7, 1, 1, 10, 99999999⟩) := by
  decide
/-! ## Chapters 9 and 11 -/

/-- A device whose generator 15 is as `f` makes it, in line 125 of a raster of 1,000 periods at 100 MHz; `m`: with mould 11 on its output, layer
7 of it showing a buffer. -/
def wTg (m : Bool) (f : Tg → Tg) : State := w (fun d =>
  let d := live [(P.mould_output, 11, if m then 15 else 255), (P.tg_enable, 15, 1), (P.tg_pclk_hz, 15, 100000000), (P.tg_h_active, 15, 1000),
    (P.tg_h_fp, 15, 0), (P.tg_h_sync, 15, 0), (P.tg_h_bp, 15, 0), (P.tg_v_sync, 15, 5), (P.tg_v_bp, 15, 5), (P.tg_v_active, 15, 100),
    (P.tg_v_fp, 15, 10)] ((openSession d).onTg 15 (fun x => f { x with head := 10, total := 120, markAt := 9000000, width := 1000 }))
  let d := d.onMould 11 (fun x => { x with composed := true, layers := x.layers.modify 7 (fun l => { l with
    shows := .source
    hold := some (0, 0)
    run := 254 }) })
  { d with cru := { d.cru with bufs := [{ (default : Buf) with depth := 1, slots := [{ (default : SlotRec) with state := .complete }] }] } })

/-- The generator at the end of its frame. -/
def wOver (m : Bool) (f : Tg → Tg) : State := wTg m (fun x => f { x with state := .running, latched := true })

theorem witness_PourCountsAndStartsTheFrame :
    (∀ m, (wOver m id).dev.Calm ∧ 15 < (wOver m id).dev.nTx ∧ ((wOver m id).dev.tgen 15).state = .running ∧
      (wOver m id).dev.frameOver 15 ((wOver m id).now 5).abs = true ∧ ((wOver m id).dev.tgen 15).reseat = false ∧
      ((wOver m id).dev.tgen 15).stopping = false ∧ ((wOver m id).dev.tgen 15).sends = false) ∧
    (wOver false id).dev.liveView.mouldOf 15 = none ∧ (wOver true id).dev.liveView.mouldOf 15 = some 11 ∧
    (let s := wOver true (fun x => { x with total := 126 })
     s.dev.Calm ∧ (s.dev.tgen 15).state = .running ∧ s.dev.frameOver 15 (s.now 5).abs = false) ∧
    (∀ r, (let s := wOver true (fun x => { x with reseat := r, stopping := !r })
      s.dev.Calm ∧ (s.dev.tgen 15).state = .running ∧ ((s.dev.tgen 15).reseat = true ∨ (s.dev.tgen 15).stopping = true))) := by decide

theorem witness_LatchLinePasses :
    (∀ r, (let s := wTg true (fun x => { x with state := .running, reseat := r })
      s.dev.Calm ∧ 15 < s.dev.nTx ∧ (s.dev.tgen 15).state = .running ∧ (s.dev.tgen 15).latched = false ∧ (s.dev.tgen 15).reseat = r ∧
      s.dev.atLine 15 (s.now 5).abs (s.dev.frameLatch 15) = true)) ∧
    ((wOver true id).dev.Calm ∧ ((wOver true id).dev.tgen 15).latched = true) ∧
    (let s := wTg true (fun x => { x with state := .running, head := 26 })
     s.dev.Calm ∧ (s.dev.tgen 15).state = .running ∧ s.dev.atLine 15 (s.now 5).abs (s.dev.frameLatch 15) = false) := by decide

/-- A stretched frame past its front porch; `mir`: mirrored. -/
def wPorch (mir : Bool) (f : Tg → Tg) : State :=
  let s := wTg true (fun x => f { x with state := .running, latched := true, stretched := true, total := 200 })
  { s with dev := s.dev.onPair (fun p => { p with mirrored := mir }) }

theorem witness_TestLinesPass : ∀ mir,
    (let s := wPorch mir (fun x => { x with stopping := true })
     s.dev.Calm ∧ 15 < s.dev.nTx ∧ (s.dev.tgen 15).state = .running ∧ (s.dev.tgen 15).stretched = true ∧
        s.dev.atLine 15 (s.now 5).abs (s.dev.frameLatch 15 + s.dev.ln P.tg_v_fp 15) = true ∧ s.dev.frameOver 15 (s.now 5).abs = false ∧
        s.dev.pair.mirrored = mir ∧ ((s.dev.tgen 15).reseat || (s.dev.tgen 15).stopping) = true ∧ s.dev.testCause (s.now 5).abs 15 ≠ none) ∧
    (let s := wPorch mir id
     s.dev.Calm ∧ (s.dev.tgen 15).state = .running ∧ (s.dev.tgen 15).stretched = true ∧
        s.dev.atLine 15 (s.now 5).abs (s.dev.frameLatch 15 + s.dev.ln P.tg_v_fp 15) = true ∧ s.dev.frameOver 15 (s.now 5).abs = false ∧
        (mir = false → s.dev.testCause (s.now 5).abs 15 = none)) := by decide

theorem witness_ReseatHoldsAndStopEnds :
    (let s := wOver true (fun x => { x with reseat := true })
     s.dev.Calm ∧ 15 < s.dev.nTx ∧ (s.dev.tgen 15).reseat = true ∧ (s.dev.tgen 15).stopping = false ∧ (s.dev.tgen 15).state ≠ .hold ∧
       s.dev.holdReady (s.now 5) 15 = true ∧ (s.dev.tgen 15).follow = none ∧
       (let u : State := { s with dev := s.dev.onTx 15 (fun p => { p with state := .run }) }
        u.dev.Calm ∧ (u.dev.txp 15).state = .run ∧ u.dev.holdReady (u.now 5) 15 = true)) ∧
    (let s := wOver true (fun x => { x with stopping := true })
     s.dev.Calm ∧ (s.dev.tgen 15).stopping = true ∧ (s.dev.tgen 15).state = .running ∧ s.dev.frameOver 15 (s.now 5).abs = true ∧
       s.dev.ln P.txp_source 15 ≠ 2) ∧
    (let s := wOver true (fun x => { x with stopping := true, state := .hold })
     s.dev.Calm ∧ (s.dev.tgen 15).stopping = true ∧ (s.dev.tgen 15).state = .hold) := by decide

/-- A held output whose hold is over and whose cupola is in state `c`. -/
def wRestart (c : CupState) (l : List (Nat × Nat × Nat)) (sh : Bool) : State :=
  let s := wTg true (fun x => { x with state := .hold, holdEnd := 10000005, started := true, pour := 0xFFFFFFFF#32, shed := sh })
  { s with dev := cfg l (live l (Dev.onTx { s.dev with clk := { s.dev.clk with cups := s.dev.clk.cups.map (fun x => { x with state := c }) } } 15 (fun p => { p with state := .hold }))) }

theorem witness_ReseatRestartGivesTheFreshFrame : ∀ c ∈ [CupState.locked, .flywheel, .holdover], ∀ l ∈ [[], [(P.tg_enable, 15, 1)], [(P.tg_enable, 15, 1), (P.txp_enable, 15, 1), (P.txp_source, 15, 1), (P.txp_deskew, 15, 0x100)]],
    ∀ sh, (wRestart c l sh).dev.Calm ∧ 15 < (wRestart c l sh).dev.nTx ∧ ((wRestart c l sh).dev.tgen 15).state = .hold ∧
    ((wRestart c l sh).dev.tgen 15).fresh = false ∧ ((wRestart c l sh).dev.tgen 15).holdEnd ≤ ((wRestart c l sh).now 5).abs ∧
    ((wRestart c l sh).dev.tgen 15).shed = sh ∧
    ((wRestart c l sh).dev.cup ((wRestart c l sh).dev.ln P.ladle_cupola 15)).state ∈ [.locked, .flywheel, .holdover] := by decide

/-- The same layer showing mould 11's ingot, or its fallback. -/
def wShows (k : Shows) : State :=
  let s := wTg true id
  { s with dev := s.dev.onMould 11 (fun x => { x with
    layers := x.layers.modify 7 (fun l => { l with shows := k, fb := some (0, 0) })
    ingot := { x.ingot with state := .inUse, set := [7] } }) }

theorem witness_RiserUnderrunHidesTheLayer : ∀ k ∈ [Shows.source, .fallback, .ingot],
    (wShows k).dev.Calm ∧ 11 < (wShows k).dev.nMould ∧ ((wShows k).dev.mould 11).composed = true ∧ (wShows k).dev.fetches 11 7 = true ∧
    ((wShows k).dev.layer 11 7).shows = k ∧ (wShows k).dev.yields 2 = false := by decide
/-! ## Chapters 6 to 8 and 12 -/

/-- A slot in one granule of bank 63. -/
def placed (st : SlotState) (seq : Nat) : SlotRec :=
  { (default : SlotRec) with state := st, seq := seq, map := 0x0040#16, place := [(63, [255])] }

/-- A buffer of two slots of 16 pixels by 8 lines, under handle 1029. -/
def wBuf (a b : SlotRec) : Buf :=
  { (default : Buf) with index := 5, gen := 1, fmt := 1, depth := 2, width := 16, height := 8, stride := 64, counter := 0xFFFFFFFF, slots := [a, b] }

/-- A device with that buffer. -/
def wCru (a b : SlotRec) (f : Dev → Dev) : State := { w (fun d => f { openSession d with cru := { d.cru with bufs := [wBuf a b] } }) with
  mem := [(67104768, 5), (67108863, 9)] }

/-- A sprue whose last chunk is to be written. -/
def wDrain : State := wCru (placed .complete 7) (placed .writing 0) (fun d => { d with
  spr := d.spr.set 15 { ({} : Sprue) with draining := true, slot := 1, acted := { ({} : SprueSet) with target := 1029 } } })

theorem witness_SprueDrainCompletesTheSlot :
    wDrain.dev.Calm ∧ 15 < wDrain.dev.nSprue ∧ (wDrain.dev.sprue 15).draining = true ∧
    wDrain.dev.buf (wDrain.dev.sprue 15).acted.target = some (wBuf (placed .complete 7) (placed .writing 0)) ∧
    (wDrain.dev.sprue 15).slot < (wBuf (placed .complete 7) (placed .writing 0)).slots.length := by decide

/-- A replay reader paced every `period` heats, with a buffer of two complete frames; `last`: its last frame start. -/
def wReplay (no period : Nat) (last : Option Nat) : State := wCru (placed .complete 7) (placed .complete 9) (fun d =>
  { d.setC P.cru_replay 0 (.blob (List.replicate 120 0 ++ leBytes 2 1029 ++ [2, 0] ++ leBytes 2 period ++ [0, 0])) with
    run := { d.run with replay := d.run.replay.set 15 { (default : Replay) with frameNo := no, startAt := last } } })

theorem witness_ReplayTakesTheNewestFrame :
    (let s := wReplay 65535 4 (some 7)
     s.dev.Calm ∧ s.dev.paceAt 15 (s.now 5) = some 10000000 ∧ (s.dev.run.replay.getD 15 {}).startAt ≠ some 10000000 ∧
     s.dev.buf (rd (s.dev.replayCfg 15) 0 2) = some (wBuf (placed .complete 7) (placed .complete 9)) ∧
     (wBuf (placed .complete 7) (placed .complete 9)).newestUpTo (s.dev.selLimit (rd (s.dev.replayCfg 15) 0 2)) = some 1 ∧
     s.dev.run.replay.length = 16 ∧ (∀ e, e < 128 → seOn (s.dev.stream e).e = false)) ∧
    (let s := wReplay 1 4 (some 10000000)
     s.dev.Calm ∧ s.dev.paceAt 15 (s.now 5) = some 10000000 ∧ (s.dev.run.replay.getD 15 {}).startAt = some 10000000) ∧
    (let s := wReplay 1 3 none
     s.dev.Calm ∧ s.dev.paceAt 15 (s.now 5) = none) := by decide

/-- An accepted upload of the slot's last bytes, or of some of them. -/
def oneUpload (last : Bool) : PendingUpload := ⟨1029, 1, 0, 509, last, [1, 0, 3], ⟨1, 1, 0x0601, 7, ⟨0, 0, 0⟩, 0, []⟩⟩

/-- A device with that upload accepted. -/
def wUploads (last : Bool) : State := wCru (placed .complete 7) (placed .writing 0) (fun d => { d with
  cru := { d.cru with uploads := [oneUpload last, oneUpload true] } })

theorem witness_UploadWritesItsBytes : ∀ last,
    (wUploads last).dev.Calm ∧ (wUploads last).Safe ∧ (wUploads last).dev.cru.uploads = oneUpload last :: [oneUpload true] ∧
    (wUploads last).dev.buf (oneUpload last).handle = some (wBuf (placed .complete 7) (placed .writing 0)) ∧
    (oneUpload last).slot < (wBuf (placed .complete 7) (placed .writing 0)).slots.length ∧
    (let b := wBuf (placed .complete 7) (placed .writing 0)
     let a (i : Nat) := (b.slot 1).addr (planeStart b.fmt b.height b.stride 0 + 509 + i)
     a 0 = some 67105277 ∧ a 1 = some 67105278 ∧ a 2 = some 67105279 ∧ 67105279 < crucibleBytes) ∧
    (let s : State := { wUploads last with dev := { (wUploads last).dev with cru := { (wUploads last).dev.cru with bufs := [] } } }
     s.dev.Calm ∧ s.Safe ∧ s.dev.cru.uploads = oneUpload last :: [oneUpload true] ∧ s.dev.buf (oneUpload last).handle = none) := by decide

/-- A slot that an upload left in Writing long ago, and a granule that waits for clearing. -/
def wStaleUp : State := { wCru { placed .writing 0 with byUpload := true, lastUpload := 5 } (placed .writing 0) (fun d => { d with
  cru := { d.cru with clearing := [(63, 255), (0, 0)], inject := some (63, true) } }) with tb := ⟨2000000, 0⟩ }

theorem witness_CrucibleSlotsAndGranulesAreEmptied :
    wStaleUp.dev.Calm ∧ wStaleUp.Safe ∧
    wStaleUp.dev.buf 1029 = some (wBuf { placed .writing 0 with byUpload := true, lastUpload := 5 } (placed .writing 0)) ∧
    5 + wStaleUp.dev.cn P.cru_upload_timeout_heats 0 ≤ wStaleUp.tb.heat.toNat ∧ (63, 255) ∈ wStaleUp.dev.cru.clearing ∧
    wStaleUp.dev.cru.inject = some (63, true) ∧ 63 < 64 ∧ 255 < 256 := by decide

/-- A device with an error in bank 63 in the same heat as another; the last patrol pass ended at `at'`. -/
def wEcc (scrub : Nat) (at' : Option Nat) : State := wCru (placed .complete 7) (placed .complete 9) (fun d => cfg [(P.cru_scrub_period_s, 0, scrub)] { d with
  cru := { d.cru with eccHeat := ⟨100, 1, ⟨100, 3⟩, [5]⟩, scrubAt := at' } })

theorem witness_CrucibleErrorsAndScrubbing :
    (let s := wEcc 8 none
     s.dev.Calm ∧ s.Safe ∧ s.dev.yields 0 = false ∧ s.dev.yields 1 = false ∧ s.dev.cru.injected = [] ∧
     s.dev.cru.eccHeat.heat = s.tb.heat.toNat ∧ s.dev.cru.corrected.length < s.dev.cn P.cru_ecc_rate_limit 0 ∧ s.dev.scrubDue (s.now 5) = true) ∧
    ((wEcc 0 none).dev.Calm ∧ (wEcc 0 none).dev.scrubDue ((wEcc 0 none).now 5) = false ∧
      (wEcc 8 (some 9999999)).dev.scrubDue ((wEcc 8 (some 9999999)).now 5) = false) := by decide

/-- A mould whose ingot is being built. -/
def wBuild : State := w (fun d => { (openSession d).onMould 11 (fun m => { m with
  ingot := { m.ingot with state := .building, set := [1, 2], rebuilds := [5, 99] } }) with
    cru := { d.cru with bufs := [wBuf { placed .complete 7 with holders := [.ingot 11, .replay 1] } (placed .complete 9)] }
    integ := { d.integ with reverseRun := 16 } })

theorem witness_IngotBuildAndReverseInput :
    wBuild.dev.Calm ∧ 11 < wBuild.dev.nMould ∧ 11 < wBuild.dev.moulds.length ∧ (wBuild.dev.mould 11).ingot.state = .building ∧
    wBuild.dev.integ.reverse ≠ true ∧ 16 ≤ wBuild.dev.integ.reverseRun ∧ wBuild.dev.integ.reverseRun < 80 := by decide

/-- Mould 11 composes output 15, in line 125, with window 7 on its 2 by 2 first pixels; `e`: expected values; `l`: a learning in progress. -/
def wChk (e : Bytes) (l : Option Learn) : State := w (fun d =>
  let d := (openSession d).onSlot 1 (fun x => { x with gen := 2, cls := 3 })
  let d := live [(P.mould_output, 11, 15), (P.chk_rect, 95, 2 ^ 33 + 2 ^ 49), (P.tg_pclk_hz, 15, 100000000), (P.tg_h_active, 15, 1000),
    (P.tg_h_fp, 15, 0), (P.tg_h_sync, 15, 0), (P.tg_h_bp, 15, 0)] { d with pwr := { d.pwr with mode := .run, booted := true } }
  ((d.setL P.chk_expect 95 (.blob e)).onTg 15 (fun x => { x with state := .running, head := 10, markAt := 9000000, width := 1000 })).onMould 11
    (fun m => { m with composed := true, learn := l }))

/-- A learning of window 7 in a session's name. -/
def oneLearn (left failed : Nat) (values : List (BitVec 32)) : Learn :=
  ⟨7, left, values, ⟨⟨1, 0x0901, 65, 5, 0, [], []⟩, ⟨0, 0, 0⟩, 5⟩, true, true, failed⟩

set_option maxRecDepth 8000 in
theorem witness_CheckWindowTakesItsCrc :
    (∀ e ∈ [[], [1, 1, 1, 1], [32, 202, 193, 163]],
      (wChk e none).dev.Calm ∧ 95 = 8 * 11 + 7 ∧ 11 < (wChk e none).dev.nMould ∧ 11 < (wChk e none).dev.moulds.length ∧
      7 < ((wChk e none).dev.mould 11).wins.length ∧ ((wChk e none).dev.mould 11).composed = true ∧
      ((wChk e none).dev.mouldView 11).winOn 11 7 = true ∧ (wChk e none).dev.winShown 11 7 = true ∧ ((wChk e none).dev.win 11 7).done = false ∧
      (wChk e none).dev.winPassed 11 ((wChk e none).now 5).abs (rectOf (((wChk e none).dev.mouldView 11).num P.chk_rect 95)) = true) ∧
    (∀ e ∈ [[], [1, 1, 1, 1], [32, 202, 193, 163]], ((wChk e none).dev.mouldView 11).expected 11 7 = if e = [] then [] else [rd e 0 4]) ∧
    (∀ l ∈ [oneLearn 0 0x8904 [], oneLearn 3 0x8905 [], oneLearn 0 0 [1, 2, 3, 4, 5], oneLearn 0 0 [1, 2]],
      (wChk [] (some l)).dev.Calm ∧ ((wChk [] (some l)).dev.mould 11).learn = some l ∧ (wChk [] (some l)).dev.fwRuns = true ∧
        (l.failed ≠ 0 ∨ l.left = 0) ∧ ((wChk [] (some l)).dev.slot (slotOf l.msg.j.session)).state = .open ∧
        ((wChk [] (some l)).dev.slot (slotOf l.msg.j.session)).id (slotOf l.msg.j.session) = l.msg.j.session) ∧
    ((oneLearn 0 0x8904 []).failed ≠ 0 ∧ 4 < (oneLearn 0 0 [1, 2, 3, 4, 5]).values.length ∧ (oneLearn 0 0 [1, 2]).values.length ≤ 4) ∧
    (let s : State := { wChk [] (some (oneLearn 0 0 [1])) with dev := (wChk [] (some (oneLearn 0 0 [1]))).dev.onSlot 1 (fun x => { x with gen := 3 }) }
     s.dev.Calm ∧ s.dev.fwRuns = true ∧ (s.dev.slot 1).id 1 ≠ (oneLearn 0 0 [1]).msg.j.session) ∧
    ((rectPixels (wChk [32, 202, 193, 163] none).dm 11 ⟨0, 0, 2, 2⟩).foldl (fun c p => crcFeed c (checkBytes p)) 0xFFFFFFFF#32 ^^^ 0xFFFFFFFF#32).toNat = rd [32, 202, 193, 163] 0 4 :=
  ⟨by decide, by decide, by decide, by decide, by decide, by decide⟩
/-! ## Chapter 13 -/

/-- A device whose cupola 3 is in a state. -/
def wCup (st : CupState) (since : Nat) : State :=
  w (fun d => (openSession d).onCup 3 (fun c => { c with state := st, since := since, n := 400, mem := [⟨400, 5⟩] }))

/-- A device whose cupolas are all locked and clock running outputs. -/
def wLocked : State := w (fun d => live [(P.ladle_cupola, 15, 3)] { (openSession d).onTg 15 (fun g => { g with state := .running }) with
  clk := { d.clk with cups := d.clk.cups.map (fun c => { c with state := .locked, qualified := 7 }) } })

theorem witness_CupolasSearchAcquireAndLock :
    (∀ st ∈ [CupState.search, .locked], (wCup st 9200000).dev.Calm ∧ ((wCup st 9200000).dev.cup 3).state = st) ∧
    (let s := wCup .acquire 9200000
     s.dev.Calm ∧ (s.dev.cup 3).state = .acquire ∧ s.dev.lockDue (s.now 5) 3 = true ∧
       (s.dev.cup 3).since + 12000 + 32 * s.dev.cn P.cupola_lock_n 3 ≤ (s.now 5).abs) ∧
    (let s := wCup .acquire 10000000
     s.dev.Calm ∧ (s.dev.cup 3).state = .acquire ∧ s.dev.lockDue (s.now 5) 3 = false) := by decide

theorem witness_CupolaLossHoldsItsOutputs :
    wLocked.dev.Calm ∧ wLocked.dev.clk.ref.lost = false ∧ (wLocked.dev.cup 3).state = .locked ∧ (wLocked.dev.cup 0).state = .locked ∧
    4 * wLocked.dev.cn P.cupola_lock_win_ps 3 < (-1000000 : Int).natAbs ∧ 4 * wLocked.dev.cn P.cupola_lock_win_ps 0 < (1000000 : Int).natAbs ∧ 15 < wLocked.dev.nTx ∧ wLocked.dev.ln P.ladle_cupola 15 = 3 ∧
    (wLocked.dev.tgen 15).state = .running := by decide

/-- A device with a run of glitches in the heat, the last one `ago` core cycles before cycle 5; its cupolas flywheel. -/
def wGlitched (ago : Nat) : State := w (fun d => { d with clk := { d.clk with
  cups := d.clk.cups.map (fun c => { c with state := .flywheel })
  ref := { d.clk.ref with glitches := ⟨100, 64, ⟨100, 1⟩, []⟩, lastGlitch := 10000005 - ago } } })

/-- A device whose reference is lost since heat 1. -/
def wRefLost (told : Bool) : State := { w (fun d => { openSession d with clk := { d.clk with ref := { d.clk.ref with
  lost := true, since := 100000, limitTold := told } } }) with tb := ⟨281474976710655, 0⟩ }

theorem witness_ReferenceGlitchesAndLosses :
    ((wGlitched 256).dev.Calm ∧ (wGlitched 256).dev.clk.ref.lastGlitch + 8 * 32 ≤ ((wGlitched 256).now 5).abs ∧
      (wGlitched 255).dev.Calm ∧ ((wGlitched 255).now 5).abs < (wGlitched 255).dev.clk.ref.lastGlitch + 8 * 32) ∧
    (wLocked.dev.Calm ∧ wLocked.dev.clk.ref.lost = false ∧ wLocked.dev.glitchRun (wLocked.now 5) = false) ∧
    (let s := wGlitched 256
     s.dev.Calm ∧ s.dev.clk.ref.lost = false ∧ s.dev.glitchRun (s.now 5) = true) ∧
    (∀ k, k < 4 → (wLocked.dev.cup k).state ≠ .off) ∧ (wRefLost true).dev.Calm ∧ (wRefLost true).dev.clk.ref.lost = true ∧
    ((wRefLost true).dev.cup 3).state = .off := by decide

theorem witness_HoldoverEndsByRequalification :
    ((wRefLost false).dev.Calm ∧ (wRefLost false).dev.clk.ref.lost = true ∧ (wRefLost false).dev.clk.ref.limitTold = false ∧
      (wRefLost false).dev.cn P.cupola_holdover_limit_ms 0 ≤ (((wRefLost false).now 5).abs - (wRefLost false).dev.clk.ref.since) / msCycles) ∧
    (wRefLost true).dev.clk.ref.limitTold = true ∧ (wRefLost true).dev.clk.ref.relockAt = none ∧ (wRefLost true).dev.pairOn = false ∧
    (wRefLost true).dev.pair.role = .single ∧ (wRefLost true).dev.requalDue ((wRefLost true).now 5) (-200000) = true ∧
    (wRefLost true).dev.requalDue ((wRefLost true).now 5) 200001 = false := by decide

/-- A device whose ladle `i` is as `f` makes it. -/
def wLadle (i : Nat) (f : Ladle → Ladle) : State := w (fun d => (openSession d).onLadle i (fun l => f { l with on := true, d := 100 }))

theorem witness_LadlesGlideRecentreAndFallBack :
    (∀ i ∈ [15, 19], let s := wLadle i (fun l => { l with gliding := some 148500000, target := 24000000, base := 1 })
      s.dev.Calm ∧ (s.dev.ladle i).gliding = some 148500000 ∧
        (s.dev.targetRot i - (s.dev.ladle i).base).natAbs * heatCycles ≤ s.dev.glideStep i 148500000 * 99999) ∧
    (∀ b ∈ [(2 ^ 46 : Int), -(2 ^ 46)], let s := wLadle 19 (fun l => { l with base := b })
      let dv := if (s.dev.ladle 19).base < 0 then (s.dev.ladle 19).d + 1 else (s.dev.ladle 19).d - 1
      s.dev.Calm ∧ (s.dev.ladle 19).on = true ∧ (s.dev.ladle 19).dividing = false ∧ 2 ^ 45 < (s.dev.ladle 19).base.natAbs ∧ 4 ≤ dv ∧ dv ≤ 4096 ∧
        (rebase (s.dev.ladle 19).base (s.dev.ladle 19).d dv).natAbs < (s.dev.ladle 19).base.natAbs) ∧
    (let s := wLadle 19 (fun l => { l with profile := [1, 0] })
     s.dev.Calm ∧ (s.dev.ladle 19).profile ≠ [] ∧ (s.dev.ladle 19).on = true ∧ (s.dev.ladle 19).dividing = false ∧
       (s.dev.ladle 19).profAt + max 1 (profLoop (profSegs (s.dev.ladle 19).profile)) ≤ (s.now 5).abs) := by
  decide

/-- A device whose FSYNC output 7 follows every third pour of generator 15, now at the start of its sixth; its last pulse ends at `e`. -/
def wFsync (held e : Nat) : State := w (fun d =>
  let d := live [(P.tg_pclk_hz, 15, 100000000)] ((cfg [(P.fsync_source, 7, 1 + 15 * 16), (P.fsync_period, 7, 3), (P.pair_enable, 0, held),
    (P.pair_shared, 0, 1)] d).onTg 15 (fun g => { g with state := .running, pour := 6, markAt := 10000004, width := 1000 }))
  { d with clk := { d.clk with fsyncEnd := d.clk.fsyncEnd.set 7 e } })

theorem witness_FsyncPulsesOnSchedule :
    (wFsync 0 0).dev.Calm ∧ (wFsync 0 0).dev.fsyncDue ((wFsync 0 0).now 5) 7 = true ∧ (wFsync 0 0).dev.pinsHeld 0 = false ∧
    (wFsync 0 0).dev.clk.fsyncEnd.getD 7 0 ≤ ((wFsync 0 0).now 5).abs ∧ ((wFsync 0 20000000).now 5).abs < (wFsync 0 20000000).dev.clk.fsyncEnd.getD 7 0 ∧
    (wFsync 1 0).dev.Calm ∧ (wFsync 1 0).dev.pinsHeld 0 = true ∧ (wFsync 0 0).dev.fsyncDue ((wFsync 0 0).now 5) 6 = false := by decide
/-! ## Chapter 14 -/

/-- A device whose serial port 11 is a slave in a state `x`, of two slots of 16 bits. -/
def wSap (f : Sap → Sap) : State := w (fun d =>
  cfg [(P.sap_clocking, 11, 0), (P.sap_slots, 11, 2), (P.sap_slot_bits, 11, 16), (P.sap_tx_mask, 11, 3), (P.sap_rx_mask, 11, 1)] ((openSession d).onSap 11 f))

theorem witness_SerialPortsFollowTheirClock :
    (let s := wSap (fun x => { x with state := 1, frame := 7, lastEdge := some 10000000, nextRx := 1 })
     s.dev.Calm ∧ s.dev.sapMaster 11 = false ∧ (s.dev.sap 11).state = 1 ∧ (s.dev.sap 11).stopping = false ∧ (s.dev.sap 11).lastEdge ≠ none ∧
       s.dev.sapBits 11 = 32 ∧ (s.dev.sap 11).rx.q.length < 64 ∧ (s.dev.sap 11).rxMask ≠ (s.dev.sap 11).nextRx) ∧
    (let s := wSap (fun x => { x with state := 1, stopping := true })
     s.dev.Calm ∧ s.dev.sapMaster 11 = false ∧ (s.dev.sap 11).state = 1 ∧ (s.dev.sap 11).stopping = true ∧
       (s.dev.sap 11).rxMask = (s.dev.sap 11).nextRx ∧ (s.dev.sap 11).txMask = (s.dev.sap 11).nextTx) ∧
    (let s := wSap (fun x => { x with state := 1, lastEdge := some 9000000, refRate := 4800000 })
     s.dev.Calm ∧ s.dev.sapMaster 11 = false ∧ (s.dev.sap 11).state = 1 ∧
       ((s.dev.sap 11).lastEdge.getD (s.dev.sap 11).holdTo) + (s.dev.sap 11).stopAfter ≤ (s.now 5).abs) ∧
    (let s := wSap (fun x => { x with state := 2, good := 8, lastEdge := some 10000000 })
     s.dev.Calm ∧ s.dev.sapMaster 11 = false ∧ (s.dev.sap 11).state = 2 ∧ 8 ≤ (s.dev.sap 11).good ∧ (s.dev.sap 11).lastEdge = some 10000000 ∧
       goodPeriod (s.dev.cn P.sap_rate_hz 11) ((s.now 5).abs - 10000000) = false ∧ goodPeriod 48000 16667 = true) := by decide

/-- A device with a microphone pair on and a tundish running, its input idle for two heats. -/
def wAudio (stuck state : Nat) : State := w (fun d => { openSession d with aud := { d.aud with
  pdms := d.aud.pdms.modify 3 (fun x => { x with on := true, stuck := stuck })
  tuns := d.aud.tuns.modify 15 (fun x => { x with state := state, idle := 2 }) } })

theorem witness_AudioMasksAndHolds :
    (let s := wSap (fun x => { x with state := 1, rxMask := 1, txMask := 0, nextRx := 1, nextTx := 3 })
     s.dev.Calm ∧ (s.dev.sap 11).state = 1 ∧ (s.dev.sap 11).rxMask = (s.dev.sap 11).nextRx ∧ (s.dev.sap 11).txMask ≠ (s.dev.sap 11).nextTx) ∧
    ((wSap (fun x => { x with state := 2 })).dev.Calm ∧ ((wSap (fun x => { x with state := 2 })).dev.sap 11).state ≠ 1) ∧
    (∀ st ∈ [1, 2], (wAudio 0 st).dev.Calm ∧ ((wAudio 0 st).dev.pdm 3).on = true ∧ bit ((wAudio 0 st).dev.pdm 3).stuck 1 = false ∧
      ((wAudio 0 st).dev.pdm 3).since + msCycles ≤ ((wAudio 0 st).now 5).abs ∧
      ((wAudio 0 st).dev.tun 15).state = st ∧ 2 ≤ ((wAudio 0 st).dev.tun 15).idle) ∧
    ((wAudio 2 2).dev.Calm ∧ bit ((wAudio 2 2).dev.pdm 3).stuck 1 = true) := by decide

/-- A device whose queues hold something, with embedded-audio instance 7 in a mode and a packet formed for output 9, a port of a source in Run;
a generator there is in its porch. -/
def wQueues (mode src : Nat) : State := w (fun d => live [(P.txp_source, 9, src), (P.tg_pclk_hz, 9, 100000000), (P.tg_h_active, 9, 1000),
    (P.tg_h_fp, 9, 100), (P.tg_h_sync, 9, 0), (P.tg_h_bp, 9, 0)] (cfg [(P.eaud_ctrl, 7, mode + 0x3F * 256 + 5 * 65536 + 9 * 1048576 + 2 ^ 42)]
  { (((openSession d).onSlot 31 (fun x => { x with
    state := .open
    inbox := [default]
    ev := { x.ev with mask := 0xFFFF, lost := 65530, entries := [⟨1, 0x0301, 0, 1, false, ⟨5, 5⟩, [], none⟩] } })).onTg 9 (fun x => { x with
      state := .running, markAt := 9999988, width := 1100 })).onTx 9 (fun p => { p with state := .run }) with
    aud := { d.aud with
      saps := d.aud.saps.modify 11 (fun x => { x with state := 1, rx := { x.rx with q := [default] }, tx := { x.tx with q := [default] } })
      eauds := d.aud.eauds.modify 7 (fun x => { x with formed := some [1, 2, 3], q := { x.q with q := [default] } }) } }))

theorem witness_QueuesAreResetAndAudioIsSent :
    ((wQueues 1 1).dev.Calm ∧ 31 < (wQueues 1 1).dev.ctl.slots.length ∧ ((wQueues 1 1).dev.slot 31).state = .open ∧
      ((wQueues 1 1).dev.slot 31).ev.wants 0x0205 = true) ∧
    (((wQueues 1 1).dev.eaud 7).formed = some [1, 2, 3] ∧ (wQueues 1 1).dev.eaudMode 7 ≠ 2) ∧
    (∀ src ∈ [1, 2], (wQueues 2 src).dev.Calm ∧ ((wQueues 2 src).dev.eaud 7).formed = some [1, 2, 3] ∧ (wQueues 2 src).dev.eaudMode 7 = 2 ∧
      (wQueues 2 src).dev.cn P.eaud_ctrl 7 / 2 ^ 20 % 16 = 9 ∧ ((wQueues 2 src).dev.txp 9).state = .run ∧
      (wQueues 2 src).dev.ln P.txp_source 9 = src ∧ 9 < (wQueues 2 src).dev.run.outs.length ∧
      ((wQueues 2 src).dev.eaud 7).q.q.length < max 1 (bits ((wQueues 2 src).dev.cn P.eaud_ctrl 7) 40 7)) ∧
    (wQueues 2 1).dev.audioLine ((wQueues 2 1).now 5) 7 9 = true ∧ ((wQueues 2 1).dev.onEaud 7 (fun x => { x with sentIn := some (0, 0) })).audioLine ((wQueues 2 1).now 5) 7 9 = false :=
  ⟨by decide, by decide, by decide, by decide, by decide⟩
/-! ## Chapter 15 -/

/-- The link's receiver at stage `k` for `ago` core cycles at cycle 5, its transmitter in training. -/
def wStage (k ago : Nat) : State := w (fun d => (openSession d).onMor (fun m => { m with tx := 1, stage := k, stageAt := 10000005 - ago }))

/-- A stage that has failed long enough ago. -/
def wRetry : State := w (fun d => d.onMor (fun m => { m with tx := 1, stage := 3, retryAt := some 10000005 }))

theorem witness_MorcelReceiverClimbsItsStages :
    (∀ k ∈ [1, 2, 3, 4, 5, 6], let s := wStage k (stageLeast k)
      s.dev.Calm ∧ s.dev.mor.stage = k ∧ 1 ≤ k ∧ k < 7 ∧ s.dev.mor.retryAt = none ∧ s.dev.mor.farState ≠ 7 ∧
        s.dev.mor.stageAt + stageLeast k ≤ (s.now 5).abs ∧ (k ≠ 1 → (s.now 5).abs ≤ s.dev.mor.stageAt + stageBound k)) ∧
    (∀ k ∈ [1, 2, 3, 4, 5, 6], let s := wStage k (stageBound k)
      s.dev.Calm ∧ s.dev.mor.stage = k ∧ s.dev.mor.retryAt = none ∧ s.dev.mor.stageAt + stageBound k ≤ (s.now 5).abs) ∧
    (mapOk 0o76543210 = true ∧ ∀ k ∈ [8, 0, 1, 2, 3, 4, 5, 6], k ≤ 8) ∧
    (wRetry.dev.Calm ∧ wRetry.dev.mor.retryAt = some 10000005 ∧ 10000005 ≤ (wRetry.now 5).abs) := by decide

/-- The link in training at stage 6. -/
def wTrain (req : Option Nat) (far : Nat) : State := w (fun d => (openSession d).onMor (fun m => { m with
  tx := 1, stage := 6, farSix := some 8400005, farState := far, lanes := m.lanes.modify 7 (fun l => { l with reqAt := req, pre := 7 }) }))

/-- The link up. -/
def wUp : State := w (fun d => (openSession d).onMor (fun m => { m with tx := 2, stage := 7, farState := 7, up := true, slept := true }))

theorem witness_MorcelTrainsComesUpAndIsLost :
    (∀ req ∈ [none, some (10000005 - 1311), some 10000000], let s := wTrain req 6
      s.dev.Calm ∧ s.dev.mor.retryAt = none ∧ 7 < s.dev.mor.lanes.length ∧ s.dev.mor.tx = 1 ∧ 5 ≤ s.dev.mor.stage ∧
      (s.dev.morLane 7).reqAt = req ∧ s.dev.morTrains = true) ∧
    ((wTrain none 7).dev.Calm ∧ wUp.dev.mor.tx ≠ 0 ∧ (cfg [(P.pair_mor_ctrl, 0, 0)] wUp.dev).Calm ∧
      (cfg [(P.pair_mor_ctrl, 0, 0)] wUp.dev).morTrains = false) ∧
    (6 ≤ (wTrain none 6).dev.mor.stage ∧ (wTrain none 6).dev.mor.farSix = some 8400005 ∧ 8400005 + 1600000 ≤ ((wTrain none 6).now 5).abs) ∧
    (wUp.dev.Calm ∧ wUp.dev.mor.retryAt = none ∧ wUp.dev.mor.stage = 7 ∧ wUp.dev.mor.farState = 7 ∧ wUp.dev.mor.slept = true) ∧
    ((wStage 6 0).dev.Calm ∧ 6 ≤ (wStage 6 0).dev.mor.stage ∧ (wStage 6 0).dev.mor.slept = false) := by decide

/-- A frame of channel 1. -/
def f1 (seq : Nat) : MorFrame := ⟨1, true, true, false, seq, [1, 2]⟩

/-- A direction that may slumber. -/
def wSlumber : State := w (fun d => cfg [(P.pair_mor_slumber_us, 0, 100)] (d.onMor (fun m => { m with
  tx := 2, stage := 7, busyAt := 9920005, rowsAt := 9920005 })))

/-- A waking direction with frames and a control block queued, the pair's first. -/
def wWake : State := w (fun d => d.onMor (fun m => { m with
  tx := 4, stage := 7, wakeAt := some (10000005 - wakeCycles), ctlq := [(0x4B, [1, 2])], turn := 4
  queue := [⟨4, true, true, false, 0, [3]⟩, f1 1, ⟨0, true, true, false, 0, [4]⟩, ⟨5, true, true, false, 0, [6]⟩] }))

/-- A link with two frames unacknowledged. -/
def wWindow (resends : Nat) (wait : List MorFrame) : State := w (fun d => cfg [(P.pair_mor_rtx_us, 0, 100)] ((openSession d).onMor (fun m => { m with
  tx := 2, stage := 7, farState := 7, up := true, window := [f1 1, f1 2], nextSeq := 3, expect := 1, resends := resends, wait := wait, ackAt := 9920005 })))

theorem witness_MorcelSleepsAndCarriesItsFrames :
    (wSlumber.dev.Calm ∧ wSlumber.dev.mor.tx = 2 ∧ wSlumber.dev.cn P.pair_mor_slumber_us 0 ≠ 0 ∧ wSlumber.dev.morForwards = false ∧
      (wSlumber.dm.dev.morRows (wSlumber.now 5).abs).mor.busyAt + wSlumber.dev.cn P.pair_mor_slumber_us 0 * 800 ≤ (wSlumber.now 5).abs) ∧
    (wWake.dev.Calm ∧ wWake.dev.mor.tx = 4 ∧ wWake.dev.mor.stage = 7 ∧ wWake.dev.mor.retryAt = none ∧
      wWake.dev.mor.wakeAt = some (10000005 - wakeCycles) ∧ 10000005 - wakeCycles + wakeCycles ≤ (wWake.now 5).abs) ∧
    (frameOk (f1 1) false = false ∧ frameOk (f1 1) true = true ∧ (f1 1).ch = 1) ∧
    ((wWindow 6 []).dev.Calm ∧ (wWindow 6 []).dev.mor.stage = 7 ∧ (wWindow 6 []).dev.mor.retryAt = none ∧
      (f1 1).seq = (wWindow 6 []).dev.mor.expect ∧ (wWindow 6 []).dev.pairOn = false ∧ (wWindow 6 []).dev.mor.tx = 2) ∧
    (let f : MorFrame := ⟨10, true, false, false, 0, [1]⟩
     frameOk f true = true ∧ 3 ≤ f.ch ∧ f.ch ≤ 10 ∧ f.sop = true ∧ f.eop = false ∧ f.ch - 3 < wWake.dev.mor.fwdPart.length) ∧
    (let f : MorFrame := ⟨10, true, true, false, 0, [1]⟩
     frameOk f true = true ∧ 3 ≤ f.ch ∧ f.ch ≤ 10 ∧ f.eop = true) ∧
    (let f : MorFrame := ⟨11, true, true, false, 0, [1]⟩
     frameOk f true = true ∧ 10 < f.ch) ∧
    (∀ wait ∈ [[], [f1 3]], (wWindow 6 wait).dev.Calm ∧ (wWindow 6 wait).dev.mor.up = true ∧ (wWindow 6 wait).dev.mor.wait = wait ∧
      ∃ f ∈ (wWindow 6 wait).dev.mor.window, newer f.seq 1 = false) ∧
    (∀ k ∈ [6, 7], (wWindow k []).dev.Calm ∧ (∀ f ∈ (wWindow k []).dev.mor.window, newer f.seq 0 = true) ∧ (wWindow k []).dev.mor.window ≠ [] ∧
      (wWindow k []).dev.mor.resends = k ∧ (wWindow k []).dev.mor.stage = 7 ∧
      (wWindow k []).dev.mor.ackAt + (wWindow k []).dev.cn P.pair_mor_rtx_us 0 * 800 ≤ ((wWindow k []).now 5).abs) ∧
    (7 ≤ wWake.dev.mor.stage ∧ has [0x1E, 0x2D, 0x33, 0x4B, 0x55, 0x66, 0x78, 0x87, 0x99] 0xFF = false) :=
  ⟨by decide, by decide, by decide, by decide, by decide, by decide, by decide, by decide, by decide, by decide⟩
/-! ## Chapter 16 -/

/-- A unit of a pair whose link and keys stand, with a role. -/
def wPair (role : Role) (f : Dev → Dev := id) : State := w (fun d =>
  f (cfg [(P.pair_enable, 0, 1)] ({ (openSession d).onMor (fun m => { m with tx := 2, stage := 7, farState := 7, up := true }) with
    key := { d.key with kIn := [7], kOut := [9] }
    pair := { d.pair with role := role, peer := leBytes 8 99 ++ List.replicate 24 0, hbAt := some 9900000, aliveAt := some 9900000 } })))

/-- A follower that is aligned. -/
def wAligned : State := wPair .standby (fun d => { d with work := { d.work with aligned := true, missedPulses := 2 } })

/-- A standby that sees neither heartbeats nor its peer's pin. -/
def wAlone : State := wPair .standby (fun d => { d with
  pair := { d.pair with hbAt := some 9801604, aliveAt := some 9801604, ready := true }, pwr := { d.pwr with mode := .standby } })

/-- A unit whose peer's pin has gone while its heartbeats go on. -/
def wPinGone : State := wPair .active (fun d => { d with pair := { d.pair with aliveAt := some 9801604 } })

theorem witness_PairWatchesPulsePinAndHeartbeat :
    ((wPair .standby).dev.Calm ∧ (wPair .standby).dev.work.aligned = false ∧ (wPair .standby).dev.hbSeen ((wPair .standby).now 5).abs = true ∧
      (wPair .standby).dev.pair.peer ≠ [] ∧ (wPair .standby).dev.work.step = none) ∧
    ((wPair .joining).dev.Calm ∧ (wPair .joining).dev.pair.role = .joining ∧ (wPair .joining).dev.work.aligned = false ∧
      (wPair .joining).dev.hbSeen ((wPair .joining).now 5).abs = true) ∧
    (wAligned.dev.Calm ∧ wAligned.dev.pair.role = .standby ∧ wAligned.dev.syncOffset (-2500) = -2 ∧
      1 < (wAligned.dev.syncOffset (-2500)).natAbs ∧ (wAligned.dev.syncOffset (-2500)).natAbs ≤ wAligned.dev.cn P.time_pair_align_tol 0 ∧
      wAligned.dev.work.correctedAt ≠ some 100 ∧ wAligned.dev.cn P.time_pair_align_tol 0 < (wAligned.dev.syncOffset 125000000).natAbs) ∧
    (wPinGone.dev.Calm ∧ wPinGone.dev.pairOn = true ∧ wPinGone.dev.aliveSeen (wPinGone.now 5).abs = false ∧
      wPinGone.dev.hbSeen (wPinGone.now 5).abs = true ∧ wPinGone.dev.pair.aliveTold = false) ∧
    (wAlone.dev.Calm ∧ wAlone.dev.pairOn = true ∧ wAlone.dev.pair.hbAt.isSome = true ∧ wAlone.dev.hbSeen (wAlone.now 5).abs = false ∧
      wAlone.dev.pair.hbTold = false ∧ wAlone.dev.pair.mirrored = false) ∧
    (let s := wPair .active (fun d => d.onPair (fun p => { p with missed := 2, ownOut := true }))
     s.dev.Calm ∧ 2 ≤ s.dev.pair.missed) :=
  ⟨by decide, by decide, by decide, by decide, by decide, by decide⟩

/-- A message of the pair under the link key. -/
def pairMsg (typ : Nat) (payload : Bytes) : Jorek :=
  let j : Jorek := ⟨1, typ, 0xFFFE, 5, 2, payload, []⟩
  { j with tag := j.tagOf [7] }

/-- A heartbeat of an active peer without records. -/
def hbPayload : Bytes := leBytes 8 100 ++ [4, 2] ++ leBytes 2 0 ++ leBytes 20 0

/-- A message of the pair opens on a unit whose link and key stand. -/
theorem pairMsg_opens {d : Dev} {typ : Nat} {payload : Bytes} (hp : Jorek.parse (pairMsg typ payload).encode = some (pairMsg typ payload))
    (hk : d.key.kIn = [7]) (hu : d.mor.up = true) (hs : d.pair.seqIn = 0) (ht : d.pair.taken = []) :
    d.pairOpen typ (pairMsg typ payload).encode = some (payload, d.onPair (fun p =>
      { p with seqIn := max p.seqIn 5, taken := 5 :: p.taken.filter (fun s => decide (max p.seqIn 5 < s + 64)) })) := by
  have hg : (pairMsg typ payload).tag = (pairMsg typ payload).tagOf [7] := rfl
  unfold Dev.pairOpen
  rw [hp]
  simp only [hk, hu, hs, ht, ← hg]
  simp [pairMsg, bit, has] <;> rfl

/-- The payloads the statements take: LADLE_SYNC of one ladle, RELOCK, YIELD at once and later, IMAGE_INFO, SNAP_REQ. -/
abbrev payloads : List (Nat × Bytes) :=
  [(0x0C01, hbPayload), (0x0C04, leBytes 8 101 ++ [1, 0, 0, 0] ++ leBytes 24 3), (0x0C05, leBytes 16 200), (0x0C02, leBytes 8 0 ++ leBytes 8 1),
   (0x0C02, leBytes 8 105 ++ leBytes 8 1), (0x0E20, leBytes 2 1 ++ leBytes 18 1), (0x0C03, [3, 0, 0, 0])]

theorem test_pair_messages_parse : ∀ x ∈ payloads, Jorek.parse (pairMsg x.1 x.2).encode = some (pairMsg x.1 x.2) := by
  simp only [List.forall_mem_cons, List.not_mem_nil, false_imp_iff, implies_true, and_true]
  exact ⟨rfl, rfl, rfl, rfl, rfl, rfl, rfl⟩

/-- A hello of the peer under the pair secret of slot 3; `good`: with the tag of its key, else without one. -/
def hello (good : Bool) : Jorek :=
  let j : Jorek := ⟨1, 0x0D10, 0xFFFE, 1, if good then 2 else 0, leBytes 8 77 ++ leBytes 24 1, []⟩
  { j with tag := if good then j.tagOf (Dev.reset.helloKey [1] 77) else [] }

/-- A unit with a pair secret. -/
def wSecret : State := wPair .standby (fun d => cfg [(P.key_pair_slot, 0, 3)] { d with key := { d.key with
  ownNonce := some [8], slots := d.key.slots.modify 3 (fun k => { k with state := 1, typ := 3, usable := true, key := [1] }) } })

/-- A unit that has named no switch of V, and its peer's IMAGE_INFO of STATE_VER 0 with a switch at heat 103. -/
abbrev infoPayload : Bytes := leBytes 2 0 ++ leBytes 10 0 ++ leBytes 8 103

/-- An active unit in the middle of a resynchronisation. -/
def wResync : State := wPair .active (fun d => d.onPair (fun p => { p with resync := some (98, 6) }))

/-- Messages to an active unit: heartbeats of a peer that is not active and of one that is, of a higher epoch, IMAGE_INFO, SNAP_REQ of reason 7. -/
abbrev toActive : List (Nat × Bytes) :=
  [(0x0C01, leBytes 8 100 ++ [6, 0] ++ leBytes 2 0 ++ leBytes 20 0), (0x0C01, leBytes 8 100 ++ [4, 2] ++ leBytes 6 0 ++ leBytes 4 9 ++ leBytes 12 0),
   (0x0E20, infoPayload), (0x0C03, [7, 0, 0, 0])]

theorem test_pair_messages_to_active_parse : ∀ x ∈ toActive, Jorek.parse (pairMsg x.1 x.2).encode = some (pairMsg x.1 x.2) := by
  simp only [List.forall_mem_cons, List.not_mem_nil, false_imp_iff, implies_true, and_true]
  exact ⟨rfl, rfl, rfl, rfl⟩

theorem witness_PairMessagesAreTaken_active :
    (∀ typ payload, (typ, payload) ∈ toActive → ∃ d, (wPair .active).dm.dev.pairOpen typ (pairMsg typ payload).encode = some (payload, d)) ∧
    (∃ d, (wPair .joining).dm.dev.pairOpen 0x0C01 (pairMsg 0x0C01 (leBytes 8 100 ++ [6, 0] ++ leBytes 2 0 ++ leBytes 20 0)).encode =
      some (leBytes 8 100 ++ [6, 0] ++ leBytes 2 0 ++ leBytes 20 0, d)) ∧
    (∃ d, (wPair .standby).dm.dev.pairOpen 0x0E20 (pairMsg 0x0E20 infoPayload).encode = some (infoPayload, d)) ∧
    (∃ d, wResync.dm.dev.pairOpen 0x0C03 (pairMsg 0x0C03 [3, 0, 0, 0]).encode = some ([3, 0, 0, 0], d)) ∧
    ((wPair .active).dev.Calm ∧ (wPair .active).dev.pairOn = true ∧ (wPair .active).dev.key.kOut ≠ [] ∧ (wPair .active).dev.pair.switchV = none ∧
      (wPair .active).dev.pair.epoch.toNat < 9 ∧ wResync.dev.Calm ∧ wResync.dev.pair.resync.isSome = true) ∧
    (∀ x ∈ toActive, x.1 = 0x0C01 → hbOk x.2 = true) ∧ rd infoPayload 12 8 % 2 ^ 48 ≠ 0 ∧
    (∀ r, min (wPair r).dev.ownVer (rd infoPayload 0 2) = 0) ∧ (wPair .active (fun d => d.onPair (fun p => { p with ver := 1 }))).dev.pair.ver ≠ 0 := by
  refine ⟨fun typ payload h => ⟨_, pairMsg_opens (test_pair_messages_to_active_parse (typ, payload) h) rfl rfl rfl rfl⟩,
    ⟨_, pairMsg_opens rfl rfl rfl rfl rfl⟩, ⟨_, pairMsg_opens rfl rfl rfl rfl rfl⟩, ⟨_, pairMsg_opens rfl rfl rfl rfl rfl⟩, by decide, by decide,
    by decide, fun r => Nat.min_eq_right (Nat.zero_le _), by decide⟩

theorem witness_PairMessagesAreTaken :
    (∀ typ payload, (typ, payload) ∈ payloads → ∃ d, (wPair .standby).dm.dev.pairOpen typ (pairMsg typ payload).encode = some (payload, d)) ∧
    (∃ d, (wPair .active).dm.dev.pairOpen 0x0C03 (pairMsg 0x0C03 [3, 0, 0, 0]).encode = some ([3, 0, 0, 0], d)) ∧
    ((wPair .standby).dev.Calm ∧ (wPair .joining).dev.Calm ∧ (wPair .active).dev.Calm ∧ hbOk hbPayload = true ∧ bit (rd hbPayload 9 1) 1 = true) ∧
    (∀ x ∈ payloads, x.1 = 0x0C02 → x.2.length = 16) ∧ (∃ x ∈ payloads, x.1 = 0x0C02 ∧ rd x.2 0 8 % 2 ^ 48 = 0) ∧
    (∃ x ∈ payloads, x.1 = 0x0C02 ∧ rd x.2 0 8 % 2 ^ 48 ≠ 0) ∧ (∀ x ∈ payloads, x.1 = 0x0E20 → x.2.length = 20) ∧
    (∀ x ∈ payloads, x.1 = 0x0C04 → x.2.length = 12 + 24 * rd x.2 8 1) ∧ (∀ x ∈ payloads, x.1 = 0x0C05 → x.2.length = 16) ∧
    ((wPair .active).dev.pair.resync = none ∧ (wPair .active).dev.pair.stopped = false ∧ rd [3, 0, 0, 0] 0 1 ≠ 7) := by
  refine ⟨fun typ payload h => ⟨_, pairMsg_opens (test_pair_messages_parse (typ, payload) h) rfl rfl rfl rfl⟩,
    ⟨_, pairMsg_opens rfl rfl rfl rfl rfl⟩, ?_⟩
  decide

theorem witness_PairMessagesAreTaken_key :
    wSecret.dev.Calm ∧ wSecret.dev.key.peerNonce = none ∧ wSecret.dev.pairSecret = some [1] ∧ wSecret.dev.key.pairTold = false ∧
    Jorek.parse (hello true).encode = some (hello true) ∧ bit (hello true).flags 1 = true ∧
    (hello true).tag = (hello true).tagOf (wSecret.dev.helloKey [1] (rd (hello true).payload 0 8)) ∧
    Jorek.parse (hello false).encode = some (hello false) ∧
    (hello false).tag ≠ (hello false).tagOf (wSecret.dev.helloKey [1] (rd (hello false).payload 0 8)) := by
  refine ⟨by decide, by decide, by decide, by decide, rfl, by decide, rfl, rfl, fun h => ?_⟩
  exact absurd (congrArg List.length h) (show ¬ (0 : Nat) = 8 by decide)

/-- A standby whose reference is lost. -/
def wLost : State := wPair .standby (fun d => d.onRef (fun r => { r with lost := true }))

theorem witness_PairMessagesAreTaken_relock : wLost.dev.Calm ∧ wLost.dev.clk.ref.lost = true ∧ wLost.dev.pair.role = .standby ∧
    ∃ d, wLost.dm.dev.pairOpen 0x0C05 (pairMsg 0x0C05 (leBytes 16 200)).encode = some (leBytes 16 200, d) :=
  ⟨by decide, by decide, by decide, _, pairMsg_opens rfl rfl rfl rfl rfl⟩

/-- A unit that yields. -/
def wYield : State := wPair .active (fun d => d.onPair (fun p => { p with yieldTo := some (98, 2), ownOut := true }))

/-- A unit that has been taking over for two heats. -/
def wTaking : State := wPair .takeover (fun d => d.onPair (fun p => { p with detect := some (9800000, 1, true) }))

/-- A unit that waits for its peer at a start, `pair.role` preferring Drag. -/
def wWait : State := wPair .joining (fun d => cfg [(P.pair_boot_wait_ms, 0, 10), (P.pair_role, 0, 1)] (d.onPair (fun p =>
  { p with bootWait := some 2000005 })))

/-- Slot data for plane 0 of slot 0 of buffer 7. -/
abbrev slotStream : Bytes := [8, 0, 0, 0] ++ leBytes 4 14 ++ leBytes 2 7 ++ [0, 0] ++ leBytes 4 0 ++ leBytes 4 2 ++ [5, 6, 0, 0]

/-- A buffer of one slot. -/
def buf7 : Buf := { (default : Buf) with
  index := 7, gen := 0, depth := 1, width := 16, height := 2, stride := 64, slots := [{ place := [(0, [0])] }] }

/-- A standby with that buffer, to which the data has come. -/
def wSlotData : State := wPair .standby (fun d => { d with
  cru := { d.cru with bufs := [buf7] }, pair := { d.pair with snapIn := some ⟨1, 24, slotStream⟩ } })

/-- A snapshot's end section, captured at heat 84. -/
abbrev staleStream : Bytes := [0xFF, 0xFF, 0, 0] ++ leBytes 4 16 ++ leBytes 8 0 ++ leBytes 8 84

/-- A standby that has taken a snapshot too old to apply. -/
def wStale : State := wPair .standby (fun d => d.onPair (fun p => { p with snapIn := some ⟨1, 24, staleStream⟩, resync := some (80, 5) }))

theorem witness_StandbyTakesOverAndStarts :
    (wAlone.dev.Calm ∧ wAlone.dev.pairOn = true ∧ wAlone.dev.pwr.mode = .standby ∧ wAlone.dev.hbSeen (wAlone.now 5).abs = false ∧
      wAlone.dev.aliveSeen (wAlone.now 5).abs = false ∧ wAlone.dev.pair.ready = true ∧ wAlone.dev.pwr.bankAt = none) ∧
    ((wPair .standby).dev.pair.ready = false ∧ bit ((cfg [(P.pair_ctrl, 0, 1)] (wPair .standby).dev).cn P.pair_ctrl 0) 1 = false) ∧
    (wTaking.dev.Calm ∧ wTaking.dev.pair.switched = none ∧ wTaking.dev.pair.role = .takeover ∧
      wTaking.dev.pair.detect = some (9800000, 1, true) ∧ wTaking.dev.switchDue (wTaking.now 5).abs 9800000 = true) ∧
    (wYield.dev.Calm ∧ wYield.dev.pair.switched = none ∧ wYield.dev.pair.role = .active ∧ wYield.dev.pair.yieldTo = some (98, 2) ∧
      98 ≤ wYield.tb.heat.toNat ∧ wYield.dev.switchDue (wYield.now 5).abs (98 * heatCycles) = true) ∧
    (wWait.dev.Calm ∧ wWait.dev.pair.bootWait = some 2000005 ∧ 2000005 + wWait.dev.cn P.pair_boot_wait_ms 0 * 800000 ≤ (wWait.now 5).abs) ∧
    (wSlotData.dev.Calm ∧ wSlotData.dev.pair.resync = none ∧ sections (24 / 8 + 1) slotStream = [(8, slice slotStream 8 14)] ∧
      wSlotData.dev.buf (rd (slice slotStream 8 14) 0 2) = some buf7) ∧
    (wStale.dev.Calm ∧ wStale.dev.pair.resync = some (80, 5) ∧ sections (24 / 8 + 1) staleStream = [(0xFFFF, slice staleStream 8 16)] ∧
      (slice staleStream 8 16).length = 16 ∧ rd (slice staleStream 8 16) 8 8 % 2 ^ 48 + 15 < wStale.tb.heat.toNat) :=
  ⟨by decide, by decide, by decide, by decide, by decide, by decide, by decide⟩

/-- The stream of an end section alone, captured at heat 99. -/
abbrev endStream : Bytes := [0xFF, 0xFF, 0, 0] ++ leBytes 4 16 ++ leBytes 8 0 ++ leBytes 8 99

/-- A standby that has taken such a snapshot. -/
def wSnap : State := wPair .standby (fun d => d.onPair (fun p => { p with snapIn := some ⟨1, 24, endStream⟩, resync := some (98, 5) }))

theorem witness_StandbyTakesOverAndStarts_snapshot : wSnap.dev.Calm ∧ wSnap.dev.pair.resync = some (98, 5) ∧
    (∀ q ∈ sections (24 / 8 + 1) endStream, q.1 ≠ 8) ∧
    ∃ f, secOf (sections (24 / 8 + 1) endStream) 0xFFFF = f ∧ f.length = 16 ∧ wSnap.tb.heat.toNat ≤ rd f 8 8 % 2 ^ 48 + 15 :=
  ⟨by decide, by decide, by decide, _, rfl, by decide, by decide⟩

/-! ## Chapters 17 and 18 -/

/-- A table update in progress with `k` steps done. -/
def wTable (k : Nat) : State := w (fun d => { openSession d with key := { d.key with
  update := some ⟨[(0, [1, 2]), (1, [3])], List.replicate 64 { state := 1, seq := 9, keyId := [5] }, k, .message ⟨1, 33, 0x0D01, 7, ⟨0, 0, 0⟩, 0, []⟩ 2 1⟩ } })

/-- A key in the last slot, in a background window. -/
def wKey : State := w (fun d => cfg [(P.key_remask_heats, 0, 8)] { openSession d with
  pwr := { d.pwr with booted := true, mode := .run }, work := { d.work with hardDone := true, messagesDone := true }, key := { d.key with
  slots := d.key.slots.set 63 { state := 1, typ := 2, usable := true, key := [1, 2] } } })

theorem witness_KeyTableStepsMasksAndChecks :
    ((wTable 0).dev.Calm ∧ (wTable 1).dev.Calm ∧ (wTable 2).dev.Calm ∧ (wTable 2).dev.key.update.isSome = true ∧ (wTable 2).dev.upd.seals = []) ∧
    (wKey.dev.Calm ∧ wKey.dev.cn P.key_remask_heats 0 ≠ 0 ∧ (cfg [(P.key_remask_heats, 0, 0)] wKey.dev).cn P.key_remask_heats 0 = 0 ∧ (wKey.dev.keySlot 63).usable = true ∧
      wKey.dev.backgroundTime = true ∧ wKey.dev.key.remaskAt + wKey.dev.cn P.key_remask_heats 0 ≤ wKey.tb.heat.toNat ∧
      31 < wKey.dev.ctl.slots.length) := by decide

/-- A transfer into pattern slot B, none of whose sectors is erased. -/
def xfer : Transfer := { id := 4, kind := 2, slot := 1, header := [1, 2, 3], size := 5, lastAt := 0 }

/-- Flash work: a transfer in progress long ago, and bytes in three sectors. -/
def wFlash (jobs : List UpdJob) (transfers : List Transfer) : State := { w (fun d => cfg [(P.upd_download_timeout_s, 0, 1)] { openSession d with
  upd := { d.upd with jobs := jobs, transfers := transfers }
  flash := [(0x17FFF, 1), (0x18000, 2), (0x18FFF, 3), (0x19000, 4), (0x14FFFFF, 5), (0x1500000, 6), (0x1500FFF, 7), (0x1501000, 8)] }) with
  tb := ⟨8000, 0⟩ }

theorem witness_FlashWorkEndsAndIsRecorded :
    ((wFlash [] [xfer]).dev.Calm ∧ (wFlash [] [xfer]).dev.download xfer.id = some xfer ∧ (wFlash [] [xfer]).dev.verifying xfer.id = false ∧
      slotIndex xfer.kind xfer.slot < (wFlash [] [xfer]).dev.upd.slots.length ∧
      xfer.lastAt + (wFlash [] [xfer]).dev.cn P.upd_download_timeout_s 0 * 800000000 ≤ ((wFlash [] [xfer]).now 5).abs) ∧
    ((wFlash [] []).dev.Calm ∧ (wFlash [] []).dev.upd.transfers = [] ∧ flBlobs ≤ 0x18000 ∧ 0x1F000 < flBlobs + 0x8000) ∧
    (xfer.waiting = [] ∧ 4096 * 0 + 4096 < imgSize xfer.kind ∧
      (wFlash [] [xfer]).dev.upd.transfers.find? (fun y => imgBase y.kind y.slot + 4096 * y.erased == imgBase 2 1 &&
        decide (4096 * y.erased < imgSize y.kind)) = some xfer) ∧
    (xfer.verifyAt + (wFlash [] [xfer]).dev.flashCycles xfer.size ≤ ((wFlash [] [xfer]).now 5).abs) ∧
    ((wFlash [.verify 4 ⟨1, 33, 0x0E03, 7, ⟨0, 0, 0⟩, 0, []⟩, .confirm] [xfer]).dev.upd.jobs.findSome?
      (fun j => match j with | .verify id r => some (id, r) | _ => none) = some (xfer.id, ⟨1, 33, 0x0E03, 7, ⟨0, 0, 0⟩, 0, []⟩)) ∧
    ((wFlash [.verify 4 ⟨1, 33, 0x0E03, 7, ⟨0, 0, 0⟩, 0, []⟩] [xfer]).dev.Calm ∧ (wFlash [.revert 1] []).dev.Calm ∧ (wFlash [.activate 1 0 ⟨1, 33, 0x0E04, 7, ⟨0, 0, 0⟩, 0, []⟩] []).dev.Calm) := by decide

/-- No slot names a blob of the sector to be erased. -/
theorem witness_FlashWork_blobs : ∀ i ∈ (wFlash [] []).dev.usedBlobs, i < (0x18000 - flBlobs) / 128 ∨ (0x18000 - flBlobs) / 128 + 32 ≤ i := by
  decide +kernel

/-- A changeover whose new pair has no image to load, and one back to the resident pair. -/
def wChange : State := w (fun d => { d with upd := { d.upd with phase := 2, trialKinds := 1, loadAt := 5 } })

/-- A changeback. -/
def wBack : State := w (fun d => { d with upd := { d.upd with phase := 5, trialKinds := 1, back := some 1, resident := true } })

/-- A body of one section to load. -/
abbrev oneSection : Bytes := ascii "ELS1" ++ leBytes 2 1 ++ leBytes 2 0 ++ leBytes 4 1 ++ leBytes 4 24 ++ leBytes 4 4 ++ leBytes 4 0x100 ++ leBytes 4 7

/-- The cells of firmware slot A with that body and a header whose HASH is still erased. -/
abbrev noHash : List Host.Cell :=
  flashWrites (flashWrites [] (imgBase 1 0) (ascii "ELI1" ++ leBytes 16 0 ++ leBytes 4 28 ++ leBytes 40 0)) (imgBase 1 0 + 512) oneSection

/-- A changeover with such a flash. -/
def wImage (flash : List Host.Cell) : State := w (fun d => { d with upd := { d.upd with phase := 2, trialKinds := 0, loadAt := 5 }, flash := flash })

/-- The same with the HASH of the body in the header. -/
abbrev wGood : State := wImage (flashWrites noHash (imgBase 1 0 + 64) (sha256 oneSection))

theorem sha256_length (b : Bytes) : (sha256 b).length = 32 := rfl

theorem wGood_read (a : Nat) : flashRead wGood.dev.flash a =
    if imgBase 1 0 + 64 ≤ a ∧ a < imgBase 1 0 + 64 + 32 then (sha256 oneSection).getD (a - (imgBase 1 0 + 64)) 0 else flashRead noHash a := by
  have h : flashWf noHash = true := by decide +kernel
  exact flashRead_flashWrites h

theorem wGood_bytes (a n : Nat) : wGood.dev.flashBytes a n = (List.range n).map (fun i =>
    if imgBase 1 0 + 64 ≤ a + i ∧ a + i < imgBase 1 0 + 64 + 32 then (sha256 oneSection).getD (a + i - (imgBase 1 0 + 64)) 0 else flashRead noHash (a + i)) := by
  simp only [Dev.flashBytes, wGood_read]

theorem wGood_size : (wGood.dev.imgHeader 1 0).take 4 = ascii "ELI1" ∧ rd (wGood.dev.imgHeader 1 0) 20 4 = 28 := by
  rw [Dev.imgHeader, wGood_bytes]
  exact ⟨by decide +kernel, by decide +kernel⟩

theorem wGood_body : wGood.dev.imgBody 1 0 = oneSection := by
  simp only [Dev.imgBody, wGood_size, wGood_bytes]
  decide +kernel

theorem wGood_hash : slice (wGood.dev.imgHeader 1 0) 64 32 = sha256 oneSection := by
  rw [Dev.imgHeader, wGood_bytes]
  refine List.ext_getElem (by simp [slice, sha256_length]) (fun i h1 h2 => ?_)
  have hi : i < 32 := by simpa [sha256_length] using h2
  simp only [slice, List.getElem_take, List.getElem_drop, List.getElem_map, List.getElem_range]
  have e : imgBase 1 0 + (64 + i) - (imgBase 1 0 + 64) = i := by omega
  rw [if_pos (by omega), e, List.getD_eq_getElem?_getD, List.getElem?_eq_getElem h2]
  rfl

/-- A trial whose conditions have held for 5 s, and that has lasted longer than `upd.confirm_s`. -/
def wTrial (resident : Bool) : State := { w (fun d => cfg [(P.upd_confirm_s, 0, 6), (P.upd_confirm_mode, 0, 0)] { d with
  upd := { d.upd with phase := 3, trialFlag := true, trialKinds := 3, since := some 800000000, trialAt := 0, resident := resident }
  pwr := { d.pwr with booted := true, mode := .run } }) with tb := ⟨48000, 0⟩ }

/-- A device that runs, with a state of the other controller pair. -/
def wPairs (a b : Nat) (f : Dev → Dev := id) : State := { w (fun d => f (cfg [(P.flt_warm_policy, 0, 0), (P.flt_selftest_s, 0, 1)] { openSession d with
  pwr := { d.pwr with booted := true, mode := .run }, flt := { d.flt with pairs := [{ state := a }, { state := b }] } })) with tb := ⟨8000, 0⟩ }

theorem witness_TrialsAndControllerPairsTakeTheirCourse :
    (wChange.dev.Calm ∧ wChange.dev.upd.phase = 2 ∧ wChange.dev.upd.entered = none ∧ wChange.dev.upd.jobs = [] ∧ wChange.dev.upd.seals = [] ∧
      wChange.dev.key.update = none ∧ kindsOf wChange.dev.upd.trialKinds = [1] ∧ wChange.dev.upd.back = none ∧ wChange.dev.upd.slots.length = 4 ∧ wChange.dev.sparePair = true) ∧
    (wBack.dev.Calm ∧ wBack.dev.upd.phase = 5 ∧ wBack.dev.upd.back = some 1 ∧ wBack.dev.upd.entered = none ∧ wBack.dev.sparePair = true) ∧
    ((wTrial true).dev.Calm ∧ (wTrial false).dev.Calm ∧ 800000000 + 4000000000 ≤ ((wTrial true).now 0).abs ∧
      (wTrial true).dev.upd.trialAt + (wTrial true).dev.cn P.upd_confirm_s 0 * 800000000 ≤ ((wTrial true).now 0).abs ∧
      (wTrial true).dev.cn P.upd_confirm_mode 0 = 0 ∧ (wTrial true).dev.fwRuns = true ∧ (wTrial true).dev.flt.pairs.length = 2 ∧
      (wTrial true).dev.sparePair = true ∧ ((wTrial true).dev.flt.pairs.getD (1 - (wTrial true).dev.activePair) {}).state = 0 ∧
      (wTrial true).dev.upd.entered = none) ∧
    ((wPairs 3 1).dev.Calm ∧ (wPairs 3 1).dev.fwRuns = true ∧ (wPairs 3 1).dev.activePair = 1 ∧ (wPairs 3 1).dev.cn P.flt_warm_policy 0 = 0 ∧
      (wPairs 1 0 (fun d => cfg [(P.flt_warm_policy, 0, 1)] d)).dev.cn P.flt_warm_policy 0 = 1 ∧ (wPairs 1 0).dev.pairOn = false) ∧
    ((wPairs 2 0 (fun d => { d with flt := { d.flt with halted := some 50 } })).dev.Calm ∧ (wPairs 2 0).dev.sparePair = true ∧
      (wPairs 2 0).dev.flt.haltedAt + (wPairs 2 0).dev.flashCycles ((wPairs 2 0).dev.loadSize 0) ≤ ((wPairs 2 0).now 5).abs ∧ (wPairs 1 2).dev.Calm ∧ (wPairs 1 0).dev.Calm ∧
      (wPairs 1 0).dev.flt.selftestAt + (wPairs 1 0).dev.cn P.flt_selftest_s 0 * 8000 ≤ (wPairs 1 0).tb.heat.toNat) :=
  ⟨by decide, by decide, by decide, by decide, by decide +kernel⟩


/-- The image of that body is good, and a slot that holds no image is not. -/
theorem witness_TrialsAndControllerPairs_image :
    (wGood.dev.Calm ∧ wGood.dev.upd.phase = 2 ∧ wGood.dev.upd.jobs = [] ∧ wGood.dev.upd.seals = [] ∧ wGood.dev.key.update = none ∧
      wGood.dev.upd.entered = none ∧ wGood.dev.sparePair = true ∧ wGood.dev.newSlot wGood.dev.upd.trialKinds 1 = 0) ∧
    (wGood.dev.bodyHashOk 1 0 = true ∧ wGood.dev.sectionsOk 0 = true) ∧
    wGood.dev.upd.loadAt + wGood.dev.flashCycles (rd (wGood.dev.imgHeader 1 0) 20 4) ≤ (wGood.now 10000000).abs ∧
    (wImage []).dev.sectionsOk 0 = false := by
  refine ⟨by decide, ⟨?_, ?_⟩, ?_, by decide +kernel⟩
  · rw [Dev.bodyHashOk, wGood_body, wGood_hash]; exact beq_self_eq_true _
  · rw [Dev.sectionsOk, wGood_body]; decide +kernel
  · rw [wGood_size.2]; decide +kernel

theorem witness_TrialsAndControllerPairs_tests :
    (let s := wPairs 1 2
     s.dev.flt.halted = none ∧ s.dev.flt.pairs.length = 2 ∧ (s.dev.flt.pairs.getD 1 {}).state = 2 ∧ (s.dev.flt.pairs.getD (1 - 1) {}).state = 1 ∧
       (s.dev.flt.pairs.getD 1 {}).again = false) ∧
    (let s := wPairs 1 0
     (s.dev.flt.pairs.getD 1 {}).state = 0 ∧ s.dev.cn P.flt_selftest_s 0 ≠ 0 ∧ s.dev.fwRuns = true) ∧
    ((wTrial true).dev.upd.trialFlag = true ∧ (wTrial true).dev.upd.resident = true ∧ (wPairs 1 0).dev.upd.trialFlag = false) := by decide
/-! ## Chapters 19 and 20 -/

/-- A device in Reset that has never started: the crystal is preferred. -/
def wFirst : State := w (fun d => { d with
  pwr := { d.pwr with mode := .reset }, par := { d.par with bootPending := [(pkey P.dev_ref_pref 0, numVal 2)] } })

/-- The same with a root secret that is established. -/
def wAgain : State := { wFirst with dev := { wFirst.dev with otp := { wFirst.dev.otp with enrolled := true, check := rootCheck (sha256 [1]) } } }

/-- A device whose ROM found no firmware a second ago. -/
def wNoFw : State := { w (fun d => { d with pwr := { d.pwr with booted := true, noFirmware := true, retryAt := 5 } }) with tb := ⟨8000, 0⟩ }

/-- A device whose first pour has come while it boots. -/
def wFirstPour (pair : Nat) : State := w (fun d => cfg [(P.pair_enable, 0, pair)] { openSession d with
  pwr := { d.pwr with booted := true, applied := true, firstPour := some 9000000, leadUs := 250 } })

/-- A script of a write and a wait of 7 µs. -/
abbrev script : Script := ⟨63, 2, 1, 0, [0, 0x20, 0, 0, 1, 0, 0, 0, 9, 0, 0, 0, 2, 0, 0, 0, 4, 0, 0, 0, 7, 0, 0, 0]⟩

/-- A device that runs it. -/
def wScript : State := w (fun d => { openSession d with
  pwr := { d.pwr with running := [(63, 1)], scripts := [script] } })

theorem witness_ResetStartsAndScripts :
    (wFirst.dev.Calm ∧ wFirst.dev.inReset = true ∧ wFirst.dev.otp.enrolled = false ∧ wFirst.dev.variant = .ely2416 ∧
      refChoice wFirst.dev.refPref true = some 1 ∧ wAgain.dev.Calm ∧ wAgain.dev.inReset = true ∧ wAgain.dev.otp.enrolled = true ∧
      refChoice wAgain.dev.refPref true = some 1 ∧ wAgain.dev.otp.erased = false) ∧
    (wNoFw.dev.Calm ∧ wNoFw.dev.pwr.mode = .boot ∧ wNoFw.dev.pwr.noFirmware = true ∧ 
      wNoFw.dev.pwr.retryAt + 800000000 ≤ (wNoFw.now 5).abs) ∧
    ((wFirstPour 1).dev.Calm ∧ (wFirstPour 1).dev.pairOn = true ∧ (wFirstPour 0).dev.pairOn = false ∧ (wFirstPour 0).dev.Calm ∧
      (wFirstPour 0).dev.sn P.dev_boot_time_us 0 = 0 ∧ (wFirstPour 0).dev.pwr.mode = .boot) ∧
    (wScript.dev.Calm ∧ wScript.dev.scriptNow = some script ∧ wScript.dev.pwr.running.find? (fun r => r.1 == 63) = some (63, 1) ∧
      1 + scriptWait (script.list.take script.list.length) ≤ (wScript.now 5).abs ∧ scriptWait script.list = 5600 ∧ ((script.list[0]?).map (·.op)) = some 0) ∧
    (wScript.dev.pwr.aon = false ∧ wScript.dev.pwr.mode ≠ .banked) := ⟨by decide, by decide, by decide, by decide, by decide⟩

/-- The retry's device finds no pattern either. -/
theorem witness_ResetStarts_pattern : (((([] : List (Nat × Bytes)).foldl (fun d w => d.program w.1 w.2) wNoFw.dm.dev).bootRecordChoice
    (wNoFw.now 5)).bootTrial (wNoFw.now 5)).startSlot 2 = none := by decide +kernel

/-- An idle device that banks. -/
def wIdle : State := w (fun d => cfg [(P.dev_bank_idle_ms, 0, 1)] { d with pwr := { d.pwr with mode := .autonomous, idleSince := some 9200005 } })

/-- A device whose outputs have stopped for Banked. -/
def wBank (keep : Nat) : State := { w (fun d => cfg [(P.cru_retention_en, 0, keep)] { openSession d with
  pwr := { d.pwr with mode := .autonomous, bankBegun := true, bankAt := some (1, 99), pwrEn := true }
  mor := { d.mor with tx := 2, stage := 7, farState := 7, up := true } }) with mem := [(5, 1), (917504, 2), (1048577, 3), (1966080, 4)] }

/-- A device in Banked with an armed source, and one whose wake is over. -/
def wBanked (k : Nat) : State := w (fun d => cfg [(P.dev_wake_src, 0, 1)] { openSession d with
  pwr := { d.pwr with mode := .banked, wake := if k = 0 then none else some (0, k) } })

/-- A device that is too hot, and one cool again with an output shed. -/
def wHot : State := w (fun d => cfg [(P.mould_shed_order, 0, 1), (P.mould_output, 0, 15)] ({ openSession d with
  pwr := { d.pwr with mode := .run, overSince := some 9 } }.onTg 15 (fun x => { x with state := .running })))

/-- A device that has been cool for 8,000 heats. -/
def wCool : State := { w (fun d => { openSession d with
  pwr := { d.pwr with mode := .run, underSince := some 0, shed := [15] } }.onTg 15 (fun x => { x with state := .running, shed := true })) with
  tb := ⟨8000, 0⟩ }

/-- A device with its last port in Run and monitored, as a fault finds it and 1 ms after its enable. -/
def wDriver : State := w (fun d => cfg [(P.flt_tx_monitor, 0, 0x8000)] (({ openSession d with
  pwr := { d.pwr with mode := .run }, flt := { d.flt with txRunAt := d.flt.txRunAt.set 15 (some 9200005), active := [(13, 5)] } }.setSN
    P.flt_tx_fault 0 0x8000).onTx 15 (fun p => { p with state := .run })))

theorem witness_BankedWakeSheddingAndDrivers :
    (wIdle.dev.Calm ∧ wIdle.dev.pair.mirrored = false ∧ wIdle.dev.pairOn = false ∧ wIdle.dev.pwr.bankAt = none ∧ wIdle.dev.pwr.bankBegun = false ∧
      9200005 + wIdle.dev.cn P.dev_bank_idle_ms 0 * 800000 ≤ (wIdle.now 5).abs) ∧
    ((wBank 1).dev.Calm ∧ (wBank 1).dev.pwr.bankBegun = true ∧ (∀ g, g < (wBank 1).dev.nTx → ((wBank 1).dev.tgen g).state = .stopped) ∧
      (wBank 1).dev.pwr.heldWake = none ∧
      { (wBank 1).dev with pwr := { (wBank 1).dev.pwr with heldWake := some 2 } }.Calm ∧
      (cfg [(P.dev_wake_src, 0, 1)] (wBank 1).dev).wakes 0 0 = true ∧ (wBank 1).dev.pwr.mode ≠ .banked ∧ (wBank 1).dev.nTx ≤ (wBank 1).dev.tx.length) ∧
    ((wBanked 0).dev.Calm ∧ (wBanked 0).dev.wakes 0 0 = true ∧ (wBanked 0).dev.pwr.wake = none ∧ (wBanked 0).dev.clk.cups.length = 4) ∧
    ((wBanked 23).dev.Calm ∧ (wBanked 23).dev.pwr.wake = some (0, 23) ∧ (wBanked 23).dev.pwr.sleepRunning = 0 ∧
      ((wBanked 23).dev.wakeUs - 2100) / 125 ≤ 23 ∧ (wBanked 23).dev.cn P.dev_droop_mv 0 ≤ 100 ∧ 0 < (wBanked 23).dev.cn P.dev_droop_mv 0) ∧
    (wHot.dev.Calm ∧ wHot.dev.pwr.mode.checksIn = true ∧ wHot.dev.pwr.overSince = some 9 ∧ wHot.dev.pair.role ≠ .standby ∧
      wHot.dev.shedNext = some 15) ∧
    (wCool.dev.Calm ∧ wCool.dev.pwr.shedAt = none ∧ wCool.dev.pwr.overSince = none ∧ 0 + 8000 ≤ wCool.tb.heat.toNat ∧
      wCool.dev.pwr.shed = [15] ∧ (wCool.dev.tgen 15).state = .running) ∧
    (wDriver.dev.Calm ∧ 15 < wDriver.dev.nTx ∧ bit (wDriver.dev.cn P.flt_tx_monitor 0) 15 = true ∧ (wDriver.dev.txp 15).state = .run ∧
      wDriver.dev.flt.txRunAt.getD 15 none = some 9200005 ∧ bit (wDriver.dev.sn P.flt_tx_fault 0) 15 = true ∧
      bit wDriver.dev.flt.txDown 15 = false ∧ wDriver.dev.cn P.flt_rail_margin_pct 0 ≤ 20 ∧ wDriver.dev.pwr.mode ≠ .reset ∧ 9200005 + 800000 ≤ (wDriver.now 5).abs) :=
  ⟨by decide, by decide, by decide, by decide, by decide, by decide, by decide⟩

/-! ## Values the spec works out, and single steps -/

/-- R7: graphic layer 4 of mould 2 is instance 14. -/
theorem test_layer_instance : layerInst 2 7 = 14 := by decide

/-- R212: the 8-bit alpha 255 becomes 1,024, and the 2-bit values 0, 341, 683 and 1,024. -/
theorem test_alpha_widens : expandAlpha 8 255 = 1024 ∧ [0, 1, 2, 3].map (expandAlpha 2) = [0, 341, 683, 1024] := by decide

/-- R50: slot 5 in generation 37 is session 1,189. -/
theorem test_session_id : ({ gen := 37 } : Session).id 5 = 1189 ∧ slotOf 1189 = 5 := by decide

/-- R46, R47: a SET with 100 bytes of payload and a tag is 124 bytes and travels as two 64-byte CAN frames. -/
theorem test_can_frames : (⟨1, 0x0211, 1189, 5, 2, List.replicate 100 1, List.replicate 8 2⟩ : Jorek).encode.length = 124 ∧
    (canFrames (⟨1, 0x0211, 1189, 5, 2, List.replicate 100 1, List.replicate 8 2⟩ : Jorek).encode).map List.length = [64, 64] := by decide +kernel

/-- R305: the largest 24-bit sample in a 16-bit slot is 32,767. -/
theorem test_sample_saturates : slotOut 16 0x7FFFFF = 0x7FFF ∧ slotOut 16 0x00017F = 0x0001 ∧ slotOut 16 0x000180 = 0x0002 := by decide

/-- R110, R112: the cluster's lane rate at 125.8752 MHz and ratio 24 is 755.2512 Mb/s, and needs no deskew burst. -/
theorem test_lane_rate :
    (let s := wTx [(P.txp_source, 0, 1), (P.tg_pclk_hz, 0, 125875200), (P.txp_lane_ratio, 0, 24)] id
     s.dev.laneKbps 0 = 755251 ∧ s.dev.txDeskews 0 = false) := by decide

/-- R285: from 2.4 GHz through 19 the cluster's clock has a rotation of −14,980,846 in 2⁻³². -/
theorem test_rotation : (rotFor 2400000000 125875200 19 + 32768) / 65536 = -14980846 := by decide

/-- R24: the heat number wraps after 2^48 − 1. -/
theorem test_heat_wraps :
    (match step { wRuns id with tb := ⟨281474976710655, 99999⟩, pending := [.heatBoundary {}] } with
     | .next u => decide (u.tb = ⟨0, 0⟩ ∧ u.pending = [])
     | _ => false) = true := by decide +kernel

/-- R28: after pour 2^32 − 1 comes pour 0. -/
theorem test_pour_wraps :
    (match step { wTg false (fun x => { x with state := .running, latched := true, started := true, pour := 0xFFFFFFFF#32 }) with
        pending := [.pour 7 15 [], .announce 8] } with
     | .next u => decide ((u.dev.tgen 15).pour = 0 ∧ (u.dev.tgen 15).latched = false ∧ u.pending = [.announce 8])
     | _ => false) = true := by decide +kernel

/-- R105: 0x040A comes for the last lane to sleep, with its count 1 to each session that wants it. -/
theorem test_last_lane_sleeps :
    (match exec (.rxLaneUlpsEntry 7 23 1) (wRx [(P.rxp_lanes, 23, 2)] (fun p => { p with state := .up, ulps := 1, clockUlps := true })) with
     | .next u => decide ((u.dev.slot 1).ev.entries.map (fun e => (e.code, e.inst, e.detail.getD 0 0)) = [(0x040A, 23, 1)] ∧ (u.dev.rxp 23).ulps = 3)
     | _ => false) = true := by decide +kernel

/-- An empty queue: the block idles. -/
theorem test_idle : step State.reset = .next State.reset := rfl

/-- The command table gives no row any bits, so no word puts a command into the queue. -/
theorem test_no_word_spells_a_command : decodeTableWord 32 0x12345678 = none ∧ State.reset.withFetchWord 32 0x12345678 = State.reset :=
  ⟨rfl, rfl⟩
end Sys2Proof.Tests
end

/-!
PROOFS. The event queues: the counts the hardware keeps, what a full queue does with an event that comes, and what a raised event shows
in each slot.
-/

namespace Sys2Proof.Machine

/-! ## Counts the hardware keeps -/

@[simp] theorem Store.look_put_same (s : Store) (key : Nat) (v : PVal) : (s.put key v).look key = some v := by
  induction s with
  | nil => simp [Store.put, Store.look]
  | cons p s ih =>
    obtain ⟨k, x⟩ := p
    simp only [Store.put]
    split
    · simp [Store.look]
    · split
      · simp [Store.look]
      · next hk =>
        have hne : k ≠ key := by
          rintro rfl
          simp at hk
        simp [Store.look, hne, ih]

theorem toNat_numVal {v : Nat} (h : v < 2 ^ 64) : (numVal v).toNat = v :=
  (BitVec.toNat_ofNat v 64).trans (Nat.mod_eq_of_lt h)

theorem sat_lt_two_pow (w v : Nat) : sat w v < 2 ^ w := by
  have hw := Nat.two_pow_pos w
  unfold sat
  omega

theorem Dev.setSN_sn_same (d : Dev) (id inst : Nat) {v : Nat} (h : v < 2 ^ 64) : (d.setSN id inst v).sn id inst = v := by
  simp [Dev.setSN, Dev.setS, Dev.sn, Store.num, Store.val, toNat_numVal h]

theorem Dev.bumpBy_sn_same (d : Dev) (id inst : Nat) {k : Nat} (hk : k ≠ 0) :
    (d.bumpBy id inst k).sn id inst = sat 32 (d.sn id inst + k) := by
  have hs := sat_lt_two_pow 32 (d.sn id inst + k)
  simp only [Dev.bumpBy, beq_eq_false_iff_ne.mpr hk, Bool.false_eq_true, if_false]
  exact d.setSN_sn_same id inst (by omega)

theorem lt_sat_add {w a k : Nat} (ha : a < 2 ^ w - 1) (hk : k ≠ 0) : a < sat w (a + k) := by
  unfold sat
  omega

/-! ## The entry that absorbs an event (R64) -/

section Absorb

variable {code inst : Nat} {det : Bytes}

@[simp] theorem length_absorb (l : List QEvent) : (absorb code inst det l).length = l.length := by
  induction l with
  | nil => rfl
  | cons e l ih =>
    simp only [absorb]
    split
    · rfl
    · simp [ih]

theorem absorb_of_none_absorbs {l : List QEvent} (h : ∀ e ∈ l, e.absorbs code inst = false) : absorb code inst det l = l := by
  induction l with
  | nil => rfl
  | cons e l ih =>
    obtain ⟨he, hl⟩ := List.forall_mem_cons.mp h
    simp [absorb, he, ih hl]

theorem absorb_append_cons {pre post : List QEvent} {e : QEvent} (hpre : ∀ x ∈ pre, x.absorbs code inst = false)
    (he : e.absorbs code inst = true) :
    absorb code inst det (pre ++ e :: post) =
      pre ++ { e with count := sat 16 (e.count + 1), coalesced := true, detail := fit 12 det } :: post := by
  induction pre with
  | nil => simp [absorb, he]
  | cons x pre ih =>
    obtain ⟨hx, hpre⟩ := List.forall_mem_cons.mp hpre
    simp [absorb, hx, ih hpre]

theorem QEvent.absorbs_of_sent {e : QEvent} (h : e.sentAt ≠ none) : e.absorbs code inst = false := by
  simp [QEvent.absorbs, h]

theorem mem_absorb_of_not_absorbs {l : List QEvent} {e : QEvent} (hm : e ∈ l) (he : e.absorbs code inst = false) :
    e ∈ absorb code inst det l := by
  induction l with
  | nil => exact hm
  | cons x l ih =>
    simp only [absorb]
    split
    · next hx =>
      have hne : e ≠ x := by
        rintro rfl
        simp [he] at hx
      exact List.mem_cons_of_mem _ ((List.mem_cons.mp hm).resolve_left hne)
    · rcases List.mem_cons.mp hm with rfl | hm
      · exact List.mem_cons_self
      · exact List.mem_cons_of_mem _ (ih hm)

end Absorb

/-! ## A full queue (R64) -/

section Full

variable {q : EvQueue} {code inst : Nat}

/-- Where no entry absorbs the event, `absorb` leaves the entries alone, so that one form of the entries serves both branches. -/
theorem EvQueue.push_full (hw : q.wants code = true) (hfull : 64 ≤ q.entries.length) (n : Now) (det : Bytes) :
    q.push n code inst det = { q with
      entries := absorb code inst det q.entries
      lost := if q.entries.any (QEvent.absorbs code inst) then q.lost else sat 16 (q.lost + 1) } := by
  simp only [EvQueue.push, hw, Bool.not_true, Bool.false_eq_true, if_false, Nat.not_lt.mpr hfull]
  split
  · rfl
  · next hnone =>
    rw [absorb_of_none_absorbs (by simpa using hnone)]

theorem EvQueue.push_full_absorbed (hw : q.wants code = true) (hfull : 64 ≤ q.entries.length) (n : Now) (det : Bytes)
    {pre post : List QEvent} {e : QEvent} (hq : q.entries = pre ++ e :: post) (hpre : ∀ x ∈ pre, x.absorbs code inst = false)
    (he : e.absorbs code inst = true) :
    q.push n code inst det = { q with
      entries := pre ++ { e with count := sat 16 (e.count + 1), coalesced := true, detail := fit 12 det } :: post } := by
  have hany : q.entries.any (QEvent.absorbs code inst) = true := List.any_eq_true.mpr ⟨e, by simp [hq], he⟩
  simp only [push_full hw hfull, hany, if_true]
  rw [hq, absorb_append_cons hpre he]

theorem EvQueue.push_full_dropped (hw : q.wants code = true) (hfull : 64 ≤ q.entries.length) (n : Now) (det : Bytes)
    (hnone : ∀ e ∈ q.entries, e.absorbs code inst = false) :
    q.push n code inst det = { q with lost := sat 16 (q.lost + 1) } := by
  have hany : q.entries.any (QEvent.absorbs code inst) = false := by simpa using hnone
  simp [push_full hw hfull, hany, absorb_of_none_absorbs hnone]

theorem EvQueue.drops_of_none_absorbs (hw : q.wants code = true) (hfull : 64 ≤ q.entries.length)
    (hnone : ∀ e ∈ q.entries, e.absorbs code inst = false) : q.drops code inst = true := by
  simpa [EvQueue.drops, hw, hfull] using hnone

end Full

/-! ## A raised event in the slots (R62, R64) -/

/-- The slots beyond the list are free, and a free slot takes no event, so `i` needs no bound. -/
theorem Dev.raise_slot (d : Dev) (n : Now) (code inst : Nat) (det : Bytes) (i : Nat) :
    (d.raise n code inst det).slot i = (d.slot i).event n code inst det := by
  simp only [Dev.raise, Dev.slot, Dev.bumpBy_ctl]
  simp only [List.getD_eq_getElem?_getD, List.getElem?_map]
  cases d.ctl.slots[i]? with
  | none => rfl
  | some s => rfl

theorem Dev.raise_slot_ev_of_open {d : Dev} {i : Nat} (h : (d.slot i).state = .open) (n : Now) (code inst : Nat) (det : Bytes) :
    ((d.raise n code inst det).slot i).ev = (d.slot i).ev.push n code inst det := by
  simp [Dev.raise_slot, Session.event, h]

theorem Dev.slot_mem {d : Dev} {i : Nat} (h : i < d.ctl.slots.length) : d.slot i ∈ d.ctl.slots := by
  simp [Dev.slot, h]

/-- The slots that drop the event are counted before the queues change; one is enough for the count to rise. -/
theorem Dev.lost_event_count_lt_raise {d : Dev} {i code inst : Nat} (hi : i < d.ctl.slots.length)
    (hdrop : (d.slot i).dropsEvent code inst = true) (hroom : d.sn P.ctl_lost_event_count 0 < 2 ^ 32 - 1) (n : Now) (det : Bytes) :
    d.sn P.ctl_lost_event_count 0 < (d.raise n code inst det).sn P.ctl_lost_event_count 0 := by
  have hlosses : (d.ctl.slots.filter (fun s => s.dropsEvent code inst)).length ≠ 0 :=
    Nat.ne_of_gt (List.length_pos_of_mem (List.mem_filter.mpr ⟨Dev.slot_mem hi, hdrop⟩))
  rw [Dev.raise, Dev.bumpBy_sn_same _ _ _ hlosses]
  exact lt_sat_add hroom hlosses

end Sys2Proof.Machine

section

open Sys2Proof Sys2Proof.Machine

/-- Settles O7: in a full queue the entries become `absorb` of the entries, which changes the first absorbing one and no other. -/
theorem fullEventQueueAbsorbsOrDrops : Obligations.FullEventQueueAbsorbsOrDrops := by
  intro d n i code inst det hi hopen hw hfull
  rw [Dev.raise_slot_ev_of_open hopen]
  refine ⟨?length, ?sent, ?absorbed, ?dropped⟩
  case length => simp [EvQueue.push_full hw hfull]
  case sent =>
    intro e he hsent
    rw [EvQueue.push_full hw hfull]
    exact mem_absorb_of_not_absorbs he (QEvent.absorbs_of_sent hsent)
  case absorbed =>
    intro pre e post hq hpre he
    exact EvQueue.push_full_absorbed hw hfull n det hq hpre he
  case dropped =>
    intro hnone
    refine ⟨EvQueue.push_full_dropped hw hfull n det hnone, fun hroom => ?_⟩
    have hdrop : (d.slot i).dropsEvent code inst = true := by
      simp [Session.dropsEvent, hopen, EvQueue.drops_of_none_absorbs hw hfull hnone]
    exact Dev.lost_event_count_lt_raise hi hdrop hroom n det

end

/-!
PROOFS. Audio: the range of a two's complement field and the samples of serial slots.
-/

namespace Sys2Proof.Machine

/-! ## Two's complement fields -/

/-- `signed` is the library's balanced remainder, whose lemmas give its range and undo `unsigned`. -/
theorem signed_eq_bmod {n : Nat} (hn : 0 < n) (v : Nat) : signed n v = (v : Int).bmod (2 ^ n) := by
  have hcond : (v : Int) % (2 ^ n : Nat) < ((2 ^ n : Nat) + 1) / 2 ↔ v % 2 ^ n < 2 ^ (n - 1) := by
    have hdouble := Nat.two_pow_pred_mul_two hn
    omega
  simp only [signed, Int.bmod_def, hcond]
  push_cast
  rfl

section Field

variable {n : Nat} (hn : 0 < n)
include hn

theorem two_mul_signed_bounds (v : Nat) : -2 ^ n ≤ 2 * signed n v ∧ 2 * signed n v < 2 ^ n := by
  have hlo := Int.le_bmod (x := v) (Nat.two_pow_pos n)
  have hhi := Int.bmod_lt (x := v) (Nat.two_pow_pos n)
  have hdouble := Nat.two_pow_pred_mul_two hn
  rw [signed_eq_bmod hn]
  push_cast at *
  omega

theorem signed_unsigned {v : Int} (hlo : -2 ^ n ≤ v * 2) (hhi : v * 2 < 2 ^ n) : signed n (unsigned n v) = v := by
  have hpos : (0 : Int) < 2 ^ n := Int.pow_pos (by decide)
  calc signed n (unsigned n v)
    _ = (v % (2 ^ n : Nat)).bmod (2 ^ n) := by
        rw [signed_eq_bmod hn, unsigned, Int.toNat_of_nonneg (Int.emod_nonneg _ (Int.ne_of_gt hpos))]
        push_cast
        rfl
    _ = v.bmod (2 ^ n) := Int.emod_bmod v (2 ^ n)
    _ = v := Int.bmod_eq_of_le_mul_two (by push_cast; exact hlo) (by push_cast; exact hhi)

end Field

/-! ## Samples (R305) -/

theorem slotIn_16 {v : Nat} (h : v < 2 ^ 16) : slotIn 16 v = v * 256 :=
  congrArg (· * 256) (Nat.mod_eq_of_lt h)

theorem slotIn_24 {v : Nat} (h : v < 2 ^ 24) : slotIn 24 v = v :=
  Nat.mod_eq_of_lt h

theorem slotIn_32 {v : Nat} (h : v < 2 ^ 32) : slotIn 32 v = v / 256 :=
  Nat.mod_eq_of_lt (by omega)

theorem slotOut_24 {s : Nat} (h : s < 2 ^ 24) : slotOut 24 s = s :=
  Nat.mod_eq_of_lt h

theorem slotOut_32 {s : Nat} (h : s < 2 ^ 24) : slotOut 32 s = s * 256 :=
  congrArg (· * 256) (Nat.mod_eq_of_lt h)

/-- The rounded sample is at least −32,768 and the minimum keeps it at most 32,767, so that the 16-bit slot holds it. -/
theorem signed_slotOut_16 (s : Nat) : signed 16 (slotOut 16 s) = min ((signed 24 s + 128) / 256) 32767 := by
  have hrange := two_mul_signed_bounds (n := 24) (by decide) s
  exact signed_unsigned (by decide) (by omega) (by omega)

end Sys2Proof.Machine

section

open Sys2Proof Sys2Proof.Machine

/-- Settles O10: one lemma per direction and width; the 16-bit slot holds the rounded sample because the sample's range is known. -/
theorem serialSamplesAreConverted : Obligations.SerialSamplesAreConverted := fun _ =>
  ⟨slotIn_16, fun h => ⟨slotIn_24 h, slotOut_24 h, slotOut_32 h⟩, slotIn_32, fun _ => signed_slotOut_16 _⟩

end

/-!
PROOFS. The mode's code in the parameter map and in the messages that carry it: bytes of a payload at the offsets its table gives.
-/

namespace Sys2Proof.Machine

/-! ## Fields of a payload -/

@[simp] theorem leBytes_length (n v : Nat) : (leBytes n v).length = n := by
  induction n generalizing v with
  | zero => rfl
  | succ n ih => simp [leBytes, ih]

/-- The bytes after a leading field stand at offsets counted from the field's end. -/
theorem getD_leBytes_append (n v k : Nat) (rest : Bytes) (b : Byte) : (leBytes n v ++ rest).getD (n + k) b = rest.getD k b := by
  have hle : (leBytes n v).length ≤ n + k := (leBytes_length n v).symm ▸ Nat.le_add_right n k
  rw [List.getD_eq_getElem?_getD, List.getD_eq_getElem?_getD, List.getElem?_append_right hle, leBytes_length, Nat.add_sub_cancel_left]

theorem getD_leBytes_one_append (v : Nat) (rest : Bytes) (b : Byte) : (leBytes 1 v ++ rest).getD 0 b = BitVec.ofNat 8 v := rfl

/-! ## The carriers of the mode code (R428) -/

theorem statusId_dev_mode : statusId P.dev_mode = true := by decide

theorem Dev.devValue_dev_mode (d : Dev) : d.devValue P.dev_mode = some (numVal d.pwr.mode.code) := rfl

theorem Dev.getValue_dev_mode (d : Dev) (n : Now) : d.getValue n P.dev_mode 0 = numVal d.pwr.mode.code := by
  have hblock : d.blockValue n P.dev_mode 0 = some (numVal d.pwr.mode.code) := d.devValue_dev_mode
  simp [Dev.getValue, statusId_dev_mode, hblock]

/-- Table 3.5: MODE stands behind the two bytes of HW_TYPE and the one of STEPPING. -/
theorem Dev.announcePayload_mode (d : Dev) (n : Now) (drag active trial : Bool) (fwVer patVer : Nat) :
    (d.announcePayload n drag active trial fwVer patVer).getD 3 0 = BitVec.ofNat 8 d.pwr.mode.code := by
  simp only [Dev.announcePayload, List.append_assoc]
  rw [getD_leBytes_append 2 _ 1, getD_leBytes_append 1 _ 0, getD_leBytes_one_append]

/-- Table 16.2: MODE stands behind the eight bytes of the heat. -/
theorem Dev.sendHeartbeat_mode (d : Dev) (n : Now) (apply : List Nat) : ∃ (p : Bytes) (f : Pair → Pair),
    p.getD 8 0 = BitVec.ofNat 8 d.pwr.mode.code ∧ d.sendHeartbeat n apply = ((d.onPair f).pairSend 0x0C01 p).chkMatch n := by
  refine ⟨_, _, ?mode, rfl⟩
  case mode =>
    simp only [List.append_assoc]
    rw [getD_leBytes_append 8 _ 0, getD_leBytes_one_append]

end Sys2Proof.Machine

section

open Sys2Proof Sys2Proof.Machine

/-- Settles O9: the table by evaluation, then one lemma for each of the three places that carry the code. -/
theorem modeCodesAreThoseOfTheTable : Obligations.ModeCodesAreThoseOfTheTable :=
  ⟨rfl, Dev.getValue_dev_mode, Dev.announcePayload_mode, Dev.sendHeartbeat_mode⟩

end
